-- ==== Sys2Proof/Word.lean ====
section
/-!
DEFINITION. Words of the manual: bytes in lists, fields of words, two's complement (R5, R8, R300).
-/
namespace Sys2Proof

/-- A tick of the 1,244.16 MHz time clock (00_scope.md, R220). -/
abbrev Tick := Nat

/-- Bytes as they travel, first byte first (R5); each element is below 256. -/
abbrev Bytes := List Nat

/-- The field of `w` bits at bit `lo` of `x` (R8). -/
def field (x lo w : Nat) : Nat := x / 2 ^ lo % 2 ^ w

/-- Bit `k` of `x`. -/
def bitAt (x k : Nat) : Bool := x / 2 ^ k % 2 == 1

/-- `x` with bit `k` set to `b`. -/
def setBit (x k : Nat) (b : Bool) : Nat :=
  if bitAt x k then (if b then x else x - 2 ^ k) else (if b then x + 2 ^ k else x)

/-- `x` with the field of `w` bits at `lo` replaced by `v`. -/
def setField (x lo w v : Nat) : Nat := x - field x lo w * 2 ^ lo + (v % 2 ^ w) * 2 ^ lo

/-- The number that bytes spell, most significant byte first (R5). -/
def ofBytes (bs : Bytes) : Nat := bs.foldl (fun a b => a * 256 + b % 256) 0

/-- The `n` bytes of a number, most significant byte first (R5). -/
def toBytes : Nat → Nat → Bytes
  | 0, _ => []
  | n + 1, x => x / 256 ^ n % 256 :: toBytes n x

/-- The signed value of a two's complement number of `bits` bits (R300). -/
def toSigned (bits x : Nat) : Int :=
  if x % 2 ^ bits < 2 ^ (bits - 1) then (x % 2 ^ bits : Nat) else (x % 2 ^ bits : Nat) - (2 ^ bits : Nat)

/-- The two's complement number of `bits` bits of a signed value (R300). -/
def ofSigned (bits : Nat) (v : Int) : Nat := (v % (2 ^ bits : Nat)).toNat

/-- Division rounding up. -/
def ceilDiv (a b : Nat) : Nat := (a + b - 1) / b

/-- Rounding down to a multiple of 16 (R104). -/
def floor16 (x : Nat) : Nat := x / 16 * 16

/-- Rounding up to a multiple of 16. -/
def ceil16 (x : Nat) : Nat := (x + 15) / 16 * 16

/-- A truth value as the byte a BOOL holds (R300). -/
def ofBool (b : Bool) : Nat := if b then 1 else 0

/-- Milliseconds in ticks: 1,244,160 a millisecond (00_scope.md). -/
def msTicks (ms : Nat) : Nat := ms * 1244160

/-- Microseconds in hundredths of ticks: 124,416 a microsecond (00_scope.md). -/
def usTicks100 (us : Nat) : Nat := us * 124416

end Sys2Proof
end

