-- ==== Sys2Proof/Syntax.lean ====
section
/-!
DEFINITION. The commands of the block: one constructor per row of spec/opcode_table.json, in the table's order. The
table gives no operands; each constructor carries what its governing rule says the step is about. An operand `n` is
the tick at which the step happens. The fixed points of R19 and R26 carry none: the manual gives their tick.
-/
namespace Sys2Proof

/-- Who accesses the dictionary (R313): a Swijan session 1-16, or the Dictionary Serial Port. -/
inductive Master where
  | session (k : Nat)
  | serial
  deriving DecidableEq, Repr

/-- Which map a fixed point belongs to: the frame's (R19), or sub-period `k` of a LATENCY quad (R26). -/
inductive MapPoint where
  | frame
  | sub (k : Nat)
  deriving DecidableEq, Repr

/-- The consumers of a sealed map (R22). -/
inductive Consumer where
  | quarry | burstReceiver | rogue | mateLink | gnomon | admission
  deriving DecidableEq, Repr

/-- A burst of a map: superframe count, map point and position in the map. -/
structure BurstRef where
  sfc : Nat
  point : MapPoint
  pos : Nat
  deriving DecidableEq, Repr

/-- The result of the 13-bit check of a header candidate (R51). -/
inductive HeaderCheck where
  | fits | corrected | uncorrectable
  deriving DecidableEq, Repr

/-- What an upstream encapsulation frame carries once its header is read. `good` is whether the deciphered bytes pass
the FCS check of R123 (a wrong key shows there); `recutGood` the same under the slot's other half. An idle encapsulation frame has
no bytes. -/
structure UpFrame where
  encPort : Nat
  keyIndex : Nat
  lastFragment : Bool
  bytes : Bytes
  good : Bool
  recutGood : Bool
  marked : Bool
  deriving DecidableEq, Repr

/-- A header candidate on a 4-byte boundary of an allocation interval: `pos` in units of 4 bytes, `len` the header's
own frame length in units of 4 bytes, header included. -/
structure Candidate where
  pos : Nat
  check : HeaderCheck
  len : Nat
  frame : UpFrame
  deriving DecidableEq, Repr

/-- One allocation interval of a burst: its length in units of 4 bytes and its candidates. -/
structure Interval where
  alloc : Nat
  words : Nat
  cands : List Candidate
  deriving DecidableEq, Repr

/-- A status report field as received (R90, R91). -/
structure Report where
  alloc : Nat
  bytes : Nat
  checkOk : Bool
  marked : Bool
  deriving DecidableEq, Repr

/-- What an upstream PLOAM message says, as far as the device acts on it (R63, R68, R69, R73). -/
inductive PloamKind where
  | serialNumber (sn : Nat)
  | powerRequest
  | other
  deriving DecidableEq, Repr

/-- An upstream management message (R63): PLOAM or OMCI, the number of bytes its own length field gives it, the bytes of it
that arrived, and whether its integrity code is good. -/
structure MgmtMessage where
  omci : Bool
  length : Nat
  payload : Bytes
  micGood : Bool
  kind : PloamKind
  deriving DecidableEq, Repr

/-- A place that a delimiter search tries (R46, R47): the tick and the bit position after it at which the delimiter would
begin, the recovered-clock phase in units of 5 ps, and the number of bits that differ from the delimiter. -/
structure DelimPlace where
  tick : Nat
  bit : Nat
  phase : Nat
  differ : Nat
  deriving DecidableEq, Repr

/-- What the receiver sees of one upstream burst (R46-R49). `positions` are the places the delimiter search tries, in
order; `bits` are the bits received after the delimiter. -/
structure BurstObs where
  locked : Bool
  positions : List DelimPlace
  onuId : Nat
  rdi : Bool
  codewords : Nat
  correctedBits : Nat
  uncorrectable : Nat
  bits : Nat
  reports : List Report
  messages : List MgmtMessage
  intervals : List Interval
  signal : Bool
  deriving DecidableEq, Repr

/-- The tree and mate-link defects (R53). -/
inductive Defect where
  | los | lof | ais | rdi
  deriving DecidableEq, Repr

/-- The terminal defects (R53). -/
inductive TermDefect where
  | losi | lofi | rdii
  deriving DecidableEq, Repr

/-- What the rogue detector saw in one watched slot (R82): burst CDR lock, whether the optics signal detect occurred in the
slot and whether it held through the slot, and the module's reading after an RSSI trigger. -/
structure RogueSlot where
  lock : Bool
  signal : Bool
  holds : Bool
  rssi : Nat
  deriving DecidableEq, Repr

/-- What the rogue detector saw in the watched slots of frame `sfc`, in their order, and the terminal (0-511) that lit light framed
as, if any. -/
structure RogueObs where
  sfc : Nat
  slots : List RogueSlot
  named : Option Nat
  deriving DecidableEq, Repr

/-- Where a Quarry job comes from (R115): the keystream of grant `pos` of a burst of tree `t` at map seal, with or without
LAT_BOUND; the Line Framer's downstream keystream; the Delineator's recut; an integrity code of the Line Framer or the
Delineator; the Dictionary Engine's or the Mate Link's GCM. -/
inductive JobSource where
  | grant (t alloc : Nat) (burst : BurstRef)
  | downstream (t : Nat)
  | recut (g : Nat)
  | integrity (t : Nat)
  | gcm
  deriving DecidableEq, Repr

/-- A Quarry job as its source queues it (R115): the class is the source's. -/
structure JobReq where
  src : JobSource
  blocks : Nat
  deriving DecidableEq, Repr

/-- A mate frame as it arrives (R260): header word, result of its 13-bit check, payload. -/
structure MateFrameIn where
  header : Nat
  check : HeaderCheck
  payload : Bytes
  deriving DecidableEq, Repr

/-- A receive port of frames. -/
inductive RxPort where
  | uplink (p : Nat)
  | mgmt
  deriving DecidableEq, Repr

/-- Where a frame is asked for (R202). -/
inductive Egress where
  | tree (t : Nat)
  | port (p : Nat)
  | host
  deriving DecidableEq, Repr

/-- A heartbeat as it arrives (R270, R271). -/
inductive HeartbeatIn where
  | lanes (f : MateFrameIn)
  | pins (word : Nat)
  deriving DecidableEq, Repr

/-- The two mate paths (R270). -/
inductive Path where
  | lanes | pins
  deriving DecidableEq, Repr

/-- What goes down: an uplink port or the mate link (R251, R261). -/
inductive LinkId where
  | port (p : Nat)
  | mate
  deriving DecidableEq, Repr

/-- Why a relinquish is sent (R276). -/
inductive RelinquishCause where
  | command (m : Master)
  | fault
  | reset
  deriving DecidableEq, Repr

/-- Why a standby takes over (R274, R276): both paths silent, or a relinquish on the lanes or the pins. -/
inductive TakeoverCause where
  | silence
  | relinquish (path : Path) (sfc : Nat)
  deriving DecidableEq, Repr

namespace Machine

/-- An allocation structure of a map (R102). Bytes are kept by the step of R93 that granted them; `fromAssured` is what step
7 took from the assured bucket. `cutPoll` marks a poll grant that was cut and stays due; `dec` and `prevTick` are what
seal took from demand and the allocation's former grant tick, for R23. -/
structure Grant where
  alloc : Nat
  size : Nat
  owed : Nat
  fixed : Nat
  assured : Nat
  poll : Nat
  added : Nat
  fromAssured : Nat
  report : Bool
  cutPoll : Bool
  dec : Nat
  prevTick : Nat
  keySlot : Nat
  ctrStart : Nat
  keyIndex : Nat
  deriving DecidableEq, Repr

/-- What a burst is granted for: a terminal's allocations, ranging of a terminal, or discovery (R86). -/
inductive BurstKind where
  | data | ranging | discovery
  deriving DecidableEq, Repr

/-- One burst of a map (R99, R102). `start` is in line bytes from the start of the arrival period; `window` is the start,
in ps after the reference time, of the window of a discovery or ranging grant, which R74 may put before that time. `pulsed`
tells that its receiver-reset pulse has been given (R45), `heard` that a burst has locked in it, and `stamp` is the Gnomon's
stamp of its arrival in ps after the frame start of its map (R22, R47). `keySlot` and `ctrStart` are those of the record of a
ranging grant. -/
structure MapBurst where
  kind : BurstKind
  terminal : Nat
  entry : Nat
  start : Nat
  cost : Nat
  ploam : Bool
  grants : List Grant
  window : Option Int
  ended : Bool
  orphan : Bool
  pulsed : Bool := false
  heard : Bool := false
  stamp : Option Int := none
  keySlot : Nat := 0
  ctrStart : Nat := 0
  deriving DecidableEq, Repr

/-- A bandwidth map: the one being built, one sealed, or one sent. `late` are its late non-blocking consumers (R24); `idle`
the idle slots of its arrival period, in line bytes, that the rogue detector is handed (R22, R82). -/
structure Map where
  sfc : Nat
  point : MapPoint
  empty : Bool
  bursts : List MapBurst
  late : List Consumer
  idle : List (Nat × Nat) := []
  deriving DecidableEq, Repr

end Machine

/-- A mirrored record (R267, R268): a map is per frame, every other record durable. `model` is the clock model that a standby
copies (R240): OFFSET and BASE_TICK as R221, INC; `keySlot` the whole of a key slot, as a resync streams it (R269), a half being
its two key words and its index. -/
inductive MirrorRecord where
  | objectWrite (dseq index inst sub tick : Nat) (data : Bytes)
  | windowWrite (dseq index inst record tick : Nat) (data : Bytes)
  | commit (dseq : Nat)
  | profile (dseq q v : Nat)
  | terminal (dseq g state onuId eqd entry : Nat)
  | staticAddress (dseq : Nat) (insert : Bool) (rec : Nat)
  | pathLatency (dseq t psync burst opticsDn opticsUp : Nat)
  | rate (dseq inc tick : Nat)
  | step (dseq mode value tick : Nat)
  | keyRetired (dseq s : Nat)
  | keySlot (dseq s : Nat) (current next : Option (Nat × Nat × Nat)) (retiring erased : Bool) (switchSfc retireAt : Nat)
  | model (dseq offset base inc : Nat)
  | map (t : Nat) (m : Machine.Map)
  deriving DecidableEq, Repr

/-- One fault occurrence at its source (R285, R287). -/
structure Occurrence where
  source : Nat
  master : Nat := 0
  access : Nat := 0
  session : Nat := 0
  detail : Nat := 0
  index : Nat := 0
  aux : Nat := 0
  deriving DecidableEq, Repr

/-- Where a cell address or descriptor number is checked (R187). -/
inductive PtrStage where
  | descriptor | link | ring | descriptorStore
  deriving DecidableEq, Repr

/-- What the silicon reports of itself at its die's collector (R285): an occurrence of a source, or the end of a level source's
condition; an address or descriptor number read, of the frame that descriptor `desc` names where it has one (R187); an error of
the buffer's memory, corrected, or of two bits in frame data read for a send or in the links or the descriptor of a frame (R188);
one of two bits in the permit-set word that the next check of a queue reads (R212); a junction sensor (R356) or a rail (R334)
measured; a PLL that stops or locks (R282, R329). -/
inductive HwReport where
  | fault (o : Occurrence)
  | ends (source : Nat)
  | pointer (stage : PtrStage) (value desc : Nat)
  | eccCorrected (bank : Nat)
  | eccData (e : Egress)
  | eccLink (desc : Nat)
  | permitWord (queue : Nat)
  | junction (die : Nat) (mC : Int)
  | rail (r mV : Nat)
  | pll (k : Nat) (locked : Bool)
  deriving DecidableEq, Repr

/-- A Swijan frame as received (R308): the port it came by, its addresses, VLAN tags and type, whether the MAC limits
passed, and the bytes after the EtherType, GCM tag included. -/
structure SwijanFrame where
  arrival : RxPort
  source : Nat
  dest : Nat
  tags : Bytes
  etype : Nat
  limitsOk : Bool
  body : Bytes
  deriving DecidableEq, Repr

/-- A time at which the Gnomon stamps a frame (R230): a tick, and the ps after it. -/
structure Stamp where
  tick : Nat
  ps : Nat
  deriving DecidableEq, Repr

/-- What the Counter Reader collects of one counter (R292, R293): its sub-index, and what each of its fields lost to a saturated
local counter since the last visit. -/
structure CounterRead where
  sub : Nat
  lost : List Nat
  deriving DecidableEq, Repr

/-- What the partner and the receiver report when a lane leaves a stage (R243-R250): the trained taps, the adapted peaking, whether a
capability came with auto-negotiation, whether a link fault is present, whether the partner advertises the port's type and which of
the PAUSE and ASM_DIR bits it advertises (R249), whether the receiver's adaptation finds precoding better and whether the partner
requests it (R243). -/
structure LaneReport where
  taps : Option (Int × Int × Int × Int × Int)
  ctle : Option Nat
  capability : Bool
  fault : Bool
  typeOk : Bool := true
  pause : Bool × Bool := (true, true)
  precodeBetter : Bool := false
  precodeAsked : Bool := false
  deriving DecidableEq, Repr

/-- The kinds of reset that end by RESET_END (R340, R341). -/
inductive ResetScope where
  | warm
  | die (d : Nat)
  | quad (q : Nat)
  | tree (t : Nat)
  | restart (t : Nat)
  deriving DecidableEq, Repr

/-- The commands. -/
inductive Instr where
  -- 01_architecture.md
  | frameStart
  | creditSnapshot (p : MapPoint)
  | buildStart (p : MapPoint) (late : List Nat)
  | mapSeal (p : MapPoint)
  | fanOutDeadline (p : MapPoint) (late : List (Nat × Consumer))
  | headerLock (p : MapPoint)
  | mirrorDeadline
  | heartbeatMidframe
  | bridgeLockLoss (n d : Nat) (up down : List Nat)
  -- 02_profiles.md
  | profileWrite (n : Nat) (m : Master) (q v : Nat)
  | profileChangeDarken (q : Nat)
  | profileChangeApply (n q : Nat)
  | profileChangeComplete (n q : Nat)
  | sliceWake (n t : Nat)
  | sliceGate (n t : Nat)
  -- 03_tree_line.md
  | rxrstPulse (n t : Nat) (b : BurstRef)
  | burstReceive (n t : Nat) (b : BurstRef) (o : BurstObs)
  | treeDefectDeclare (n t : Nat) (d : Defect)
  | treeDefectClear (n t : Nat) (d : Defect)
  | terminalDefectDeclare (n g : Nat) (d : TermDefect)
  | terminalDefectClear (n g : Nat) (d : TermDefect)
  | mateDefectDeclare (n : Nat) (d : Defect)
  | mateDefectClear (n : Nat) (d : Defect)
  | indicationRepeat (n t : Nat)
  | pmSecondEnd (n : Nat)
  | pmSecondCommit (n : Nat)
  | ospHostMessage (n p : Nat) (wire : Bytes)
  | ospCredit (n t : Nat)
  | treeEnableWrite (n : Nat) (m : Master) (t v : Nat)
  | lineModeWrite (n : Nat) (m : Master) (t v : Nat)
  | bpValidWrite (n : Nat) (m : Master) (i v : Nat)
  -- 04_activation_ranging.md
  | discoveryWindowOpen (n t : Nat)
  | discListAgeOut (n i : Nat)
  | rangeRetry (n g : Nat)
  | rangeTimeout (n g : Nat)
  | lostTimeout (n g : Nat)
  | jumpRerange (n g : Nat)
  | terminalDeactivate (n : Nat) (m : Master) (g : Nat)
  | terminalQuarantine (n : Nat) (m : Master) (g : Nat)
  | terminalRelease (n : Nat) (m : Master) (g : Nat)
  | rogueWatch (n t : Nat) (o : RogueObs)
  -- 05_grants.md
  | reportMissLimit (n a : Nat)
  -- 06_quarry.md
  | keyNext (n : Nat) (m : Master) (s : Nat) (data : Bytes)
  | keyErase (n : Nat) (m : Master) (s : Nat)
  | keyRetire (n s : Nat)
  | jobQueued (n q : Nat) (j : JobReq)
  | jobResume (n q id : Nat)
  | jobPromote (n q id : Nat)
  | downstreamFrameEncipher (n t sfc : Nat)
  | entropyFail (n : Nat)
  | loadGo (n : Nat) (m : Master)
  | loadComplete (n : Nat)
  | mateFrameReceive (n : Nat) (f : MateFrameIn)
  -- 12 and 07
  | macFrameReceive (n : Stamp) (p : RxPort) (bytes : Bytes) (fcsGood : Bool)
  | classify (n p : Nat)
  | fragAgeOut (n k : Nat)
  | graphDefault (n : Nat) (m : Master)
  | commit (n : Nat) (m : Master)
  | commitSwap (n : Nat)
  | commitTimeout (n : Nat)
  | discard (n : Nat) (m : Master)
  -- 08_tables_learning.md
  | learnRequest (n : Nat)
  | stashRetry (n : Nat)
  | holdSweep (n : Nat)
  | agerVisit (n rec : Nat)
  | addrInsertStatic (n : Nat) (m : Master) (rec : Nat)
  | addrInsertDynamic (n : Nat) (m : Master) (rec : Nat)
  | addrDelete (n : Nat) (m : Master) (rec : Nat)
  | addrFlush (n : Nat) (m : Master) (data : Bytes)
  | tableSweep (n b : Nat) (differs : Bool) (restarts : Nat)
  -- 09_shared_buffer.md
  | freeModeWrite (n : Nat) (m : Master) (v : Nat)
  | leakSweep (n : Nat)
  | auditGo (n : Nat) (m : Master)
  | auditDone (n : Nat)
  | portHoldExpiry (n p : Nat)
  | termHoldExpiry (n g : Nat)
  | membersWrite (n : Nat) (m : Master) (a v : Nat)
  | lagRevert (n a p : Nat)
  | portWidthWrite (n : Nat) (m : Master) (v : Nat)
  -- 10_egress_scheduling.md
  | scheduleDecision (n : Stamp) (e : Egress)
  | peakReset (n : Nat) (m : Master)
  -- 11_time.md
  | rateSet (n : Nat) (m : Master) (inc c1 : Nat)
  | rateChangeApply (n : Nat)
  | stepAdd (n : Nat) (m : Master) (value c1 : Nat)
  | stepSubtract (n : Nat) (m : Master) (value c1 : Nat)
  | stepSetTime (n : Nat) (m : Master) (value c1 : Nat)
  | stepApply (n : Nat)
  | servoAlive (n : Nat) (m : Master)
  | timeHoldover (n : Nat)
  | capture (n : Nat) (m : Master)
  | ptpTx (n : Nat) (m : Master) (data : Bytes)
  | todUpdate (n t : Nat)
  | ppsOutEdge (n : Nat)
  | ppsInEdge (n ps : Nat)
  | rclkSrcWrite (n : Nat) (m : Master) (v : Nat)
  | rclkRestore (n : Nat)
  -- 13 and 12
  | heartbeatReceive (n : Nat) (h : HeartbeatIn)
  | calibrate (n : Nat) (m : Master)
  | calibrationDone (n l : Nat)
  | portEnableWrite (n : Nat) (m : Master) (p v : Nat)
  | mateEnableWrite (n : Nat) (m : Master) (v : Nat)
  | laneStageAdvance (n l : Nat) (r : LaneReport)
  | detectRetry (n l : Nat)
  | capabilityFrameSend (n p : Nat)
  | laneStageTimeout (n l : Nat)
  | exchangeWaitEnd (n p : Nat)
  | linkDown (n : Nat) (k : LinkId)
  | idleEntry (n l : Nat)
  | idleExit (n l : Nat)
  | pauseExpiry (n p : Nat)
  | pauseTx (n p : Nat)
  | pauseRepeat (n p : Nat)
  | pauseStorm (n p : Nat)
  | pauseStormEnd (n p : Nat)
  | fecDegradeCheck (n l symbols corrected uncorrectable : Nat)
  | eyeScan (n : Nat) (m : Master) (l : Nat)
  -- 13_standby.md
  | redundancyEnableWrite (n : Nat) (m : Master) (v : Nat)
  | joinDecide (n : Nat)
  | relinquish (n : Nat) (c : RelinquishCause)
  | rejoin (n : Nat) (m : Master)
  | relinquishRefused (n : Nat)
  | heartbeatMiss (n : Nat)
  | pathSilent (n : Nat) (p : Path)
  | takeover (n : Nat) (c : TakeoverCause)
  | mirrorRecordApply (n : Nat) (r : MirrorRecord)
  | mirrorStale (n : Nat)
  | resync (n : Nat) (m : Master)
  | resyncDone (n : Nat)
  | selfFence (n : Nat)
  | dualActiveFence (n : Nat)
  -- 14_faults_counters.md
  | faultOccurrence (n : Nat) (reports : List HwReport)
  | brokenWire (n collector source : Nat)
  | faultStatusClear (n : Nat) (m : Master) (s : Nat)
  | ffClear (n : Nat) (m : Master)
  | faultTest (n : Nat) (m : Master) (v : Nat)
  | faultLevelWrite (n : Nat) (m : Master) (v : Nat)
  | counterVisit (n index inst : Nat) (c : CounterRead)
  | snapGo (n : Nat) (m : Master) (mask : Nat)
  | snapReady (n : Nat)
  | counterClear (n : Nat) (m : Master) (mask : Nat)
  -- 15_dictionary_access.md
  | swijanRequest (n : Nat) (f : SwijanFrame)
  | dspRequest (n : Nat) (frame : Bytes)
  | dspFetch (n : Nat)
  | read (n : Nat) (m : Master) (index inst sub : Nat)
  | write (n : Nat) (m : Master) (index inst sub : Nat) (data : Bytes)
  | bulkRead (n : Nat) (m : Master) (index inst sub first count : Nat)
  | bulkWrite (n : Nat) (m : Master) (index inst sub first count : Nat) (data : Bytes)
  | openSession (n source keyId : Nat) (data : Bytes)
  | close (n : Nat) (m : Master)
  | nop (n : Nat) (m : Master)
  | lockWrite (n : Nat) (m : Master) (index inst v : Nat)
  | lockExpiry (n index inst : Nat)
  | leaseWrite (n : Nat) (m : Master) (v : Nat)
  | leaseExpiry (n : Nat)
  | sessionIdleExpiry (n k : Nat)
  | pendingSessionExpiry (n k : Nat)
  | sessionClose (n : Nat) (m : Master) (k : Nat)
  -- 17_clocks_power_startup.md, 18_package_electrical.md
  | refLost (n : Nat)
  | refGood (n r : Nat)
  | refRelock (n r : Nat) (residual : Int)
  | refHoldoverFault (n : Nat)
  | refSelectWrite (n : Nat) (m : Master) (v : Nat)
  | pdEnableWrite (n : Nat) (m : Master) (w v : Nat)
  | pdOnDone (n w : Nat)
  | powerDomainFault (n w : Nat)
  | sidebandFrame (n q sbdi : Nat)
  | powerOnReset (n ns : Nat)
  | dictionaryReady (n : Nat)
  | warmReset (n : Nat) (m : Master)
  | dieReset (n : Nat) (m : Master) (d : Nat)
  | quadReset (n : Nat) (m : Master) (q : Nat)
  | treeReset (n : Nat) (m : Master) (t : Nat)
  | treeRestart (n : Nat) (m : Master) (t : Nat)
  | resetEnd (n : Nat) (r : ResetScope)
  | treeRelight (n t : Nat)
  -- rows added at the table's end
  | bridgeRelock (n d : Nat)
  | entropyRecovery (n : Nat)
  | porstRelease (n straps : Nat)
  | mgmtLinkUp (n : Nat)
  | mgmtLinkDown (n : Nat)
  | otherRefLost (n r : Nat)
  | relinquishDrainEnd (n : Nat)
  | eyeScanDone (n l height width : Nat)
  | addrFlushDone (n : Nat)
  | resyncFailed (n : Nat)
  deriving DecidableEq, Repr

end Sys2Proof
end

