-- ==== Sys2Proof/Decode.lean ====
section
/-!
DEFINITION. The opcode table gives no row of this block any bits (every "fields" is empty), so no word spells a
command.
-/
namespace Sys2Proof

/-- The command a word of `nbits` bits spells by the bits of spec/opcode_table.json: none, as no row has bits. -/
def decodeTableWord (_nbits _w : Nat) : Option Instr := none

end Sys2Proof
end

