-- ==== Sys2Proof/Config.lean ====
section
/-!
DEFINITION. What one part fixes and what the manual leaves open: constants and functions with no body, so that no
proof can rest on a value of theirs. Each is named in the assumption log (rows 1 to 9).
-/
namespace Sys2Proof.Config

/-- The fused serial number of the part (R319); DESIGN CHOICE, log row 1. -/
opaque serialNumber : Nat

/-- The fused revision of die `d` (R319); DESIGN CHOICE, log row 1. -/
opaque dieRevision (d : Nat) : Nat

/-- The fused lot of die `d` (R319); DESIGN CHOICE, log row 1. -/
opaque dieLot (d : Nat) : Nat

/-- The calibrated PSync latency of tree `t` in ps (R234); DESIGN CHOICE, log row 1. -/
opaque psyncLatency (t : Nat) : Nat

/-- The calibrated receive latency of tree `t` in ps (R235); DESIGN CHOICE, log row 1. -/
opaque burstLatency (t : Nat) : Nat

/-- The `k`-th value drawn from the on-die noise source (R129, R191); DESIGN CHOICE, log row 2. -/
opaque noise (k : Nat) : Nat

/-- A value the manual leaves open, the `k`-th one met; DESIGN CHOICE, log row 3. -/
opaque freeValue (k : Nat) : Nat

/-- AES-GCM open under `key`, `nonce`, additional data and sealed bytes (R128): the plain bytes, or none where the
tag fails. The cipher itself is FIPS 197 and SP 800-38D, not restated by the manual; DESIGN CHOICE, log row 4. -/
opaque gcmOpen (key nonce : Nat) (aad sealedText : List Nat) : Option (List Nat)

/-- AES-GCM seal of the same (R128); DESIGN CHOICE, log row 4. -/
opaque gcmSeal (key nonce : Nat) (aad plain : List Nat) : List Nat

/-- The largest equalisation delay G.9804.2 permits at upstream rate code `rate`, in ps (R75); DESIGN CHOICE, log row 5. -/
opaque eqdMax (rate : Nat) : Nat

/-- The burst-profile entry of a terminal whose STEER_LOW lies above its STEER_HIGH (R81): `k` is the count of open values
met; DESIGN CHOICE, log row 6. -/
opaque steerOpen (terminal k : Nat) : Nat

/-- CTR_START of a burst (R117): the counter the recommendation derives from the superframe count, the position of the burst
in its period and the key index; DESIGN CHOICE, log row 7. -/
opaque counterStart (sfc position keyIndex : Nat) : Nat

/-- Bytes of the payload of a downstream frame whose map has `records` structures and which carries `messages` PLOAM messages
(R40, R43); DESIGN CHOICE, log row 90. -/
opaque payloadBytes (xgs : Bool) (records messages : Nat) : Nat

/-- The integrity code of a management message under a key, of the numbers that spell it (R127); DESIGN CHOICE, log row 4. -/
opaque integrityCode (key : Option Nat) (words : List Nat) : Nat

/-- A running GHASH or integrity code, `k` blocks after it held `value` (R116); DESIGN CHOICE, log row 4. -/
opaque runningCode (value k : Nat) : Nat

/-- The functions of a Finuno part and its mate functions, as the capability exchange tells them (R250, R260);
DESIGN CHOICE, log row 1. -/
opaque partFunctions : Nat
opaque mateFunctions : Nat

/-- The 13-bit check over bits 63:13 of a mate header, whose code the manual takes from G.9804.2 (R260); DESIGN CHOICE, log row
72. -/
opaque headerCheck (bits : Nat) : Nat

/-- The one-way delay of the mate link in 1/256 tick that the `k`-th open value met finds from the heartbeats of both directions
(R240): no field of a heartbeat carries the other direction's measurement; DESIGN CHOICE, log row 9. -/
opaque mateDelay (k : Nat) : Nat

/-- KIND and content of a mirror record, and the record that a KIND, a DSEQ and a content spell (R268): the manual gives neither the
kinds nor the contents; DESIGN CHOICE, log row 72. -/
opaque recordKind (r : MirrorRecord) : Nat
opaque recordContent (r : MirrorRecord) : List Nat
opaque recordOf (kind dseq : Nat) (content : List Nat) : Option MirrorRecord

end Sys2Proof.Config
end

