-- ==== Sys2Proof/Machine/Reg.lean ====
section
/-!
DEFINITION. The object registers of the dictionary: one name per sub-index of every non-window index
(R317-R320 and the object tables of every chapter), in ascending order of address.
-/
namespace Sys2Proof.Machine

/-- The registers of the object dictionary, one per sub-index; the docstring-free name is the manual's
name in camel case, qualified by the index name where the manual uses a name twice. -/
inductive Reg where
  | vendor | partNo | partRevision | serialNo | dieKind | dieRev | dieLot | indexCount | dictRev | dirParams
  | scratch | swijanEtype | mgmtMac | authRequired | unauthPriv | sessionIdleMs | inbandEnable | inbandQueue
  | malformed | staleSession | seqErrors | dupRequests | rxQueueDrop | mgmtOther | sessionState | sessionPriv
  | sessionKey | sessionSrc | lastSeq | lastStatus | sessionClose | keyPriv | leaseReg | leaseHolder
  | leaseTimeoutMs | leaseRefused | leaseExpired | longOps | lastLongOp | lastLongMs | busyAnswers | dspPriv
  | dspCrcErr | dspOverrun | refSelect | refAuto | refState | refSwitches | domainKhz | domainLocked
  | crossFlushes | pdEnable | pdState | pdCycles | railMv | railLowMv | railHighMv | warmReset | dieReset
  | lastReset | warmResets | treeRestart | treeReset | treeRestarts | quadReset | quadResets | straps | tjMc
  | tjPeakMc | bridgeCrc | bridgeRetrains | pllLocked | pllUnlocks | frameTick | superframe | frameShift
  | bridgeAState | bridgeBState | faultLevel | firstFault | ffClear | shutTrees | shutPorts | deviceAction
  | faultTest | occurrences | stickyS0 | stickyS1 | stickyS2 | stickyS3 | pinLevels | counterOpen | snapGo
  | snapTick | snapState | snapView | counterClear | samplerRun | sampleMode | sampleEvery | sampleHash
  | sampleHashMask | sampleNext | sampleSkipped | quadProfile | profileState | profileChanges | rateForced
  | slicesGated | treeEnable | lineMode | delinStrict | rxrstWidth | rxrstLead | delimWindow | delimErrors
  | omciMicCheck | ospPort | omccQueue | signalDetect | ploamFree | bpRate | bpPreamble | bpRepeat
  | bpDelimiter | bpFec | bpValid | defectTimersLosSet | defectTimersLosClear | lofSet | lofClear
  | losiBursts | lofiBursts | rdiBursts | aisFrames | treeDefects | defectEvents | termDefects | idMismatch
  | ospAbortMic | treePmEs | treePmSes | treePmUas | sesPpm | treePmFecUncorr | framesFecLost | hecCorr
  | hecUncorr | delinLoss | framesHuntLost | termPmEs | termPmSes | termPmUas | enableMask | indTemplate
  | indLength | indicationOffset | indPort | indQueue | indDomain | repeatMs | indSent | indLost
  | mateDefects | mateLineLosSet | mateLineLosClear | mateLineEs | mateLineSes | mateLineUas | ospRate
  | txMessages | rxMessages | rxDiscarded | txAborts | txOverflow | sbState | sbErrors | txdisNow | rssiRaw
  | rssiTriggers | discEnable | discPhase | targetRtd | minRtd | randomDelayMax | snCaptured | discCollide
  | snDuplicate | outOfReach | rangeFail | discListCount | driftThresh | driftAvg | updateLead | steerEnable
  | steerUpPpm | steerDownPpm | steerDownS | lostTimeout | rangeTimeout | rangeTries | listSn | listAge
  | coarseRtd | listValid | snProvision | onuId | termState | eqdBits | rtdPs | bpEntry | steerLow
  | steerHigh | eqdUpdates | jumps | termCommand | lostEvents | powerReqRefused | rogueState | rogueCount
  | rogueAuto | rogueSuspect | idleLit | rssiEnable | burstsFramed | burstsMissed | burstsUnframed
  | guardBytes | cellYield | drainCap | staticCredit | reportMissMax | ploamuMs | creditLast | budgetLast
  | admitOverrun | entriesLast | mapsSealed | mapsEmptied | fanoutLate | creditLate | mapFull | deferEvents
  | splitBursts | grantOrphan | allocEnable | allocTerminal | allocId | allocClass | fixedBytes | assuredKbps
  | maxKbps | allocationWeight | maxBurst | latBound | pollUs | bpCap | allocReport | allocDemand
  | grantedBytes | reportsDecoded | reportsMissed | owedBytes | owedDropped | assuredTokens | rateTokens
  | drainEst | burstsGranted | ploamGrants | ksLate | dsLate | suspensions | suspFull | recutJobs | keyMiss
  | mgmtJobs | keyNext | keyState | keyErase | switches | upCheckFail | erasedDrop | erasedPoison
  | keyModeMismatch | deviceSalt | entropyState | retireFrames | tagFail | nonceReject | nonceCounter
  | mateTagFail | mateReplay | loadNonce | loadGo | loadStatus | cuttersBusy | ksReady | suspInUse
  | startUplink | startTree | hashSeed | lenConflictAction | defaultUplink | defaultTree | fragAge
  | graphDefault | commitGo | discard | activeVersion | commitStatus | spareRowsUsed | stageFull
  | verInflight | ruleHits | defaultHitsUplink | defaultHitsTree | lenConflictDrop | dirDrop | destInvalid
  | domainOff | editOversize | parseDeepSeen | fragMissSeen | fragFull | fragEntries | inbandRefused
  | portClassSrcMeta | parseWaitDrop | termClassSrcMeta | addrSeed0 | addrSeed1 | ageTime | moveHoldMs
  | moveLimit | addrEntries | stashUsed | addrOp | addrOpStatus | addrFlush | learned | moves | flaps
  | staticConflict | aged | learnFull | learnDrop | flushed | addrMiss | pfxMiss | samePortDrop
  | sweepLockMaxMs | lockExpired | sweepPeriodMs | compareFail | sweepSkipped | sigReg | freeMode | cellsFree
  | descFree | ptrBad | doubleFree | bufEccCorr | bufEccUncorr | poolSize | poolUsed | poolPeak | noBuffer
  | leakReclaimed | doubleOwned | crossOwned | sweeps | auditGo | auditStatus | holdMs | holdState
  | partialLost | flushedFrames | downDrop | termHoldMs | termFlushed | termDownDrop | greenMin | yellowMin
  | redMin | greenMax | yellowMax | redMax | greenPmax | yellowPmax | redPmax | dropProfileWeight | ecnMark
  | redDropGreen | redDropYellow | redDropRed | ecnMarked | tailDrop | lagMembers | revert | revertMs
  | lagActive | lagDownDrop | mirSource | mirPort | mirQueue | mirDomain | mirCopies | mirDrop
  | bankCellsUsed | bankEccCorr | treeShapeKbps | treeShapeBurst | treeOverhead | portStrictCount
  | portShapeKbps | portShapeBurst | portOverhead | hostShapeKbps | mgmtDomain | peakReset | meterDrop
  | isolationDrop | destMismatch | permitEcc | treeTxFrames | treeTxBytes | idleFillBytes | timeNow | tickNow
  | captureCmd | captTick | captTime | clkInc | clockModelOffset | baseTick | rateSet | stepSet | clkPending
  | timeState | keepaliveMs | servoAlive | holdoverEvents | portRxCorrPs | portTxCorrPs | tcEnable
  | tcUpdated | tcSaturated | stampTrap | ptpTx | txNextSeq | txStamp | todEnable | todPeriodMs | todLead
  | todRef | todGen | nDn | nUp | mDn | mUp | trespPs | opticsDnPs | opticsUpPs | psyncLatPs | burstLatPs
  | asymPs | todCorrPs | todTerm | ppsOutEnable | ppsWidthUs | ppsOutDelayPs | ppsStandbyDrive | ppsInEnable
  | ppsInDelayPs | ppsInStamp | ppsInSeq | ppsInIgnored | rclkSrc | rclkFreq | rclkState | squelches
  | mateDelta | mateLinkPs | mateAsymPs | mateTimeLate | rxStamps | txStamps | ppsEdges | maxlen | portWidth
  | calibrate | trainMaxMs | lanesLockMaxMs | exchMaxMs | idleEntryUs | laneState | trainEnable | ffePre3
  | ffePre2 | ffePre1 | ffeMain | ffePost | ctleMode | ctleSet | ctleNow | precode | rxInvert | txInvert
  | bringupFail | failStage | fecSymbols | serDegrade | portEnable | medium | anEnable | portState
  | partnerFinuno | portFastIdle | linkDowns | fecCorr | portFecUncorr | portRunt | portOversize | portFcsErr
  | rxFrames | txFrames | txPadded | pauseRxEnable | pauseTxEnable | pauseRxFrames | pauseTxFrames | pausedUs
  | pauseStormMs | pauseStorm | macctlOther | sscEnable | mateEnable | mateState | mateFastIdle | mateSeqGap
  | mateFramesRx | mgmtMode | mgmtAn | mgmtState | mgmtPortRunt | mgmtPortOversize | mgmtPortFcsErr
  | eyeHeightMv | eyeWidthMui | eyeScan | redundancyEnable | unitRole | unitId | roleCmd | txOnUs | selfFence
  | pathState | pathAlarms | takeovers | takeoverCause | takeoverSfc | mirrorState | mirrorStaleMs | resync
  | mirrorGaps | dseqSent | dseqApplied | swapDiscard | listenDiscard | listenState | legDeltaPs | legShiftPs
  | acqBits | eqdAdj | hbSent | hbRxLanes | hbRxPins | hbWordErr
  deriving DecidableEq, Repr

end Sys2Proof.Machine
end

