-- ==== Sys2Proof/Machine/Objects.lean ====
section
/-!
DEFINITION. The layout of the dictionary (R300-R302, R317-R320, R322): for every register its address, type,
access, instances, value check, default and directory attributes, read from the object tables of the chapters.
-/
namespace Sys2Proof.Machine

/-- The value types of R300. -/
inductive Ty where
  | bool | u8 | u16 | u32 | s32 | u64 | s64 | enum8 | bits32 | octets
  deriving DecidableEq, Repr

/-- The access rights of R301. -/
inductive Acc where
  | ro | rw | wo | cmd
  deriving DecidableEq, Repr

/-- The range checks the object tables state (R303, step 9). -/
inductive Chk where
  | any
  | range (lo hi : Nat)
  | zeroOr (lo hi : Nat)
  | orOne (lo hi one : Nat)
  | mult (lo hi m : Nat)
  | pow2 (lo hi : Nat)
  | srange (lo hi : Int)
  | sstep (lo hi m : Int)
  deriving DecidableEq, Repr

/-- The scopes of 00_scope.md. -/
inductive Scope where
  | tree | quad | port | device | byInstance
  deriving DecidableEq, Repr

/-- The directory flags and attributes of one register (R302, R322). -/
structure Flags where
  counter : Bool := false
  mirrored : Bool := false
  frozen : Bool := false
  longOp : Bool := false
  unchecked : Bool := false
  admin : Bool := false
  deriving DecidableEq, Repr

/-- One row of the object tables. `size` is the value's bytes; instances run from `first` for `count`. -/
structure ObjRow where
  index : Nat
  sub : Nat
  ty : Ty
  size : Nat
  acc : Acc
  first : Nat
  count : Nat
  chk : Chk
  scope : Scope
  flags : Flags
  deriving DecidableEq, Repr

/-- The nominal frequency in kHz of clock domain `c` (R329), truncated to whole kHz, at the defaults of the objects. -/
def nominalKhz (c : Nat) : Nat :=
  if c < 64 then 777600 else if c < 72 then 1244160 else if c < 74 then 622080 else if c < 76 then 1244160
  else if c < 100 then 664062 else if c = 100 then 1244160 else if c = 101 then 311040 else 400000

/-- Object rows, part 0. -/
def objRows0 : List (Reg × ObjRow) :=
  [(.vendor, ⟨0x1000, 0x01, .u16, 2, .ro, 0, 1, .any, .device, {}⟩),
   (.partNo, ⟨0x1000, 0x02, .u16, 2, .ro, 0, 1, .any, .device, {}⟩),
   (.partRevision, ⟨0x1000, 0x03, .u16, 2, .ro, 0, 1, .any, .device, {}⟩),
   (.serialNo, ⟨0x1000, 0x04, .octets, 8, .ro, 0, 1, .any, .device, {}⟩),
   (.dieKind, ⟨0x1001, 0x01, .enum8, 1, .ro, 0, 3, .any, .device, {}⟩),
   (.dieRev, ⟨0x1001, 0x02, .u8, 1, .ro, 0, 3, .any, .device, {}⟩),
   (.dieLot, ⟨0x1001, 0x03, .octets, 8, .ro, 0, 3, .any, .device, {}⟩),
   (.indexCount, ⟨0x1002, 0x01, .u16, 2, .ro, 0, 1, .any, .device, {}⟩),
   (.dictRev, ⟨0x1002, 0x02, .u16, 2, .ro, 0, 1, .any, .device, {}⟩),
   (.dirParams, ⟨0x1002, 0x03, .u16, 2, .ro, 0, 1, .any, .device, {}⟩),
   (.scratch, ⟨0x1003, 0x01, .u32, 4, .rw, 0, 1, .any, .device, { admin := true }⟩),
   (.swijanEtype, ⟨0x1100, 0x01, .u16, 2, .rw, 0, 1, (.range 1536 65535), .device, { admin := true }⟩),
   (.mgmtMac, ⟨0x1100, 0x02, .octets, 6, .rw, 0, 1, .any, .device, { admin := true }⟩),
   (.authRequired, ⟨0x1100, 0x03, .bool, 1, .rw, 0, 1, .any, .device, { admin := true }⟩),
   (.unauthPriv, ⟨0x1100, 0x04, .enum8, 1, .rw, 0, 1, (.range 0 2), .device, { admin := true }⟩),
   (.sessionIdleMs, ⟨0x1100, 0x05, .u32, 4, .rw, 0, 1, (.range 1000 3600000), .device, { admin := true }⟩),
   (.inbandEnable, ⟨0x1100, 0x06, .bits32, 4, .rw, 0, 1, .any, .device, { unchecked := true, admin := true }⟩),
   (.inbandQueue, ⟨0x1100, 0x07, .u8, 1, .rw, 0, 1, (.range 0 7), .device, { admin := true }⟩),
   (.malformed, ⟨0x1100, 0x08, .u32, 4, .ro, 0, 1, .any, .device, { counter := true }⟩),
   (.staleSession, ⟨0x1100, 0x09, .u32, 4, .ro, 0, 1, .any, .device, { counter := true }⟩),
   (.seqErrors, ⟨0x1100, 0x0A, .u32, 4, .ro, 0, 1, .any, .device, { counter := true }⟩),
   (.dupRequests, ⟨0x1100, 0x0B, .u32, 4, .ro, 0, 1, .any, .device, { counter := true }⟩),
   (.rxQueueDrop, ⟨0x1100, 0x0C, .u32, 4, .ro, 0, 1, .any, .device, { counter := true }⟩),
   (.mgmtOther, ⟨0x1100, 0x0D, .u32, 4, .ro, 0, 1, .any, .device, { counter := true }⟩),
   (.sessionState, ⟨0x1101, 0x01, .enum8, 1, .ro, 1, 16, .any, .device, {}⟩),
   (.sessionPriv, ⟨0x1101, 0x02, .enum8, 1, .ro, 1, 16, .any, .device, {}⟩),
   (.sessionKey, ⟨0x1101, 0x03, .u8, 1, .ro, 1, 16, .any, .device, {}⟩),
   (.sessionSrc, ⟨0x1101, 0x04, .octets, 6, .ro, 1, 16, .any, .device, {}⟩),
   (.lastSeq, ⟨0x1101, 0x05, .u32, 4, .ro, 1, 16, .any, .device, {}⟩),
   (.lastStatus, ⟨0x1101, 0x06, .u8, 1, .ro, 1, 16, .any, .device, {}⟩),
   (.sessionClose, ⟨0x1101, 0x07, .bool, 1, .cmd, 1, 16, .any, .device, { admin := true }⟩),
   (.keyPriv, ⟨0x1102, 0x01, .enum8, 1, .rw, 0, 4, (.range 0 2), .device, { unchecked := true, admin := true }⟩),
   (.leaseReg, ⟨0x1110, 0x01, .bool, 1, .rw, 0, 1, .any, .device, {}⟩),
   (.leaseHolder, ⟨0x1110, 0x02, .u8, 1, .ro, 0, 1, .any, .device, {}⟩),
   (.leaseTimeoutMs, ⟨0x1110, 0x03, .u32, 4, .rw, 0, 1, (.range 100 600000), .device, {}⟩),
   (.leaseRefused, ⟨0x1110, 0x04, .u32, 4, .ro, 0, 1, .any, .device, { counter := true }⟩),
   (.leaseExpired, ⟨0x1110, 0x05, .u32, 4, .ro, 0, 1, .any, .device, { counter := true }⟩),
   (.longOps, ⟨0x1120, 0x01, .u32, 4, .ro, 0, 1, .any, .device, { counter := true }⟩),
   (.lastLongOp, ⟨0x1120, 0x02, .enum8, 1, .ro, 0, 1, .any, .device, {}⟩),
   (.lastLongMs, ⟨0x1120, 0x03, .u16, 2, .ro, 0, 1, .any, .device, {}⟩),
   (.busyAnswers, ⟨0x1120, 0x04, .u64, 8, .ro, 0, 1, .any, .device, { counter := true }⟩),
   (.dspPriv, ⟨0x1130, 0x01, .enum8, 1, .rw, 0, 1, (.range 0 2), .device, { admin := true }⟩),
   (.dspCrcErr, ⟨0x1130, 0x02, .u32, 4, .ro, 0, 1, .any, .device, { counter := true }⟩),
   (.dspOverrun, ⟨0x1130, 0x03, .u32, 4, .ro, 0, 1, .any, .device, { counter := true }⟩),
   (.refSelect, ⟨0x1200, 0x01, .enum8, 1, .rw, 0, 1, (.range 0 1), .device, { admin := true }⟩),
   (.refAuto, ⟨0x1200, 0x02, .bool, 1, .rw, 0, 1, .any, .device, { admin := true }⟩),
   (.refState, ⟨0x1200, 0x03, .enum8, 1, .ro, 0, 1, .any, .device, {}⟩),
   (.refSwitches, ⟨0x1200, 0x04, .u32, 4, .ro, 0, 1, .any, .device, { counter := true }⟩)]

/-- Object rows, part 1. -/
def objRows1 : List (Reg × ObjRow) :=
  [(.domainKhz, ⟨0x1201, 0x01, .u32, 4, .ro, 0, 104, .any, .device, {}⟩),
   (.domainLocked, ⟨0x1201, 0x02, .bool, 1, .ro, 0, 104, .any, .device, {}⟩),
   (.crossFlushes, ⟨0x1201, 0x03, .u32, 4, .ro, 0, 104, .any, .device, { counter := true }⟩),
   (.pdEnable, ⟨0x1202, 0x01, .bool, 1, .rw, 0, 20, .any, .device, { admin := true }⟩),
   (.pdState, ⟨0x1202, 0x02, .enum8, 1, .ro, 0, 20, .any, .device, {}⟩),
   (.pdCycles, ⟨0x1202, 0x03, .u32, 4, .ro, 0, 20, .any, .device, { counter := true }⟩),
   (.railMv, ⟨0x1203, 0x01, .u16, 2, .ro, 0, 8, .any, .device, {}⟩),
   (.railLowMv, ⟨0x1203, 0x02, .u16, 2, .rw, 0, 8, .any, .device, { unchecked := true, admin := true }⟩),
   (.railHighMv, ⟨0x1203, 0x03, .u16, 2, .rw, 0, 8, .any, .device, { unchecked := true, admin := true }⟩),
   (.warmReset, ⟨0x1204, 0x01, .bool, 1, .cmd, 0, 1, .any, .device, { admin := true }⟩),
   (.dieReset, ⟨0x1204, 0x02, .u8, 1, .cmd, 0, 1, (.range 0 2), .device, { admin := true }⟩),
   (.lastReset, ⟨0x1204, 0x03, .enum8, 1, .ro, 0, 1, .any, .device, {}⟩),
   (.warmResets, ⟨0x1204, 0x04, .u32, 4, .ro, 0, 1, .any, .device, { counter := true }⟩),
   (.treeRestart, ⟨0x1205, 0x01, .bool, 1, .cmd, 0, 32, .any, .tree, { longOp := true, admin := true }⟩),
   (.treeReset, ⟨0x1205, 0x02, .bool, 1, .cmd, 0, 32, .any, .tree, { admin := true }⟩),
   (.treeRestarts, ⟨0x1205, 0x03, .u32, 4, .ro, 0, 32, .any, .tree, { counter := true }⟩),
   (.quadReset, ⟨0x1206, 0x01, .bool, 1, .cmd, 0, 8, .any, .quad, { admin := true }⟩),
   (.quadResets, ⟨0x1206, 0x02, .u32, 4, .ro, 0, 8, .any, .quad, { counter := true }⟩),
   (.straps, ⟨0x1207, 0x01, .bits32, 4, .ro, 0, 1, .any, .device, {}⟩),
   (.tjMc, ⟨0x1208, 0x01, .s32, 4, .ro, 0, 3, .any, .device, {}⟩),
   (.tjPeakMc, ⟨0x1208, 0x02, .s32, 4, .ro, 0, 3, .any, .device, {}⟩),
   (.bridgeCrc, ⟨0x1209, 0x01, .u32, 4, .ro, 0, 2, .any, .device, { counter := true }⟩),
   (.bridgeRetrains, ⟨0x1209, 0x02, .u32, 4, .ro, 0, 2, .any, .device, { counter := true }⟩),
   (.pllLocked, ⟨0x120A, 0x01, .bool, 1, .ro, 0, 12, .any, .device, {}⟩),
   (.pllUnlocks, ⟨0x120A, 0x02, .u32, 4, .ro, 0, 12, .any, .device, { counter := true }⟩),
   (.frameTick, ⟨0x1210, 0x01, .u64, 8, .ro, 0, 1, .any, .device, {}⟩),
   (.superframe, ⟨0x1210, 0x02, .u64, 8, .ro, 0, 1, .any, .device, {}⟩),
   (.frameShift, ⟨0x1210, 0x03, .u32, 4, .ro, 0, 1, .any, .device, { counter := true }⟩),
   (.bridgeAState, ⟨0x1211, 0x01, .enum8, 1, .ro, 0, 1, .any, .device, {}⟩),
   (.bridgeBState, ⟨0x1211, 0x02, .enum8, 1, .ro, 0, 1, .any, .device, {}⟩),
   (.faultLevel, ⟨0x1300, 0x01, .enum8, 1, .rw, 0, 1, (.range 0 3), .device, {}⟩),
   (.firstFault, ⟨0x1300, 0x02, .octets, 52, .ro, 0, 1, .any, .device, {}⟩),
   (.ffClear, ⟨0x1300, 0x03, .bool, 1, .cmd, 0, 1, .any, .device, {}⟩),
   (.shutTrees, ⟨0x1300, 0x04, .bits32, 4, .ro, 0, 1, .any, .device, {}⟩),
   (.shutPorts, ⟨0x1300, 0x05, .bits32, 4, .ro, 0, 1, .any, .device, {}⟩),
   (.deviceAction, ⟨0x1300, 0x06, .enum8, 1, .ro, 0, 1, .any, .device, {}⟩),
   (.faultTest, ⟨0x1300, 0x07, .u16, 2, .cmd, 0, 1, .any, .device, {}⟩),
   (.occurrences, ⟨0x1301, 0x01, .u32, 4, .ro, 0, 448, .any, .device, { counter := true }⟩),
   (.stickyS0, ⟨0x1302, 0x01, .u16, 2, .ro, 0, 1, .any, .device, {}⟩),
   (.stickyS1, ⟨0x1302, 0x02, .u16, 2, .ro, 0, 1, .any, .device, {}⟩),
   (.stickyS2, ⟨0x1302, 0x03, .u16, 2, .ro, 0, 1, .any, .device, {}⟩),
   (.stickyS3, ⟨0x1302, 0x04, .u16, 2, .ro, 0, 1, .any, .device, {}⟩),
   (.pinLevels, ⟨0x1303, 0x01, .bits32, 4, .ro, 0, 1, .any, .device, {}⟩),
   (.counterOpen, ⟨0x1310, 0x01, .u64, 8, .rw, 0, 1, .any, .device, { admin := true }⟩),
   (.snapGo, ⟨0x1310, 0x02, .u64, 8, .cmd, 0, 1, .any, .device, {}⟩),
   (.snapTick, ⟨0x1310, 0x03, .u64, 8, .ro, 0, 1, .any, .device, {}⟩),
   (.snapState, ⟨0x1310, 0x04, .enum8, 1, .ro, 0, 1, .any, .device, {}⟩),
   (.snapView, ⟨0x1310, 0x05, .bool, 1, .rw, 0, 1, .any, .device, {}⟩)]

/-- Object rows, part 2. -/
def objRows2 : List (Reg × ObjRow) :=
  [(.counterClear, ⟨0x1310, 0x06, .u64, 8, .cmd, 0, 1, .any, .device, {}⟩),
   (.samplerRun, ⟨0x1320, 0x01, .bool, 1, .rw, 0, 1, .any, .device, {}⟩),
   (.sampleMode, ⟨0x1320, 0x02, .enum8, 1, .rw, 0, 1, (.range 1 3), .device, {}⟩),
   (.sampleEvery, ⟨0x1320, 0x03, .u32, 4, .rw, 0, 1, (.range 1 1048576), .device, {}⟩),
   (.sampleHash, ⟨0x1320, 0x04, .u32, 4, .rw, 0, 1, .any, .device, {}⟩),
   (.sampleHashMask, ⟨0x1320, 0x05, .u32, 4, .rw, 0, 1, .any, .device, {}⟩),
   (.sampleNext, ⟨0x1320, 0x06, .u16, 2, .ro, 0, 1, .any, .device, {}⟩),
   (.sampleSkipped, ⟨0x1320, 0x07, .u32, 4, .ro, 0, 1, .any, .device, { counter := true }⟩),
   (.quadProfile, ⟨0x2000, 0x01, .enum8, 1, .rw, 0, 8, (.range 0 3), .quad, { mirrored := true, longOp := true }⟩),
   (.profileState, ⟨0x2000, 0x02, .enum8, 1, .ro, 0, 8, .any, .quad, {}⟩),
   (.profileChanges, ⟨0x2000, 0x03, .u32, 4, .ro, 0, 8, .any, .quad, { counter := true }⟩),
   (.rateForced, ⟨0x2000, 0x04, .u32, 4, .ro, 0, 8, .any, .quad, { counter := true }⟩),
   (.slicesGated, ⟨0x2000, 0x05, .bits32, 4, .ro, 0, 8, .any, .quad, {}⟩),
   (.treeEnable, ⟨0x2100, 0x01, .bool, 1, .rw, 0, 32, .any, .tree, { mirrored := true }⟩),
   (.lineMode, ⟨0x2100, 0x02, .enum8, 1, .rw, 0, 32, (.range 0 3), .tree, { mirrored := true, frozen := true }⟩),
   (.delinStrict, ⟨0x2100, 0x03, .bool, 1, .rw, 0, 32, .any, .tree, { mirrored := true }⟩),
   (.rxrstWidth, ⟨0x2100, 0x04, .u8, 1, .rw, 0, 32, (.range 3 40), .tree, { mirrored := true }⟩),
   (.rxrstLead, ⟨0x2100, 0x05, .u8, 1, .rw, 0, 32, (.range 3 64), .tree, { mirrored := true, unchecked := true }⟩),
   (.delimWindow, ⟨0x2100, 0x06, .u8, 1, .rw, 0, 32, (.range 4 64), .tree, { mirrored := true }⟩),
   (.delimErrors, ⟨0x2100, 0x07, .u8, 1, .rw, 0, 32, (.range 0 8), .tree, { mirrored := true }⟩),
   (.omciMicCheck, ⟨0x2100, 0x08, .bool, 1, .rw, 0, 32, .any, .tree, { mirrored := true }⟩),
   (.ospPort, ⟨0x2100, 0x09, .u8, 1, .rw, 0, 32, (.range 0 1), .tree, { mirrored := true }⟩),
   (.omccQueue, ⟨0x2100, 0x0A, .u8, 1, .rw, 0, 32, (.range 0 7), .tree, { mirrored := true, unchecked := true }⟩),
   (.signalDetect, ⟨0x2100, 0x0B, .bool, 1, .ro, 0, 32, .any, .tree, {}⟩),
   (.ploamFree, ⟨0x2100, 0x0C, .u8, 1, .ro, 0, 32, .any, .tree, {}⟩),
   (.bpRate, ⟨0x2101, 0x01, .enum8, 1, .rw, 0, 128, (.range 0 3), .tree, { mirrored := true, unchecked := true }⟩),
   (.bpPreamble, ⟨0x2101, 0x02, .octets, 8, .rw, 0, 128, .any, .tree, { mirrored := true, unchecked := true }⟩),
   (.bpRepeat, ⟨0x2101, 0x03, .u8, 1, .rw, 0, 128, (.range 1 32), .tree, { mirrored := true, unchecked := true }⟩),
   (.bpDelimiter, ⟨0x2101, 0x04, .octets, 8, .rw, 0, 128, .any, .tree, { mirrored := true, unchecked := true }⟩),
   (.bpFec, ⟨0x2101, 0x05, .bool, 1, .rw, 0, 128, .any, .tree, { mirrored := true, unchecked := true }⟩),
   (.bpValid, ⟨0x2101, 0x06, .bool, 1, .rw, 0, 128, .any, .tree, { mirrored := true }⟩),
   (.defectTimersLosSet, ⟨0x2102, 0x01, .u16, 2, .rw, 0, 32, (.range 1 1000), .tree, { mirrored := true }⟩),
   (.defectTimersLosClear, ⟨0x2102, 0x02, .u16, 2, .rw, 0, 32, (.range 1 1000), .tree, { mirrored := true }⟩),
   (.lofSet, ⟨0x2102, 0x03, .u16, 2, .rw, 0, 32, (.range 1 1000), .tree, { mirrored := true }⟩),
   (.lofClear, ⟨0x2102, 0x04, .u16, 2, .rw, 0, 32, (.range 1 1000), .tree, { mirrored := true }⟩),
   (.losiBursts, ⟨0x2102, 0x05, .u8, 1, .rw, 0, 32, (.range 1 255), .tree, { mirrored := true }⟩),
   (.lofiBursts, ⟨0x2102, 0x06, .u8, 1, .rw, 0, 32, (.range 1 255), .tree, { mirrored := true }⟩),
   (.rdiBursts, ⟨0x2102, 0x07, .u8, 1, .rw, 0, 32, (.range 1 255), .tree, { mirrored := true }⟩),
   (.aisFrames, ⟨0x2102, 0x08, .u8, 1, .rw, 0, 32, (.range 1 255), .tree, { mirrored := true }⟩),
   (.treeDefects, ⟨0x2103, 0x01, .bits32, 4, .ro, 0, 32, .any, .tree, {}⟩),
   (.defectEvents, ⟨0x2103, 0x02, .u32, 4, .ro, 0, 32, .any, .tree, { counter := true }⟩),
   (.termDefects, ⟨0x2104, 0x01, .bits32, 4, .ro, 0, 16384, .any, .tree, {}⟩),
   (.idMismatch, ⟨0x2104, 0x02, .u32, 4, .ro, 0, 16384, .any, .tree, { counter := true }⟩),
   (.ospAbortMic, ⟨0x2104, 0x03, .u32, 4, .ro, 0, 16384, .any, .tree, { counter := true }⟩),
   (.treePmEs, ⟨0x2105, 0x01, .u32, 4, .ro, 0, 32, .any, .tree, { counter := true }⟩),
   (.treePmSes, ⟨0x2105, 0x02, .u32, 4, .ro, 0, 32, .any, .tree, { counter := true }⟩),
   (.treePmUas, ⟨0x2105, 0x03, .u32, 4, .ro, 0, 32, .any, .tree, { counter := true }⟩),
   (.sesPpm, ⟨0x2105, 0x04, .u32, 4, .rw, 0, 32, (.range 1 1000000), .tree, { mirrored := true }⟩)]

/-- Object rows, part 3. -/
def objRows3 : List (Reg × ObjRow) :=
  [(.treePmFecUncorr, ⟨0x2105, 0x05, .u64, 8, .ro, 0, 32, .any, .tree, { counter := true }⟩),
   (.framesFecLost, ⟨0x2105, 0x06, .u64, 8, .ro, 0, 32, .any, .tree, { counter := true }⟩),
   (.hecCorr, ⟨0x2105, 0x07, .u64, 8, .ro, 0, 32, .any, .tree, { counter := true }⟩),
   (.hecUncorr, ⟨0x2105, 0x08, .u64, 8, .ro, 0, 32, .any, .tree, { counter := true }⟩),
   (.delinLoss, ⟨0x2105, 0x09, .u32, 4, .ro, 0, 32, .any, .tree, { counter := true }⟩),
   (.framesHuntLost, ⟨0x2105, 0x0A, .u32, 4, .ro, 0, 32, .any, .tree, { counter := true }⟩),
   (.termPmEs, ⟨0x2106, 0x01, .u32, 4, .ro, 0, 16384, .any, .tree, { counter := true }⟩),
   (.termPmSes, ⟨0x2106, 0x02, .u32, 4, .ro, 0, 16384, .any, .tree, { counter := true }⟩),
   (.termPmUas, ⟨0x2106, 0x03, .u32, 4, .ro, 0, 16384, .any, .tree, { counter := true }⟩),
   (.enableMask, ⟨0x2107, 0x01, .bits32, 4, .rw, 0, 32, .any, .port, { mirrored := true }⟩),
   (.indTemplate, ⟨0x2107, 0x02, .octets, 508, .rw, 0, 32, .any, .port, { mirrored := true }⟩),
   (.indLength, ⟨0x2107, 0x03, .u16, 2, .rw, 0, 32, (.range 60 508), .port, { mirrored := true }⟩),
   (.indicationOffset, ⟨0x2107, 0x04, .u16, 2, .rw, 0, 32, .any, .port, { mirrored := true, unchecked := true }⟩),
   (.indPort, ⟨0x2107, 0x05, .u8, 1, .rw, 0, 32, (.range 0 15), .port, { mirrored := true }⟩),
   (.indQueue, ⟨0x2107, 0x06, .u8, 1, .rw, 0, 32, (.range 0 7), .port, { mirrored := true }⟩),
   (.indDomain, ⟨0x2107, 0x07, .u16, 2, .rw, 0, 32, (.range 0 4095), .port, { mirrored := true }⟩),
   (.repeatMs, ⟨0x2107, 0x08, .u16, 2, .rw, 0, 32, (.zeroOr 1 10000), .port, { mirrored := true }⟩),
   (.indSent, ⟨0x2107, 0x09, .u32, 4, .ro, 0, 32, .any, .port, { counter := true }⟩),
   (.indLost, ⟨0x2107, 0x0A, .u32, 4, .ro, 0, 32, .any, .port, { counter := true }⟩),
   (.mateDefects, ⟨0x2108, 0x01, .bits32, 4, .ro, 0, 1, .any, .device, {}⟩),
   (.mateLineLosSet, ⟨0x2108, 0x02, .u16, 2, .rw, 0, 1, (.range 1 1000), .device, { mirrored := true }⟩),
   (.mateLineLosClear, ⟨0x2108, 0x03, .u16, 2, .rw, 0, 1, (.range 1 1000), .device, { mirrored := true }⟩),
   (.mateLineEs, ⟨0x2108, 0x04, .u32, 4, .ro, 0, 1, .any, .device, { counter := true }⟩),
   (.mateLineSes, ⟨0x2108, 0x05, .u32, 4, .ro, 0, 1, .any, .device, { counter := true }⟩),
   (.mateLineUas, ⟨0x2108, 0x06, .u32, 4, .ro, 0, 1, .any, .device, { counter := true }⟩),
   (.ospRate, ⟨0x2109, 0x01, .enum8, 1, .rw, 0, 2, (.range 0 2), .device, { mirrored := true }⟩),
   (.txMessages, ⟨0x2109, 0x02, .u32, 4, .ro, 0, 2, .any, .device, { counter := true }⟩),
   (.rxMessages, ⟨0x2109, 0x03, .u32, 4, .ro, 0, 2, .any, .device, { counter := true }⟩),
   (.rxDiscarded, ⟨0x2109, 0x04, .u32, 4, .ro, 0, 2, .any, .device, { counter := true }⟩),
   (.txAborts, ⟨0x2109, 0x05, .u32, 4, .ro, 0, 2, .any, .device, { counter := true }⟩),
   (.txOverflow, ⟨0x2109, 0x06, .u32, 4, .ro, 0, 2, .any, .device, { counter := true }⟩),
   (.sbState, ⟨0x210A, 0x01, .enum8, 1, .ro, 0, 8, .any, .quad, {}⟩),
   (.sbErrors, ⟨0x210A, 0x02, .u32, 4, .ro, 0, 8, .any, .quad, { counter := true }⟩),
   (.txdisNow, ⟨0x210A, 0x03, .bits32, 4, .ro, 0, 8, .any, .quad, {}⟩),
   (.rssiRaw, ⟨0x210B, 0x01, .u16, 2, .ro, 0, 32, .any, .tree, {}⟩),
   (.rssiTriggers, ⟨0x210B, 0x02, .u32, 4, .ro, 0, 32, .any, .tree, { counter := true }⟩),
   (.discEnable, ⟨0x2200, 0x01, .bool, 1, .rw, 0, 32, .any, .tree, { mirrored := true }⟩),
   (.discPhase, ⟨0x2200, 0x02, .u8, 1, .rw, 0, 32, (.range 0 31), .tree, { mirrored := true }⟩),
   (.targetRtd, ⟨0x2200, 0x03, .u32, 4, .rw, 0, 32, .any, .tree, { mirrored := true, frozen := true, unchecked := true }⟩),
   (.minRtd, ⟨0x2200, 0x04, .u32, 4, .rw, 0, 32, .any, .tree, { mirrored := true, frozen := true, unchecked := true }⟩),
   (.randomDelayMax, ⟨0x2200, 0x05, .u32, 4, .rw, 0, 32, .any, .tree, { mirrored := true, unchecked := true }⟩),
   (.snCaptured, ⟨0x2200, 0x06, .u32, 4, .ro, 0, 32, .any, .tree, { counter := true }⟩),
   (.discCollide, ⟨0x2200, 0x07, .u32, 4, .ro, 0, 32, .any, .tree, { counter := true }⟩),
   (.snDuplicate, ⟨0x2200, 0x08, .u32, 4, .ro, 0, 32, .any, .tree, { counter := true }⟩),
   (.outOfReach, ⟨0x2200, 0x09, .u32, 4, .ro, 0, 32, .any, .tree, { counter := true }⟩),
   (.rangeFail, ⟨0x2200, 0x0A, .u32, 4, .ro, 0, 32, .any, .tree, { counter := true }⟩),
   (.discListCount, ⟨0x2200, 0x0B, .u8, 1, .ro, 0, 32, .any, .tree, {}⟩),
   (.driftThresh, ⟨0x2201, 0x01, .u8, 1, .rw, 0, 32, (.range 1 32), .tree, { mirrored := true }⟩)]

/-- Object rows, part 4. -/
def objRows4 : List (Reg × ObjRow) :=
  [(.driftAvg, ⟨0x2201, 0x02, .u16, 2, .rw, 0, 32, (.pow2 1 256), .tree, { mirrored := true }⟩),
   (.updateLead, ⟨0x2201, 0x03, .u8, 1, .rw, 0, 32, (.range 2 64), .tree, { mirrored := true }⟩),
   (.steerEnable, ⟨0x2201, 0x04, .bool, 1, .rw, 0, 32, .any, .tree, { mirrored := true }⟩),
   (.steerUpPpm, ⟨0x2201, 0x05, .u32, 4, .rw, 0, 32, (.range 0 1000000), .tree, { mirrored := true }⟩),
   (.steerDownPpm, ⟨0x2201, 0x06, .u32, 4, .rw, 0, 32, (.range 0 1000000), .tree, { mirrored := true }⟩),
   (.steerDownS, ⟨0x2201, 0x07, .u16, 2, .rw, 0, 32, (.range 1 3600), .tree, { mirrored := true }⟩),
   (.lostTimeout, ⟨0x2201, 0x08, .u16, 2, .rw, 0, 32, (.range 10 10000), .tree, { mirrored := true }⟩),
   (.rangeTimeout, ⟨0x2201, 0x09, .u16, 2, .rw, 0, 32, (.range 100 60000), .tree, { mirrored := true }⟩),
   (.rangeTries, ⟨0x2201, 0x0A, .u8, 1, .rw, 0, 32, (.range 1 16), .tree, { mirrored := true }⟩),
   (.listSn, ⟨0x2202, 0x01, .octets, 8, .ro, 0, 1024, .any, .tree, {}⟩),
   (.listAge, ⟨0x2202, 0x02, .u16, 2, .ro, 0, 1024, .any, .tree, {}⟩),
   (.coarseRtd, ⟨0x2202, 0x03, .u32, 4, .ro, 0, 1024, .any, .tree, {}⟩),
   (.listValid, ⟨0x2202, 0x04, .bool, 1, .ro, 0, 1024, .any, .tree, {}⟩),
   (.snProvision, ⟨0x2203, 0x01, .octets, 8, .rw, 0, 16384, .any, .tree, { mirrored := true }⟩),
   (.onuId, ⟨0x2203, 0x02, .u16, 2, .rw, 0, 16384, .any, .tree, { mirrored := true, unchecked := true }⟩),
   (.termState, ⟨0x2203, 0x03, .enum8, 1, .ro, 0, 16384, .any, .tree, {}⟩),
   (.eqdBits, ⟨0x2203, 0x04, .u32, 4, .ro, 0, 16384, .any, .tree, {}⟩),
   (.rtdPs, ⟨0x2203, 0x05, .u64, 8, .ro, 0, 16384, .any, .tree, {}⟩),
   (.bpEntry, ⟨0x2203, 0x06, .u8, 1, .ro, 0, 16384, .any, .tree, {}⟩),
   (.steerLow, ⟨0x2203, 0x07, .u8, 1, .rw, 0, 16384, (.range 0 3), .tree, { mirrored := true, unchecked := true }⟩),
   (.steerHigh, ⟨0x2203, 0x08, .u8, 1, .rw, 0, 16384, (.range 0 3), .tree, { mirrored := true, unchecked := true }⟩),
   (.eqdUpdates, ⟨0x2203, 0x09, .u32, 4, .ro, 0, 16384, .any, .tree, { counter := true }⟩),
   (.jumps, ⟨0x2203, 0x0A, .u32, 4, .ro, 0, 16384, .any, .tree, { counter := true }⟩),
   (.termCommand, ⟨0x2203, 0x0B, .enum8, 1, .cmd, 0, 16384, (.range 1 3), .tree, { mirrored := true }⟩),
   (.lostEvents, ⟨0x2203, 0x0C, .u32, 4, .ro, 0, 16384, .any, .tree, { counter := true }⟩),
   (.powerReqRefused, ⟨0x2203, 0x0D, .u32, 4, .ro, 0, 16384, .any, .tree, { counter := true }⟩),
   (.rogueState, ⟨0x2204, 0x01, .enum8, 1, .ro, 0, 32, .any, .tree, {}⟩),
   (.rogueCount, ⟨0x2204, 0x02, .u8, 1, .rw, 0, 32, (.range 1 8), .tree, { mirrored := true }⟩),
   (.rogueAuto, ⟨0x2204, 0x03, .bool, 1, .rw, 0, 32, .any, .tree, { mirrored := true }⟩),
   (.rogueSuspect, ⟨0x2204, 0x04, .u16, 2, .ro, 0, 32, .any, .tree, {}⟩),
   (.idleLit, ⟨0x2204, 0x05, .u32, 4, .ro, 0, 32, .any, .tree, { counter := true }⟩),
   (.rssiEnable, ⟨0x2204, 0x06, .bool, 1, .rw, 0, 32, .any, .tree, { mirrored := true }⟩),
   (.burstsFramed, ⟨0x2205, 0x01, .u64, 8, .ro, 0, 16384, .any, .tree, { counter := true }⟩),
   (.burstsMissed, ⟨0x2205, 0x02, .u64, 8, .ro, 0, 16384, .any, .tree, { counter := true }⟩),
   (.burstsUnframed, ⟨0x2205, 0x03, .u64, 8, .ro, 0, 16384, .any, .tree, { counter := true }⟩),
   (.guardBytes, ⟨0x2300, 0x01, .u16, 2, .rw, 0, 32, (.mult 16 1024 16), .tree, { mirrored := true, frozen := true }⟩),
   (.cellYield, ⟨0x2300, 0x02, .u16, 2, .rw, 0, 32, (.range 72 256), .tree, { mirrored := true, unchecked := true }⟩),
   (.drainCap, ⟨0x2300, 0x03, .u32, 4, .rw, 0, 32, (.range 0 65536), .tree, { mirrored := true, unchecked := true }⟩),
   (.staticCredit, ⟨0x2300, 0x04, .u32, 4, .rw, 0, 32, .any, .tree, { mirrored := true, unchecked := true }⟩),
   (.reportMissMax, ⟨0x2300, 0x05, .u8, 1, .rw, 0, 32, (.range 1 255), .tree, { mirrored := true }⟩),
   (.ploamuMs, ⟨0x2300, 0x06, .u16, 2, .rw, 0, 32, (.range 1 1000), .tree, { mirrored := true }⟩),
   (.creditLast, ⟨0x2300, 0x07, .s32, 4, .ro, 0, 32, .any, .tree, {}⟩),
   (.budgetLast, ⟨0x2300, 0x08, .u32, 4, .ro, 0, 32, .any, .tree, {}⟩),
   (.admitOverrun, ⟨0x2300, 0x09, .u32, 4, .ro, 0, 32, .any, .tree, { counter := true }⟩),
   (.entriesLast, ⟨0x2300, 0x0A, .u16, 2, .ro, 0, 32, .any, .tree, {}⟩),
   (.mapsSealed, ⟨0x2301, 0x01, .u32, 4, .ro, 0, 32, .any, .tree, { counter := true }⟩),
   (.mapsEmptied, ⟨0x2301, 0x02, .u32, 4, .ro, 0, 32, .any, .tree, { counter := true }⟩),
   (.fanoutLate, ⟨0x2301, 0x03, .u32, 4, .ro, 0, 32, .any, .tree, { counter := true }⟩)]

/-- Object rows, part 5. -/
def objRows5 : List (Reg × ObjRow) :=
  [(.creditLate, ⟨0x2301, 0x04, .u32, 4, .ro, 0, 32, .any, .tree, { counter := true }⟩),
   (.mapFull, ⟨0x2301, 0x05, .u32, 4, .ro, 0, 32, .any, .tree, { counter := true }⟩),
   (.deferEvents, ⟨0x2301, 0x06, .u32, 4, .ro, 0, 32, .any, .tree, { counter := true }⟩),
   (.splitBursts, ⟨0x2301, 0x07, .u32, 4, .ro, 0, 32, .any, .tree, { counter := true }⟩),
   (.grantOrphan, ⟨0x2301, 0x08, .u32, 4, .ro, 0, 32, .any, .tree, { counter := true }⟩),
   (.allocEnable, ⟨0x2302, 0x01, .bool, 1, .rw, 0, 65536, .any, .tree, { mirrored := true }⟩),
   (.allocTerminal, ⟨0x2302, 0x02, .u16, 2, .rw, 0, 65536, (.range 0 511), .tree, { mirrored := true }⟩),
   (.allocId, ⟨0x2302, 0x03, .u16, 2, .rw, 0, 65536, .any, .tree, { mirrored := true, unchecked := true }⟩),
   (.allocClass, ⟨0x2302, 0x04, .enum8, 1, .rw, 0, 65536, (.range 0 3), .tree, { mirrored := true }⟩),
   (.fixedBytes, ⟨0x2302, 0x05, .u32, 4, .rw, 0, 65536, (.range 0 777600), .tree, { mirrored := true, unchecked := true }⟩),
   (.assuredKbps, ⟨0x2302, 0x06, .u32, 4, .rw, 0, 65536, (.range 0 50000000), .tree, { mirrored := true, unchecked := true }⟩),
   (.maxKbps, ⟨0x2302, 0x07, .u32, 4, .rw, 0, 65536, (.range 0 50000000), .tree, { mirrored := true }⟩),
   (.allocationWeight, ⟨0x2302, 0x08, .u16, 2, .rw, 0, 65536, (.range 1 1023), .tree, { mirrored := true }⟩),
   (.maxBurst, ⟨0x2302, 0x09, .u32, 4, .rw, 0, 65536, (.range 64 777600), .tree, { mirrored := true }⟩),
   (.latBound, ⟨0x2302, 0x0A, .bool, 1, .rw, 0, 65536, .any, .tree, { mirrored := true }⟩),
   (.pollUs, ⟨0x2302, 0x0B, .u32, 4, .rw, 0, 65536, (.range 125 1000000), .tree, { mirrored := true }⟩),
   (.bpCap, ⟨0x2302, 0x0C, .u8, 1, .rw, 0, 65536, (.range 0 3), .tree, { mirrored := true }⟩),
   (.allocReport, ⟨0x2302, 0x0D, .bool, 1, .rw, 0, 65536, .any, .tree, { mirrored := true }⟩),
   (.allocDemand, ⟨0x2303, 0x01, .u32, 4, .ro, 0, 65536, .any, .tree, {}⟩),
   (.grantedBytes, ⟨0x2303, 0x02, .u64, 8, .ro, 0, 65536, .any, .tree, { counter := true }⟩),
   (.reportsDecoded, ⟨0x2303, 0x03, .u32, 4, .ro, 0, 65536, .any, .tree, { counter := true }⟩),
   (.reportsMissed, ⟨0x2303, 0x04, .u32, 4, .ro, 0, 65536, .any, .tree, { counter := true }⟩),
   (.owedBytes, ⟨0x2303, 0x05, .u32, 4, .ro, 0, 65536, .any, .tree, {}⟩),
   (.owedDropped, ⟨0x2303, 0x06, .u32, 4, .ro, 0, 65536, .any, .tree, { counter := true }⟩),
   (.assuredTokens, ⟨0x2303, 0x07, .u32, 4, .ro, 0, 65536, .any, .tree, {}⟩),
   (.rateTokens, ⟨0x2303, 0x08, .u32, 4, .ro, 0, 65536, .any, .tree, {}⟩),
   (.drainEst, ⟨0x2304, 0x01, .u32, 4, .ro, 0, 16, .any, .port, {}⟩),
   (.burstsGranted, ⟨0x2305, 0x01, .u64, 8, .ro, 0, 16384, .any, .tree, { counter := true }⟩),
   (.ploamGrants, ⟨0x2305, 0x02, .u32, 4, .ro, 0, 16384, .any, .tree, { counter := true }⟩),
   (.ksLate, ⟨0x2400, 0x01, .u32, 4, .ro, 0, 8, .any, .quad, { counter := true }⟩),
   (.dsLate, ⟨0x2400, 0x02, .u32, 4, .ro, 0, 8, .any, .quad, { counter := true }⟩),
   (.suspensions, ⟨0x2400, 0x03, .u64, 8, .ro, 0, 8, .any, .quad, { counter := true }⟩),
   (.suspFull, ⟨0x2400, 0x04, .u32, 4, .ro, 0, 8, .any, .quad, { counter := true }⟩),
   (.recutJobs, ⟨0x2400, 0x05, .u32, 4, .ro, 0, 8, .any, .quad, { counter := true }⟩),
   (.keyMiss, ⟨0x2400, 0x06, .u32, 4, .ro, 0, 8, .any, .quad, { counter := true }⟩),
   (.mgmtJobs, ⟨0x2400, 0x07, .u64, 8, .ro, 0, 8, .any, .quad, { counter := true }⟩),
   (.keyNext, ⟨0x2401, 0x01, .octets, 40, .wo, 0, 32838, .any, .byInstance, { mirrored := true, unchecked := true, admin := true }⟩),
   (.keyState, ⟨0x2401, 0x02, .bits32, 4, .ro, 0, 32838, .any, .byInstance, {}⟩),
   (.keyErase, ⟨0x2401, 0x03, .bool, 1, .cmd, 0, 32838, .any, .byInstance, { mirrored := true, admin := true }⟩),
   (.switches, ⟨0x2401, 0x04, .u32, 4, .ro, 0, 32838, .any, .byInstance, { counter := true }⟩),
   (.upCheckFail, ⟨0x2402, 0x01, .u32, 4, .ro, 0, 16384, .any, .tree, { counter := true }⟩),
   (.erasedDrop, ⟨0x2402, 0x02, .u32, 4, .ro, 0, 16384, .any, .tree, { counter := true }⟩),
   (.erasedPoison, ⟨0x2402, 0x03, .u32, 4, .ro, 0, 16384, .any, .tree, { counter := true }⟩),
   (.keyModeMismatch, ⟨0x2402, 0x04, .u32, 4, .ro, 0, 16384, .any, .tree, { counter := true }⟩),
   (.deviceSalt, ⟨0x2403, 0x01, .u32, 4, .ro, 0, 1, .any, .device, {}⟩),
   (.entropyState, ⟨0x2403, 0x02, .enum8, 1, .ro, 0, 1, .any, .device, {}⟩),
   (.retireFrames, ⟨0x2403, 0x03, .u16, 2, .rw, 0, 1, (.range 8 64000), .device, { mirrored := true, admin := true }⟩),
   (.tagFail, ⟨0x2404, 0x01, .u32, 4, .ro, 0, 4, .any, .device, { counter := true }⟩)]

/-- Object rows, part 6. -/
def objRows6 : List (Reg × ObjRow) :=
  [(.nonceReject, ⟨0x2404, 0x02, .u32, 4, .ro, 0, 4, .any, .device, { counter := true }⟩),
   (.nonceCounter, ⟨0x2404, 0x03, .u64, 8, .ro, 0, 4, .any, .device, {}⟩),
   (.mateTagFail, ⟨0x2405, 0x01, .u32, 4, .ro, 0, 1, .any, .device, { counter := true }⟩),
   (.mateReplay, ⟨0x2405, 0x02, .u32, 4, .ro, 0, 1, .any, .device, { counter := true }⟩),
   (.loadNonce, ⟨0x2406, 0x01, .octets, 12, .ro, 0, 1, .any, .device, {}⟩),
   (.loadGo, ⟨0x2406, 0x02, .bool, 1, .cmd, 0, 1, .any, .device, { mirrored := true, longOp := true, admin := true }⟩),
   (.loadStatus, ⟨0x2406, 0x03, .u32, 4, .ro, 0, 1, .any, .device, {}⟩),
   (.cuttersBusy, ⟨0x2407, 0x01, .u16, 2, .ro, 0, 8, .any, .quad, {}⟩),
   (.ksReady, ⟨0x2407, 0x02, .u32, 4, .ro, 0, 8, .any, .quad, {}⟩),
   (.suspInUse, ⟨0x2407, 0x03, .u8, 1, .ro, 0, 8, .any, .quad, {}⟩),
   (.startUplink, ⟨0x2500, 0x01, .u8, 1, .rw, 0, 1, (.range 0 253), .device, { mirrored := true, unchecked := true }⟩),
   (.startTree, ⟨0x2500, 0x02, .u8, 1, .rw, 0, 1, (.range 0 253), .device, { mirrored := true, unchecked := true }⟩),
   (.hashSeed, ⟨0x2500, 0x03, .u32, 4, .rw, 0, 1, .any, .device, { mirrored := true }⟩),
   (.lenConflictAction, ⟨0x2500, 0x04, .enum8, 1, .rw, 0, 1, (.range 0 1), .device, { mirrored := true }⟩),
   (.defaultUplink, ⟨0x2500, 0x05, .octets, 16, .rw, 0, 1, .any, .device, { mirrored := true, unchecked := true }⟩),
   (.defaultTree, ⟨0x2500, 0x06, .octets, 16, .rw, 0, 1, .any, .device, { mirrored := true, unchecked := true }⟩),
   (.fragAge, ⟨0x2500, 0x07, .u16, 2, .rw, 0, 1, (.range 1 1000), .device, { mirrored := true }⟩),
   (.graphDefault, ⟨0x2500, 0x08, .bool, 1, .cmd, 0, 1, .any, .device, { mirrored := true }⟩),
   (.commitGo, ⟨0x2501, 0x01, .bool, 1, .cmd, 0, 1, .any, .device, { mirrored := true, longOp := true }⟩),
   (.discard, ⟨0x2501, 0x02, .bool, 1, .cmd, 0, 1, .any, .device, { mirrored := true }⟩),
   (.activeVersion, ⟨0x2501, 0x03, .u8, 1, .ro, 0, 1, .any, .device, {}⟩),
   (.commitStatus, ⟨0x2501, 0x04, .enum8, 1, .ro, 0, 1, .any, .device, {}⟩),
   (.spareRowsUsed, ⟨0x2501, 0x05, .u32, 4, .ro, 0, 1, .any, .device, {}⟩),
   (.stageFull, ⟨0x2501, 0x06, .u32, 4, .ro, 0, 1, .any, .device, { counter := true }⟩),
   (.verInflight, ⟨0x2502, 0x01, .u32, 4, .ro, 0, 4, .any, .device, {}⟩),
   (.ruleHits, ⟨0x2503, 0x01, .u64, 8, .ro, 0, 65536, .any, .device, { counter := true }⟩),
   (.defaultHitsUplink, ⟨0x2504, 0x01, .u64, 8, .ro, 0, 1, .any, .device, { counter := true }⟩),
   (.defaultHitsTree, ⟨0x2504, 0x02, .u64, 8, .ro, 0, 1, .any, .device, { counter := true }⟩),
   (.lenConflictDrop, ⟨0x2504, 0x03, .u64, 8, .ro, 0, 1, .any, .device, { counter := true }⟩),
   (.dirDrop, ⟨0x2504, 0x04, .u64, 8, .ro, 0, 1, .any, .device, { counter := true }⟩),
   (.destInvalid, ⟨0x2504, 0x05, .u64, 8, .ro, 0, 1, .any, .device, { counter := true }⟩),
   (.domainOff, ⟨0x2504, 0x06, .u64, 8, .ro, 0, 1, .any, .device, { counter := true }⟩),
   (.editOversize, ⟨0x2504, 0x07, .u64, 8, .ro, 0, 1, .any, .device, { counter := true }⟩),
   (.parseDeepSeen, ⟨0x2504, 0x08, .u64, 8, .ro, 0, 1, .any, .device, { counter := true }⟩),
   (.fragMissSeen, ⟨0x2504, 0x09, .u64, 8, .ro, 0, 1, .any, .device, { counter := true }⟩),
   (.fragFull, ⟨0x2504, 0x0A, .u32, 4, .ro, 0, 1, .any, .device, { counter := true }⟩),
   (.fragEntries, ⟨0x2504, 0x0B, .u16, 2, .ro, 0, 1, .any, .device, {}⟩),
   (.inbandRefused, ⟨0x2504, 0x0C, .u64, 8, .ro, 0, 1, .any, .device, { counter := true }⟩),
   (.portClassSrcMeta, ⟨0x2505, 0x01, .u16, 2, .rw, 0, 16, .any, .port, { mirrored := true }⟩),
   (.parseWaitDrop, ⟨0x2505, 0x02, .u32, 4, .ro, 0, 16, .any, .port, { counter := true }⟩),
   (.termClassSrcMeta, ⟨0x2506, 0x01, .u16, 2, .rw, 0, 16384, .any, .tree, { mirrored := true }⟩),
   (.addrSeed0, ⟨0x2600, 0x01, .u32, 4, .rw, 0, 1, .any, .device, { mirrored := true, unchecked := true }⟩),
   (.addrSeed1, ⟨0x2600, 0x02, .u32, 4, .rw, 0, 1, .any, .device, { mirrored := true, unchecked := true }⟩),
   (.ageTime, ⟨0x2600, 0x03, .u32, 4, .rw, 0, 1, (.zeroOr 10 1000000), .device, { mirrored := true }⟩),
   (.moveHoldMs, ⟨0x2600, 0x04, .u16, 2, .rw, 0, 1, (.range 0 15000), .device, { mirrored := true }⟩),
   (.moveLimit, ⟨0x2600, 0x05, .u8, 1, .rw, 0, 1, (.range 1 64), .device, { mirrored := true }⟩),
   (.addrEntries, ⟨0x2600, 0x06, .u32, 4, .ro, 0, 1, .any, .device, {}⟩),
   (.stashUsed, ⟨0x2600, 0x07, .u8, 1, .ro, 0, 1, .any, .device, {}⟩)]

/-- Object rows, part 7. -/
def objRows7 : List (Reg × ObjRow) :=
  [(.addrOp, ⟨0x2601, 0x01, .octets, 17, .cmd, 0, 1, .any, .device, { mirrored := true }⟩),
   (.addrOpStatus, ⟨0x2601, 0x02, .enum8, 1, .ro, 0, 1, .any, .device, {}⟩),
   (.addrFlush, ⟨0x2601, 0x03, .octets, 8, .cmd, 0, 1, .any, .device, { mirrored := true }⟩),
   (.learned, ⟨0x2602, 0x01, .u64, 8, .ro, 0, 1, .any, .device, { counter := true }⟩),
   (.moves, ⟨0x2602, 0x02, .u64, 8, .ro, 0, 1, .any, .device, { counter := true }⟩),
   (.flaps, ⟨0x2602, 0x03, .u64, 8, .ro, 0, 1, .any, .device, { counter := true }⟩),
   (.staticConflict, ⟨0x2602, 0x04, .u64, 8, .ro, 0, 1, .any, .device, { counter := true }⟩),
   (.aged, ⟨0x2602, 0x05, .u64, 8, .ro, 0, 1, .any, .device, { counter := true }⟩),
   (.learnFull, ⟨0x2602, 0x06, .u32, 4, .ro, 0, 1, .any, .device, { counter := true }⟩),
   (.learnDrop, ⟨0x2602, 0x07, .u32, 4, .ro, 0, 1, .any, .device, { counter := true }⟩),
   (.flushed, ⟨0x2602, 0x08, .u32, 4, .ro, 0, 1, .any, .device, { counter := true }⟩),
   (.addrMiss, ⟨0x2602, 0x09, .u64, 8, .ro, 0, 1, .any, .device, { counter := true }⟩),
   (.pfxMiss, ⟨0x2602, 0x0A, .u64, 8, .ro, 0, 1, .any, .device, { counter := true }⟩),
   (.samePortDrop, ⟨0x2602, 0x0B, .u64, 8, .ro, 0, 1, .any, .device, { counter := true }⟩),
   (.sweepLockMaxMs, ⟨0x2603, 0x01, .u16, 2, .rw, 0, 1, (.range 10 10000), .device, { mirrored := true }⟩),
   (.lockExpired, ⟨0x2603, 0x02, .u32, 4, .ro, 0, 1, .any, .device, { counter := true }⟩),
   (.sweepPeriodMs, ⟨0x2603, 0x03, .u16, 2, .rw, 0, 1, (.range 100 60000), .device, { mirrored := true }⟩),
   (.compareFail, ⟨0x2603, 0x04, .u32, 4, .ro, 0, 1, .any, .device, { counter := true }⟩),
   (.sweepSkipped, ⟨0x2603, 0x05, .u32, 4, .ro, 0, 1, .any, .device, { counter := true }⟩),
   (.sigReg, ⟨0x2604, 0x01, .u32, 4, .ro, 0, 6657, .any, .device, {}⟩),
   (.freeMode, ⟨0x2700, 0x01, .enum8, 1, .rw, 0, 1, (.range 0 1), .device, { mirrored := true }⟩),
   (.cellsFree, ⟨0x2700, 0x02, .u32, 4, .ro, 0, 1, .any, .device, {}⟩),
   (.descFree, ⟨0x2700, 0x03, .u32, 4, .ro, 0, 1, .any, .device, {}⟩),
   (.ptrBad, ⟨0x2700, 0x04, .u32, 4, .ro, 0, 1, .any, .device, { counter := true }⟩),
   (.doubleFree, ⟨0x2700, 0x05, .u32, 4, .ro, 0, 1, .any, .device, { counter := true }⟩),
   (.bufEccCorr, ⟨0x2700, 0x06, .u64, 8, .ro, 0, 1, .any, .device, { counter := true }⟩),
   (.bufEccUncorr, ⟨0x2700, 0x07, .u32, 4, .ro, 0, 1, .any, .device, { counter := true }⟩),
   (.poolSize, ⟨0x2701, 0x01, .u32, 4, .rw, 0, 35, .any, .byInstance, { mirrored := true, unchecked := true }⟩),
   (.poolUsed, ⟨0x2701, 0x02, .u32, 4, .ro, 0, 35, .any, .byInstance, {}⟩),
   (.poolPeak, ⟨0x2701, 0x03, .u32, 4, .ro, 0, 35, .any, .byInstance, {}⟩),
   (.noBuffer, ⟨0x2701, 0x04, .u64, 8, .ro, 0, 35, .any, .byInstance, { counter := true }⟩),
   (.leakReclaimed, ⟨0x2702, 0x01, .u32, 4, .ro, 0, 1, .any, .device, { counter := true }⟩),
   (.doubleOwned, ⟨0x2702, 0x02, .u32, 4, .ro, 0, 1, .any, .device, { counter := true }⟩),
   (.crossOwned, ⟨0x2702, 0x03, .u32, 4, .ro, 0, 1, .any, .device, { counter := true }⟩),
   (.sweeps, ⟨0x2702, 0x04, .u32, 4, .ro, 0, 1, .any, .device, { counter := true }⟩),
   (.auditGo, ⟨0x2702, 0x05, .bool, 1, .cmd, 0, 1, .any, .device, { mirrored := true, longOp := true }⟩),
   (.auditStatus, ⟨0x2702, 0x06, .enum8, 1, .ro, 0, 1, .any, .device, {}⟩),
   (.holdMs, ⟨0x2703, 0x01, .u16, 2, .rw, 0, 16, (.range 0 10000), .port, { mirrored := true }⟩),
   (.holdState, ⟨0x2703, 0x02, .enum8, 1, .ro, 0, 16, .any, .port, {}⟩),
   (.partialLost, ⟨0x2703, 0x03, .u32, 4, .ro, 0, 16, .any, .port, { counter := true }⟩),
   (.flushedFrames, ⟨0x2703, 0x04, .u64, 8, .ro, 0, 16, .any, .port, { counter := true }⟩),
   (.downDrop, ⟨0x2703, 0x05, .u64, 8, .ro, 0, 16, .any, .port, { counter := true }⟩),
   (.termHoldMs, ⟨0x2704, 0x01, .u16, 2, .rw, 0, 32, (.range 0 60000), .tree, { mirrored := true }⟩),
   (.termFlushed, ⟨0x2705, 0x01, .u32, 4, .ro, 0, 16384, .any, .tree, { counter := true }⟩),
   (.termDownDrop, ⟨0x2705, 0x02, .u32, 4, .ro, 0, 16384, .any, .tree, { counter := true }⟩),
   (.greenMin, ⟨0x2706, 0x01, .u32, 4, .rw, 0, 32, (.range 0 393216), .device, { mirrored := true }⟩),
   (.yellowMin, ⟨0x2706, 0x02, .u32, 4, .rw, 0, 32, (.range 0 393216), .device, { mirrored := true }⟩),
   (.redMin, ⟨0x2706, 0x03, .u32, 4, .rw, 0, 32, (.range 0 393216), .device, { mirrored := true }⟩)]

/-- Object rows, part 8. -/
def objRows8 : List (Reg × ObjRow) :=
  [(.greenMax, ⟨0x2706, 0x04, .u32, 4, .rw, 0, 32, (.range 0 393216), .device, { mirrored := true, unchecked := true }⟩),
   (.yellowMax, ⟨0x2706, 0x05, .u32, 4, .rw, 0, 32, (.range 0 393216), .device, { mirrored := true, unchecked := true }⟩),
   (.redMax, ⟨0x2706, 0x06, .u32, 4, .rw, 0, 32, (.range 0 393216), .device, { mirrored := true, unchecked := true }⟩),
   (.greenPmax, ⟨0x2706, 0x07, .u8, 1, .rw, 0, 32, .any, .device, { mirrored := true }⟩),
   (.yellowPmax, ⟨0x2706, 0x08, .u8, 1, .rw, 0, 32, .any, .device, { mirrored := true }⟩),
   (.redPmax, ⟨0x2706, 0x09, .u8, 1, .rw, 0, 32, .any, .device, { mirrored := true }⟩),
   (.dropProfileWeight, ⟨0x2706, 0x0A, .u8, 1, .rw, 0, 32, (.range 0 15), .device, { mirrored := true }⟩),
   (.ecnMark, ⟨0x2706, 0x0B, .bool, 1, .rw, 0, 32, .any, .device, { mirrored := true }⟩),
   (.redDropGreen, ⟨0x2707, 0x01, .u64, 8, .ro, 0, 1, .any, .device, { counter := true }⟩),
   (.redDropYellow, ⟨0x2707, 0x02, .u64, 8, .ro, 0, 1, .any, .device, { counter := true }⟩),
   (.redDropRed, ⟨0x2707, 0x03, .u64, 8, .ro, 0, 1, .any, .device, { counter := true }⟩),
   (.ecnMarked, ⟨0x2707, 0x04, .u64, 8, .ro, 0, 1, .any, .device, { counter := true }⟩),
   (.tailDrop, ⟨0x2707, 0x05, .u64, 8, .ro, 0, 1, .any, .device, { counter := true }⟩),
   (.lagMembers, ⟨0x2708, 0x01, .bits32, 4, .rw, 0, 8, .any, .device, { mirrored := true }⟩),
   (.revert, ⟨0x2708, 0x02, .bool, 1, .rw, 0, 8, .any, .device, { mirrored := true }⟩),
   (.revertMs, ⟨0x2708, 0x03, .u16, 2, .rw, 0, 8, (.range 0 60000), .device, { mirrored := true }⟩),
   (.lagActive, ⟨0x2708, 0x04, .bits32, 4, .ro, 0, 8, .any, .device, {}⟩),
   (.lagDownDrop, ⟨0x2708, 0x05, .u64, 8, .ro, 0, 8, .any, .device, { counter := true }⟩),
   (.mirSource, ⟨0x2709, 0x01, .u32, 4, .rw, 0, 4, .any, .device, { mirrored := true, unchecked := true }⟩),
   (.mirPort, ⟨0x2709, 0x02, .u8, 1, .rw, 0, 4, (.range 0 15), .device, { mirrored := true, unchecked := true }⟩),
   (.mirQueue, ⟨0x2709, 0x03, .u8, 1, .rw, 0, 4, (.range 0 7), .device, { mirrored := true, unchecked := true }⟩),
   (.mirDomain, ⟨0x2709, 0x04, .u16, 2, .rw, 0, 4, (.range 0 4095), .device, { mirrored := true, unchecked := true }⟩),
   (.mirCopies, ⟨0x2709, 0x05, .u64, 8, .ro, 0, 4, .any, .device, { counter := true }⟩),
   (.mirDrop, ⟨0x2709, 0x06, .u64, 8, .ro, 0, 4, .any, .device, { counter := true }⟩),
   (.bankCellsUsed, ⟨0x270A, 0x01, .u32, 4, .ro, 0, 32, .any, .device, {}⟩),
   (.bankEccCorr, ⟨0x270A, 0x02, .u64, 8, .ro, 0, 32, .any, .device, { counter := true }⟩),
   (.treeShapeKbps, ⟨0x2800, 0x01, .u32, 4, .rw, 0, 32, .any, .tree, { mirrored := true }⟩),
   (.treeShapeBurst, ⟨0x2800, 0x02, .u32, 4, .rw, 0, 32, (.range 0 16777216), .tree, { mirrored := true }⟩),
   (.treeOverhead, ⟨0x2800, 0x03, .s32, 4, .rw, 0, 32, (.srange (-64) 127), .tree, { mirrored := true }⟩),
   (.portStrictCount, ⟨0x2801, 0x01, .u8, 1, .rw, 0, 16, (.range 0 3), .port, { mirrored := true }⟩),
   (.portShapeKbps, ⟨0x2801, 0x02, .u32, 4, .rw, 0, 16, .any, .port, { mirrored := true }⟩),
   (.portShapeBurst, ⟨0x2801, 0x03, .u32, 4, .rw, 0, 16, (.range 0 16777216), .port, { mirrored := true }⟩),
   (.portOverhead, ⟨0x2801, 0x04, .s32, 4, .rw, 0, 16, (.srange (-64) 127), .port, { mirrored := true }⟩),
   (.hostShapeKbps, ⟨0x2802, 0x01, .u32, 4, .rw, 0, 1, .any, .device, { mirrored := true }⟩),
   (.mgmtDomain, ⟨0x2802, 0x02, .u16, 2, .rw, 0, 1, (.range 0 4095), .device, { mirrored := true }⟩),
   (.peakReset, ⟨0x2802, 0x03, .bool, 1, .cmd, 0, 1, .any, .device, { mirrored := true }⟩),
   (.meterDrop, ⟨0x2802, 0x04, .u64, 8, .ro, 0, 1, .any, .device, { counter := true }⟩),
   (.isolationDrop, ⟨0x2802, 0x05, .u64, 8, .ro, 0, 1, .any, .device, { counter := true }⟩),
   (.destMismatch, ⟨0x2802, 0x06, .u64, 8, .ro, 0, 1, .any, .device, { counter := true }⟩),
   (.permitEcc, ⟨0x2802, 0x07, .u32, 4, .ro, 0, 1, .any, .device, { counter := true }⟩),
   (.treeTxFrames, ⟨0x2803, 0x01, .u64, 8, .ro, 0, 32, .any, .tree, { counter := true }⟩),
   (.treeTxBytes, ⟨0x2803, 0x02, .u64, 8, .ro, 0, 32, .any, .tree, { counter := true }⟩),
   (.idleFillBytes, ⟨0x2803, 0x03, .u64, 8, .ro, 0, 32, .any, .tree, { counter := true }⟩),
   (.timeNow, ⟨0x2900, 0x01, .octets, 12, .ro, 0, 1, .any, .device, {}⟩),
   (.tickNow, ⟨0x2900, 0x02, .u64, 8, .ro, 0, 1, .any, .device, {}⟩),
   (.captureCmd, ⟨0x2900, 0x03, .bool, 1, .cmd, 0, 1, .any, .device, {}⟩),
   (.captTick, ⟨0x2900, 0x04, .u64, 8, .ro, 0, 1, .any, .device, {}⟩),
   (.captTime, ⟨0x2900, 0x05, .octets, 12, .ro, 0, 1, .any, .device, {}⟩)]

/-- Object rows, part 9. -/
def objRows9 : List (Reg × ObjRow) :=
  [(.clkInc, ⟨0x2900, 0x06, .u64, 8, .ro, 0, 1, .any, .device, {}⟩),
   (.clockModelOffset, ⟨0x2900, 0x07, .octets, 12, .ro, 0, 1, .any, .device, {}⟩),
   (.baseTick, ⟨0x2900, 0x08, .u64, 8, .ro, 0, 1, .any, .device, {}⟩),
   (.rateSet, ⟨0x2900, 0x09, .octets, 14, .wo, 0, 1, .any, .device, {}⟩),
   (.stepSet, ⟨0x2900, 0x0A, .octets, 21, .wo, 0, 1, .any, .device, {}⟩),
   (.clkPending, ⟨0x2900, 0x0B, .bits32, 4, .ro, 0, 1, .any, .device, {}⟩),
   (.timeState, ⟨0x2900, 0x0C, .enum8, 1, .ro, 0, 1, .any, .device, {}⟩),
   (.keepaliveMs, ⟨0x2900, 0x0D, .u16, 2, .rw, 0, 1, (.zeroOr 100 60000), .device, {}⟩),
   (.servoAlive, ⟨0x2900, 0x0E, .bool, 1, .cmd, 0, 1, .any, .device, {}⟩),
   (.holdoverEvents, ⟨0x2900, 0x0F, .u32, 4, .ro, 0, 1, .any, .device, { counter := true }⟩),
   (.portRxCorrPs, ⟨0x2901, 0x01, .s32, 4, .rw, 0, 16, (.srange (-100000) 100000), .port, { unchecked := true }⟩),
   (.portTxCorrPs, ⟨0x2901, 0x02, .s32, 4, .rw, 0, 16, (.srange (-100000) 100000), .port, { unchecked := true }⟩),
   (.tcEnable, ⟨0x2902, 0x01, .bool, 1, .rw, 0, 1, .any, .device, {}⟩),
   (.tcUpdated, ⟨0x2902, 0x02, .u64, 8, .ro, 0, 1, .any, .device, { counter := true }⟩),
   (.tcSaturated, ⟨0x2902, 0x03, .u32, 4, .ro, 0, 1, .any, .device, { counter := true }⟩),
   (.stampTrap, ⟨0x2902, 0x04, .bool, 1, .rw, 0, 1, .any, .device, {}⟩),
   (.ptpTx, ⟨0x2902, 0x05, .octets, 260, .cmd, 0, 1, .any, .port, {}⟩),
   (.txNextSeq, ⟨0x2902, 0x06, .u16, 2, .ro, 0, 1, .any, .device, {}⟩),
   (.txStamp, ⟨0x2903, 0x01, .octets, 16, .ro, 0, 16, .any, .device, {}⟩),
   (.todEnable, ⟨0x2904, 0x01, .bool, 1, .rw, 0, 32, .any, .tree, { mirrored := true }⟩),
   (.todPeriodMs, ⟨0x2904, 0x02, .u16, 2, .rw, 0, 32, (.range 10 60000), .tree, { mirrored := true }⟩),
   (.todLead, ⟨0x2904, 0x03, .u16, 2, .rw, 0, 32, (.range 16 64000), .tree, { mirrored := true }⟩),
   (.todRef, ⟨0x2904, 0x04, .octets, 20, .ro, 0, 32, .any, .tree, {}⟩),
   (.todGen, ⟨0x2904, 0x05, .u32, 4, .ro, 0, 32, .any, .tree, {}⟩),
   (.nDn, ⟨0x2904, 0x06, .u32, 4, .rw, 0, 32, (.range 1000000 2000000), .tree, { mirrored := true, unchecked := true }⟩),
   (.nUp, ⟨0x2904, 0x07, .u32, 4, .rw, 0, 32, (.range 1000000 2000000), .tree, { mirrored := true, unchecked := true }⟩),
   (.mDn, ⟨0x2904, 0x08, .u32, 4, .rw, 0, 32, (.range 1000000 2000000), .tree, { mirrored := true, unchecked := true }⟩),
   (.mUp, ⟨0x2904, 0x09, .u32, 4, .rw, 0, 32, (.range 1000000 2000000), .tree, { mirrored := true, unchecked := true }⟩),
   (.trespPs, ⟨0x2904, 0x0A, .u32, 4, .rw, 0, 32, .any, .tree, { mirrored := true, unchecked := true }⟩),
   (.opticsDnPs, ⟨0x2904, 0x0B, .u32, 4, .rw, 0, 32, (.range 0 100000), .tree, { unchecked := true }⟩),
   (.opticsUpPs, ⟨0x2904, 0x0C, .u32, 4, .rw, 0, 32, (.range 0 100000), .tree, { unchecked := true }⟩),
   (.psyncLatPs, ⟨0x2904, 0x0D, .u32, 4, .ro, 0, 32, .any, .tree, {}⟩),
   (.burstLatPs, ⟨0x2904, 0x0E, .u32, 4, .ro, 0, 32, .any, .tree, {}⟩),
   (.asymPs, ⟨0x2905, 0x01, .s32, 4, .rw, 0, 16384, .any, .tree, { mirrored := true }⟩),
   (.todCorrPs, ⟨0x2905, 0x02, .s32, 4, .ro, 0, 16384, .any, .tree, {}⟩),
   (.todTerm, ⟨0x2905, 0x03, .octets, 12, .ro, 0, 16384, .any, .tree, {}⟩),
   (.ppsOutEnable, ⟨0x2906, 0x01, .bool, 1, .rw, 0, 1, .any, .device, {}⟩),
   (.ppsWidthUs, ⟨0x2906, 0x02, .u32, 4, .rw, 0, 1, (.range 1 500000), .device, {}⟩),
   (.ppsOutDelayPs, ⟨0x2906, 0x03, .s32, 4, .rw, 0, 1, (.sstep (-100000) 100000 10), .device, {}⟩),
   (.ppsStandbyDrive, ⟨0x2906, 0x04, .bool, 1, .rw, 0, 1, .any, .device, {}⟩),
   (.ppsInEnable, ⟨0x2906, 0x05, .bool, 1, .rw, 0, 1, .any, .device, {}⟩),
   (.ppsInDelayPs, ⟨0x2906, 0x06, .s32, 4, .rw, 0, 1, (.srange (-100000) 100000), .device, {}⟩),
   (.ppsInStamp, ⟨0x2906, 0x07, .octets, 12, .ro, 0, 1, .any, .device, {}⟩),
   (.ppsInSeq, ⟨0x2906, 0x08, .u32, 4, .ro, 0, 1, .any, .device, {}⟩),
   (.ppsInIgnored, ⟨0x2906, 0x09, .u32, 4, .ro, 0, 1, .any, .device, { counter := true }⟩),
   (.rclkSrc, ⟨0x2907, 0x01, .u8, 1, .rw, 0, 1, (.orOne 0 15 255), .device, { unchecked := true }⟩),
   (.rclkFreq, ⟨0x2907, 0x02, .enum8, 1, .rw, 0, 1, (.range 0 1), .device, {}⟩),
   (.rclkState, ⟨0x2907, 0x03, .enum8, 1, .ro, 0, 1, .any, .device, {}⟩)]

/-- Object rows, part 10. -/
def objRows10 : List (Reg × ObjRow) :=
  [(.squelches, ⟨0x2907, 0x04, .u32, 4, .ro, 0, 1, .any, .device, { counter := true }⟩),
   (.mateDelta, ⟨0x2908, 0x01, .s64, 8, .ro, 0, 1, .any, .device, {}⟩),
   (.mateLinkPs, ⟨0x2908, 0x02, .u32, 4, .ro, 0, 1, .any, .device, {}⟩),
   (.mateAsymPs, ⟨0x2908, 0x03, .s32, 4, .rw, 0, 1, (.srange (-10000) 10000), .device, { unchecked := true }⟩),
   (.mateTimeLate, ⟨0x2908, 0x04, .u32, 4, .ro, 0, 1, .any, .device, { counter := true }⟩),
   (.rxStamps, ⟨0x2909, 0x01, .u64, 8, .ro, 0, 1, .any, .device, { counter := true }⟩),
   (.txStamps, ⟨0x2909, 0x02, .u64, 8, .ro, 0, 1, .any, .device, { counter := true }⟩),
   (.ppsEdges, ⟨0x2909, 0x03, .u64, 8, .ro, 0, 1, .any, .device, { counter := true }⟩),
   (.maxlen, ⟨0x2A00, 0x01, .u16, 2, .rw, 0, 1, (.range 1518 12288), .device, { unchecked := true }⟩),
   (.portWidth, ⟨0x2A00, 0x02, .enum8, 1, .rw, 0, 1, (.range 0 2), .device, {}⟩),
   (.calibrate, ⟨0x2A00, 0x03, .bool, 1, .cmd, 0, 1, .any, .device, { longOp := true }⟩),
   (.trainMaxMs, ⟨0x2A00, 0x04, .u16, 2, .rw, 0, 1, (.range 500 12000), .device, {}⟩),
   (.lanesLockMaxMs, ⟨0x2A00, 0x05, .u16, 2, .rw, 0, 1, (.range 2 100), .device, {}⟩),
   (.exchMaxMs, ⟨0x2A00, 0x06, .u16, 2, .rw, 0, 1, (.range 5 500), .device, {}⟩),
   (.idleEntryUs, ⟨0x2A00, 0x07, .u16, 2, .rw, 0, 1, (.range 2 10000), .device, {}⟩),
   (.laneState, ⟨0x2A01, 0x01, .enum8, 1, .ro, 0, 20, .any, .byInstance, {}⟩),
   (.trainEnable, ⟨0x2A01, 0x02, .bool, 1, .rw, 0, 20, .any, .byInstance, { frozen := true }⟩),
   (.ffePre3, ⟨0x2A01, 0x03, .s32, 4, .rw, 0, 20, (.srange (-4) 4), .byInstance, { frozen := true, unchecked := true }⟩),
   (.ffePre2, ⟨0x2A01, 0x04, .s32, 4, .rw, 0, 20, (.srange (-8) 8), .byInstance, { frozen := true, unchecked := true }⟩),
   (.ffePre1, ⟨0x2A01, 0x05, .s32, 4, .rw, 0, 20, (.srange (-24) 0), .byInstance, { frozen := true, unchecked := true }⟩),
   (.ffeMain, ⟨0x2A01, 0x06, .s32, 4, .rw, 0, 20, (.srange 32 63), .byInstance, { frozen := true, unchecked := true }⟩),
   (.ffePost, ⟨0x2A01, 0x07, .s32, 4, .rw, 0, 20, (.srange (-16) 0), .byInstance, { frozen := true, unchecked := true }⟩),
   (.ctleMode, ⟨0x2A01, 0x08, .enum8, 1, .rw, 0, 20, (.range 0 1), .byInstance, {}⟩),
   (.ctleSet, ⟨0x2A01, 0x09, .u8, 1, .rw, 0, 20, (.range 0 36), .byInstance, { unchecked := true }⟩),
   (.ctleNow, ⟨0x2A01, 0x0A, .u8, 1, .ro, 0, 20, .any, .byInstance, {}⟩),
   (.precode, ⟨0x2A01, 0x0B, .enum8, 1, .rw, 0, 20, (.range 0 2), .byInstance, { frozen := true }⟩),
   (.rxInvert, ⟨0x2A01, 0x0C, .bool, 1, .rw, 0, 20, .any, .byInstance, { frozen := true }⟩),
   (.txInvert, ⟨0x2A01, 0x0D, .bool, 1, .rw, 0, 20, .any, .byInstance, { frozen := true }⟩),
   (.bringupFail, ⟨0x2A01, 0x0E, .u32, 4, .ro, 0, 20, .any, .byInstance, { counter := true }⟩),
   (.failStage, ⟨0x2A01, 0x0F, .enum8, 1, .ro, 0, 20, .any, .byInstance, {}⟩),
   (.fecSymbols, ⟨0x2A01, 0x10, .u64, 8, .ro, 0, 20, .any, .byInstance, { counter := true }⟩),
   (.serDegrade, ⟨0x2A01, 0x11, .u32, 4, .rw, 0, 20, .any, .byInstance, { unchecked := true }⟩),
   (.portEnable, ⟨0x2A02, 0x01, .bool, 1, .rw, 0, 16, .any, .port, {}⟩),
   (.medium, ⟨0x2A02, 0x02, .enum8, 1, .rw, 0, 16, (.range 0 1), .port, { frozen := true }⟩),
   (.anEnable, ⟨0x2A02, 0x03, .bool, 1, .rw, 0, 16, .any, .port, { frozen := true }⟩),
   (.portState, ⟨0x2A02, 0x04, .enum8, 1, .ro, 0, 16, .any, .port, {}⟩),
   (.partnerFinuno, ⟨0x2A02, 0x05, .bool, 1, .ro, 0, 16, .any, .port, {}⟩),
   (.portFastIdle, ⟨0x2A02, 0x06, .bool, 1, .rw, 0, 16, .any, .port, {}⟩),
   (.linkDowns, ⟨0x2A02, 0x07, .u32, 4, .ro, 0, 16, .any, .port, { counter := true }⟩),
   (.fecCorr, ⟨0x2A02, 0x08, .u64, 8, .ro, 0, 16, .any, .port, { counter := true }⟩),
   (.portFecUncorr, ⟨0x2A02, 0x09, .u64, 8, .ro, 0, 16, .any, .port, { counter := true }⟩),
   (.portRunt, ⟨0x2A02, 0x0A, .u64, 8, .ro, 0, 16, .any, .port, { counter := true }⟩),
   (.portOversize, ⟨0x2A02, 0x0B, .u64, 8, .ro, 0, 16, .any, .port, { counter := true }⟩),
   (.portFcsErr, ⟨0x2A02, 0x0C, .u64, 8, .ro, 0, 16, .any, .port, { counter := true }⟩),
   (.rxFrames, ⟨0x2A02, 0x0D, .u64, 8, .ro, 0, 16, .any, .port, { counter := true }⟩),
   (.txFrames, ⟨0x2A02, 0x0E, .u64, 8, .ro, 0, 16, .any, .port, { counter := true }⟩),
   (.txPadded, ⟨0x2A02, 0x0F, .u64, 8, .ro, 0, 16, .any, .port, { counter := true }⟩),
   (.pauseRxEnable, ⟨0x2A02, 0x10, .bool, 1, .rw, 0, 16, .any, .port, {}⟩)]

/-- Object rows, part 11. -/
def objRows11 : List (Reg × ObjRow) :=
  [(.pauseTxEnable, ⟨0x2A02, 0x11, .bool, 1, .rw, 0, 16, .any, .port, {}⟩),
   (.pauseRxFrames, ⟨0x2A02, 0x12, .u64, 8, .ro, 0, 16, .any, .port, { counter := true }⟩),
   (.pauseTxFrames, ⟨0x2A02, 0x13, .u64, 8, .ro, 0, 16, .any, .port, { counter := true }⟩),
   (.pausedUs, ⟨0x2A02, 0x14, .u64, 8, .ro, 0, 16, .any, .port, { counter := true }⟩),
   (.pauseStormMs, ⟨0x2A02, 0x15, .u16, 2, .rw, 0, 16, (.zeroOr 10 60000), .port, {}⟩),
   (.pauseStorm, ⟨0x2A02, 0x16, .u32, 4, .ro, 0, 16, .any, .port, { counter := true }⟩),
   (.macctlOther, ⟨0x2A02, 0x17, .u64, 8, .ro, 0, 16, .any, .port, { counter := true }⟩),
   (.sscEnable, ⟨0x2A03, 0x01, .bool, 1, .rw, 0, 4, .any, .port, { frozen := true, unchecked := true }⟩),
   (.mateEnable, ⟨0x2A04, 0x01, .bool, 1, .rw, 0, 1, .any, .device, {}⟩),
   (.mateState, ⟨0x2A04, 0x02, .enum8, 1, .ro, 0, 1, .any, .device, {}⟩),
   (.mateFastIdle, ⟨0x2A04, 0x03, .bool, 1, .rw, 0, 1, .any, .device, {}⟩),
   (.mateSeqGap, ⟨0x2A04, 0x04, .u64, 8, .ro, 0, 1, .any, .device, { counter := true }⟩),
   (.mateFramesRx, ⟨0x2A04, 0x05, .u64, 8, .ro, 0, 1, .any, .device, { counter := true }⟩),
   (.mgmtMode, ⟨0x2A05, 0x01, .enum8, 1, .ro, 0, 1, .any, .device, {}⟩),
   (.mgmtAn, ⟨0x2A05, 0x02, .bool, 1, .rw, 0, 1, .any, .device, {}⟩),
   (.mgmtState, ⟨0x2A05, 0x03, .enum8, 1, .ro, 0, 1, .any, .device, {}⟩),
   (.mgmtPortRunt, ⟨0x2A05, 0x04, .u64, 8, .ro, 0, 1, .any, .device, { counter := true }⟩),
   (.mgmtPortOversize, ⟨0x2A05, 0x05, .u64, 8, .ro, 0, 1, .any, .device, { counter := true }⟩),
   (.mgmtPortFcsErr, ⟨0x2A05, 0x06, .u64, 8, .ro, 0, 1, .any, .device, { counter := true }⟩),
   (.eyeHeightMv, ⟨0x2A06, 0x01, .u16, 2, .ro, 0, 20, .any, .port, {}⟩),
   (.eyeWidthMui, ⟨0x2A06, 0x02, .u16, 2, .ro, 0, 20, .any, .port, {}⟩),
   (.eyeScan, ⟨0x2A06, 0x03, .bool, 1, .cmd, 0, 20, .any, .port, {}⟩),
   (.redundancyEnable, ⟨0x2B00, 0x01, .bool, 1, .rw, 0, 1, .any, .device, { admin := true }⟩),
   (.unitRole, ⟨0x2B00, 0x02, .enum8, 1, .ro, 0, 1, .any, .device, {}⟩),
   (.unitId, ⟨0x2B00, 0x03, .u8, 1, .ro, 0, 1, .any, .device, {}⟩),
   (.roleCmd, ⟨0x2B00, 0x04, .enum8, 1, .cmd, 0, 1, (.range 1 2), .device, { admin := true }⟩),
   (.txOnUs, ⟨0x2B00, 0x05, .u16, 2, .rw, 0, 1, (.range 5 100), .device, { admin := true }⟩),
   (.selfFence, ⟨0x2B00, 0x06, .bool, 1, .rw, 0, 1, .any, .device, { admin := true }⟩),
   (.pathState, ⟨0x2B00, 0x07, .bits32, 4, .ro, 0, 1, .any, .device, {}⟩),
   (.pathAlarms, ⟨0x2B00, 0x08, .u32, 4, .ro, 0, 1, .any, .device, { counter := true }⟩),
   (.takeovers, ⟨0x2B00, 0x09, .u32, 4, .ro, 0, 1, .any, .device, { counter := true }⟩),
   (.takeoverCause, ⟨0x2B00, 0x0A, .enum8, 1, .ro, 0, 1, .any, .device, {}⟩),
   (.takeoverSfc, ⟨0x2B00, 0x0B, .u64, 8, .ro, 0, 1, .any, .device, {}⟩),
   (.mirrorState, ⟨0x2B00, 0x0C, .enum8, 1, .ro, 0, 1, .any, .device, {}⟩),
   (.mirrorStaleMs, ⟨0x2B00, 0x0D, .u16, 2, .rw, 0, 1, (.range 10 10000), .device, { admin := true }⟩),
   (.resync, ⟨0x2B00, 0x0E, .bool, 1, .cmd, 0, 1, .any, .device, { admin := true }⟩),
   (.mirrorGaps, ⟨0x2B00, 0x0F, .u32, 4, .ro, 0, 1, .any, .device, { counter := true }⟩),
   (.dseqSent, ⟨0x2B00, 0x10, .u32, 4, .ro, 0, 1, .any, .device, {}⟩),
   (.dseqApplied, ⟨0x2B00, 0x11, .u32, 4, .ro, 0, 1, .any, .device, {}⟩),
   (.swapDiscard, ⟨0x2B00, 0x12, .u64, 8, .ro, 0, 1, .any, .device, { counter := true }⟩),
   (.listenDiscard, ⟨0x2B00, 0x13, .u64, 8, .ro, 0, 1, .any, .device, { counter := true }⟩),
   (.listenState, ⟨0x2B01, 0x01, .enum8, 1, .ro, 0, 32, .any, .tree, {}⟩),
   (.legDeltaPs, ⟨0x2B01, 0x02, .s32, 4, .rw, 0, 32, (.srange (-2000000) 2000000), .tree, { unchecked := true, admin := true }⟩),
   (.legShiftPs, ⟨0x2B01, 0x03, .s32, 4, .ro, 0, 32, .any, .tree, {}⟩),
   (.acqBits, ⟨0x2B01, 0x04, .u16, 2, .rw, 0, 32, (.range 16 4096), .tree, { admin := true }⟩),
   (.eqdAdj, ⟨0x2B01, 0x05, .s32, 4, .ro, 0, 32, .any, .tree, {}⟩),
   (.hbSent, ⟨0x2B02, 0x01, .u64, 8, .ro, 0, 1, .any, .device, { counter := true }⟩),
   (.hbRxLanes, ⟨0x2B02, 0x02, .u64, 8, .ro, 0, 1, .any, .device, { counter := true }⟩)]

/-- Object rows, part 12. -/
def objRows12 : List (Reg × ObjRow) :=
  [(.hbRxPins, ⟨0x2B02, 0x03, .u64, 8, .ro, 0, 1, .any, .device, { counter := true }⟩),
   (.hbWordErr, ⟨0x2B02, 0x04, .u32, 4, .ro, 0, 1, .any, .device, { counter := true }⟩)]

/-- Every row of the object tables, in ascending order of address (R318-R320). -/
def objRows : List (Reg × ObjRow) :=
  objRows0 ++ objRows1 ++ objRows2 ++ objRows3 ++ objRows4 ++ objRows5 ++ objRows6 ++ objRows7 ++ objRows8 ++ objRows9 ++ objRows10 ++ objRows11 ++ objRows12

/-- The row of a register. -/
def Reg.row (r : Reg) : ObjRow :=
  (objRows.getD r.ctorIdx (.vendor, ⟨0, 0, .u8, 1, .ro, 0, 1, .any, .device, {}⟩)).2

/-- The register at an address (index, sub-index); none where the dictionary has none (R317). -/
def Reg.ofAddr (index sub : Nat) : Option Reg :=
  (objRows.find? fun p => p.2.index = index && p.2.sub = sub).map (·.1)

/-- The default of a register for instance `i`: the value it holds after power-on reset (R7). -/
def Reg.dflt (r : Reg) (i : Nat) : Nat :=
  match r with
  | .vendor => 0x49AF
  | .partNo => 0x3250
  | .partRevision => 0x0100
  | .serialNo => Config.serialNumber
  | .dieKind => i
  | .dieRev => Config.dieRevision i
  | .dieLot => Config.dieLot i
  | .indexCount => 262
  | .dictRev | .refAuto | .pdEnable | .sampleMode | .omciMicCheck | .discEnable | .steerEnable
  | .steerDownPpm | .allocationWeight | .allocReport | .revert | .tcEnable | .trainEnable | .anEnable
  | .portFastIdle | .pauseRxEnable | .mateFastIdle | .mgmtAn | .selfFence => 1
  | .dirParams => 731
  | .swijanEtype => 0x88B5
  | .mgmtMac => 0x024951000000
  | .unauthPriv | .dspPriv | .pdState | .faultLevel | .defectTimersLosSet | .defectTimersLosClear
  | .lofSet | .lofClear | .aisFrames | .mateLineLosSet | .mateLineLosClear | .ospRate | .ffePre2 => 2
  | .sessionIdleMs => 30000
  | .sessionKey | .rclkSrc => 255
  | .keyPriv => [2, 1, 1, 0].getD i 0
  | .leaseTimeoutMs | .rangeTimeout => 10000
  | .domainKhz => nominalKhz i
  | .railLowMv => [727, 727, 776, 727, 873, 873, 1164, 1746].getD i 0
  | .railHighMv => [773, 773, 824, 773, 927, 927, 1236, 1854].getD i 0
  | .sampleEvery | .yellowMin | .redMax => 1024
  | .rxrstWidth | .delimWindow | .driftAvg | .moveLimit => 16
  | .rxrstLead => 24
  | .delimErrors | .rangeTries | .steerHigh | .rogueCount | .allocClass | .bpCap => 3
  | .ospPort => if i < 16 then 0 else 1
  | .omccQueue => 7
  | .ploamFree | .guardBytes | .greenPmax | .yellowPmax | .redPmax => 64
  | .bpPreamble => 0x5555555555555555
  | .bpRepeat => [32, 16, 8, 8].getD (i % 4) 0
  | .bpDelimiter => [0xB7A2D4096E1FC358, 0x4D39E6710BAC952E, 0x8E5327F01CB964DA, 0x36C87B95E20D4AB1].getD (i % 4) 0
  | .bpFec => if i % 4 = 3 then 0 else 1
  | .bpValid => if i % 4 = 0 then 1 else 0
  | .losiBursts | .lofiBursts | .rdiBursts | .driftThresh | .updateLead | .reportMissMax
  | .dropProfileWeight => 4
  | .sesPpm | .moveHoldMs | .sweepPeriodMs | .revertMs | .todPeriodMs | .ppsWidthUs => 1000
  | .indLength | .steerDownS => 60
  | .indicationOffset => 14
  | .txdisNow => 15
  | .discPhase => i % 32
  | .targetRtd => 240000
  | .minRtd => 35000
  | .randomDelayMax => 48000
  | .steerUpPpm | .lostTimeout | .sweepLockMaxMs | .mirrorStaleMs => 100
  | .onuId => i % 512
  | .rogueSuspect => 0xFFFF
  | .cellYield => 72
  | .drainCap | .greenMin => 2048
  | .staticCredit => 194400
  | .ploamuMs | .fragAge | .lanesLockMaxMs | .idleEntryUs => 10
  | .allocId => i % 2048
  | .maxKbps => 50000000
  | .maxBurst => 777600
  | .pollUs | .termHoldMs => 2000
  | .retireFrames | .todLead => 8000
  | .hashSeed => 0xFFFFFFFF
  | .defaultUplink | .defaultTree => 0x40000000000000000000000000000000
  | .addrSeed1 => 0x5A5A5A5A
  | .ageTime => 300
  | .cellsFree => 393216
  | .descFree => 786432
  | .poolSize => if i < 32 then 8192 else [114688, 12288, 4096].getD (i - 32) 0
  | .holdMs => 50
  | .redMin | .acqBits => 256
  | .greenMax => 8192
  | .yellowMax => 4096
  | .treeShapeBurst | .portShapeBurst => 65536
  | .treeOverhead => 8
  | .portOverhead | .exchMaxMs | .txOnUs => 20
  | .hostShapeKbps | .serDegrade => 1000000
  | .clkInc => 883738126749
  | .nDn | .nUp | .mDn | .mUp => 1468000
  | .trespPs => 35000000
  | .psyncLatPs => Config.psyncLatency i
  | .burstLatPs => Config.burstLatency i
  | .maxlen => 9216
  | .trainMaxMs => 3000
  | .ffePre1 => 4294967288
  | .ffeMain => 48
  | .ffePost => 4294967292
  | .ctleSet => 12
  | _ => 0

/-- The size in bytes of a register's value (R300). -/
def Reg.size (r : Reg) : Nat := r.row.size

end Sys2Proof.Machine
end

