-- ==== Sys2Proof/Machine/Graph.lean ====
section
/-!
DEFINITION. The default parse graph of R142, as PARSE_NODES and PARSE_TRANSITIONS records (R138, R139).
-/
namespace Sys2Proof.Machine

/-- A PARSE_NODES record from its fields (R138), with no extraction. -/
def nodeWord (kind lenMode lenFixed lenOff selOff selMask trBase trCount dflt : Nat) : Nat :=
  kind * 2 ^ 124 + lenMode * 2 ^ 122 + lenFixed * 2 ^ 114 + lenOff * 2 ^ 108 + selOff * 2 ^ 102 + selMask * 2 ^ 86 +
    trBase * 2 ^ 76 + trCount * 2 ^ 72 + dflt * 2 ^ 64

/-- A PARSE_TRANSITIONS record that compares every bit of the selector (R139). -/
def transitionWord (value next : Nat) : Nat := value * 2 ^ 48 + 0xFFFF * 2 ^ 32 + next * 2 ^ 24

/-- The nodes of R142. Their transitions lie one node after the other; node 8 shares those of node 4 (DESIGN
CHOICE, log row 18). -/
def defaultNodes : Tab Nat :=
  [(0, nodeWord 1 0 14 0 12 0xFFFF 0 5 0xFE),
   (1, nodeWord 2 0 4 0 2 0xFFFF 5 5 0xFE),
   (2, nodeWord 3 0 4 0 2 0x0100 10 1 0xFF),
   (3, nodeWord 4 1 0 0 9 0xFF00 11 3 0xFF),
   (4, nodeWord 5 0 40 0 6 0xFF00 14 7 0xFF),
   (5, nodeWord 8 3 0 12 0 0 0 0 0xFF),
   (6, nodeWord 9 0 8 0 0 0 0 0 0xFF),
   (7, nodeWord 10 0 4 0 0 0 0 0 0xFF),
   (8, nodeWord 6 2 0 1 0 0xFF00 14 7 0xFF),
   (9, nodeWord 7 0 8 0 0 0xFF00 21 3 0xFF)]

/-- The transitions of R142. -/
def defaultTransitions : Tab Nat :=
  [(0, transitionWord 0x8100 1), (1, transitionWord 0x88A8 1), (2, transitionWord 0x8847 2),
   (3, transitionWord 0x0800 3), (4, transitionWord 0x86DD 4),
   (5, transitionWord 0x8100 1), (6, transitionWord 0x88A8 1), (7, transitionWord 0x8847 2),
   (8, transitionWord 0x0800 3), (9, transitionWord 0x86DD 4),
   (10, transitionWord 0x0000 2),
   (11, transitionWord 0x0600 5), (12, transitionWord 0x1100 6), (13, transitionWord 0x0100 7),
   (14, transitionWord 0x0600 5), (15, transitionWord 0x1100 6), (16, transitionWord 0x3A00 7),
   (17, transitionWord 0x0000 8), (18, transitionWord 0x2B00 8), (19, transitionWord 0x3C00 8),
   (20, transitionWord 0x2C00 9),
   (21, transitionWord 0x0600 5), (22, transitionWord 0x1100 6), (23, transitionWord 0x3A00 7)]

end Sys2Proof.Machine
end

