-- ==== Sys2Proof/Machine/State.lean ====
section
/-!
DEFINITION. The state of one FN3250: every object register, every window record, every table, queue, timer, engine and
pin the manual gives it, as plain data, and the queue of waiting commands. Sparse tables list only what differs from
the default. INVENTORY.md, under State, names the rule of each field.
-/
namespace Sys2Proof.Machine
open Sys2Proof

/-- Why the machine stops. -/
inductive Fault where
  /-- Raised by a command that names an element outside the fixed numbering of R14, R119, R282 or R319: no such element
  exists, so no step of the device is meant. Safe: the model stops. -/
  | noSuchElement
  deriving DecidableEq, Repr

/-- Why a command has no meaning. -/
inductive Refusal where
  /-- Raised by an arm of `exec` whose command has no meaning yet. Safe: the model stops. -/
  | notModelled (mnemonic : String)
  deriving DecidableEq, Repr

/-! ### What leaves the device -/

/-- A PLOAM message of the device or the host (R42, R361). -/
inductive Ploam where
  | assignId (sn onuId : Nat)
  | eqDelay (onuId bits : Nat)
  | eqDelayUpdate (onuId bits sfc : Nat)
  | eqDelayAdjust (bits : Int) (sfc : Nat)
  | deactivate (onuId : Nat)
  | disable (sn : Nat)
  | enable (sn : Nat)
  | profileAnnounce (entry : Nat)
  | profileWithdraw (entry : Nat)
  | keySwitch (slot keyIndex sfc : Nat)
  | powerRefusal (onuId : Nat)
  | host (broadcast : Bool) (terminal : Nat) (payload : Bytes)
  deriving DecidableEq, Repr

/-- The allocation a structure of a map names (R86, R102): one of the host's, the default allocation of its terminal, or the
broadcast allocation. -/
inductive AllocName where
  | own (index : Nat)
  | terminalDefault
  | broadcast
  deriving DecidableEq, Repr

/-- The record of an allocation structure as the header of its frame carries it and the consumers take it (R102). `low` and
`added` are the two parts of CLASS_BYTES. -/
structure MapRecord where
  terminal : Nat
  alloc : AllocName
  start : Nat
  size : Nat
  entry : Nat
  report : Bool
  ploam : Bool
  first : Bool
  ranging : Bool
  discovery : Bool
  low : Nat
  added : Nat
  keySlot : Nat
  ctrStart : Nat
  deriving DecidableEq, Repr

/-- What a downstream frame carries before its payload, in the recommendation's order (R40): PSync at tick `psync`, the
superframe count structure, the operation control structure, and in the FEC-protected frame the header with the bandwidth map
and the PLOAM messages, each with its integrity code (R127). `lineBytes` is the length of the whole frame. What the operation
control structure holds the recommendation says, not the manual. -/
structure DownHeader where
  psync : Nat
  sfc : Nat
  lineBytes : Nat
  map : List MapRecord
  messages : List (Ploam × Nat)
  deriving DecidableEq, Repr

/-- A response of the dictionary (R304, R306). -/
structure Resp where
  status : Nat
  data : Bytes
  deriving DecidableEq, Repr

/-- What the device has sent to the outside, in order. A frame of `uplinkFrame` or `hostFrame` is listed when its first byte
leaves: `cut` tells that the link was lost while port `p` still sent it, `inverted` that its data read badly, so that it ends
with an inverted FCS (R188, R193). `advertise` are the pages of an auto-negotiation of clause 73 (R249, R250), `mateIdle` the idle
frames that fill the mate link before a frame, with the first one's header (R260). -/
inductive Emission where
  | response (m : Master) (r : Resp)
  | swijanReply (port : RxPort) (dest : Nat) (tags body : Bytes)
  | dspReply (body : Bytes)
  | downstream (t : Nat) (h : DownHeader)
  | subMap (t sfc k : Nat) (map : List MapRecord)
  | treeFrame (t terminal encPort keyIndex sfc position counter : Nat) (last : Bool) (bytes : Bytes)
  | idleFill (t bytes : Nat)
  | uplinkFrame (p queue : Nat) (bytes : Bytes)
  | hostFrame (bytes : Bytes)
  | cut (p : Nat)
  | inverted (e : Egress)
  | pause (p quanta tick : Nat)
  | advertise (p width medium : Nat) (pause asmDir : Bool) (revision functions : Nat)
  | capability (p : Nat) (bytes : Bytes)
  | precodeRequest (l : Nat) (on : Bool)
  | trainingBurst (l : Nat)
  | ospMessage (p : Nat) (wire : Bytes)
  | ospAbort (p terminal reason : Nat) (wire : Bytes)
  | mateFrame (tick header : Nat) (payload : Bytes)
  | mateIdle (tick header count : Nat)
  | pinWord (word : Nat)
  | rxrst (t start width : Nat)
  | rssiTrigger (t at_ : Nat)
  | ppsEdge (tick : Nat)
  | sideband (q bits : Nat)
  deriving DecidableEq, Repr

/-- A condition being timed (R53, R56): since when it holds, and the time in ms it must hold. -/
structure Timed where
  since : Nat
  ms : Nat
  deriving DecidableEq, Repr

/-- The classification of one performance second (R57). -/
inductive SecClass where
  | clean | errored | severe
  deriving DecidableEq, Repr

/-- Performance seconds of one scope (R57, R58): marks of the running second (`err` an uncorrectable codeword or header, `rdi` a
declared RDI, `defect` any other declared defect), the seconds that wait for commit oldest first, and whether unavailable time
runs. -/
structure Pm where
  err : Bool := false
  rdi : Bool := false
  defect : Bool := false
  codewords : Nat := 0
  uncorr : Nat := 0
  waiting : List SecClass := []
  unavailable : Bool := false
  deriving DecidableEq, Repr

/-- A frame the egress plane has handed to a tree's Line Framer (R43): the bytes still to be placed, and how many of it
earlier payloads carried. -/
structure DownFrame where
  terminal : Nat
  encPort : Nat
  bytes : Bytes
  placed : Nat := 0
  sampled : Option Nat
  t0 : Nat
  deriving DecidableEq, Repr

/-- Upstream keystream of one allocation structure (R117, R118): the burst it is for, its length, its key slot and half, the
counter of its first block, the class of its jobs, the bytes that jobs have been made for, and the bytes produced from its
start on. `done` are chunks produced ahead of that, as (position, bytes). -/
structure Keystream where
  burst : BurstRef
  alloc : Nat
  bytes : Nat
  slot : Nat
  ctr : Nat
  cls : Nat
  asked : Nat
  made : Nat
  done : List (Nat × Nat)
  deriving DecidableEq, Repr

/-- The working state of a tree slice. `room` and `payloadBytes` are what is left of the running frame's payload and its
whole length (R43); `keystream` the tree's region of the upstream store, in order of expected arrival (R118); `announcedIn` the
frame of the last repeated announcement (R50); `watchedTo` one above the last frame the rogue detector judged (R82). `peer` holds the active unit's PSYNC_LAT_PS, BURST_LAT_PS and optics latencies down
and up (R267); `shift` the leg shift S, the whole shift, frame K and the frame K + UPDATE_LEAD of a take-over (R273,
R275). -/
structure Tree where
  lit : Bool := false
  relightDue : Bool := false
  inReset : Bool := false
  restarting : Bool := false
  targetWritten : Bool := false
  ranging : List Ploam := []
  sequencer : List Ploam := []
  hostMsgs : List Ploam := []
  locked : List Ploam := []
  creditDue : Bool := false
  creditSent : Option Nat := none
  credit : Option Int := none
  building : Option Map := none
  maps : List Map := []
  lockedMap : Option Map := none
  payload : List DownFrame := []
  room : Nat := 0
  payloadBytes : Nat := 0
  keystream : List Keystream := []
  announcedIn : Option Nat := none
  watchedTo : Nat := 0
  announced : List Nat := [0]
  windowFrame : Option Nat := none
  captures : Nat := 0
  rangeWanted : List Nat := []
  rogueHist : List (Bool × Bool) := []
  losSet : Option Timed := none
  losClr : Option Timed := none
  lofSet : Option Timed := none
  lofClr : Option Timed := none
  judged : Option (Nat × Bool × Bool) := none
  feed : Bool := true
  feedRun : Nat := 0
  indSeq : Nat := 0
  indAt : Nat := 0
  indEvent : Nat := 0
  pm : Pm := {}
  rxrst : Option (Nat × Nat) := none
  todAt : Nat := 0
  todN : Option Nat := none
  burstSeen : Bool := false
  burstSeenLast : Bool := false
  legTerms : List (Nat × Rat) := []
  overflowing : Bool := false
  listRefresh : List (Nat × Nat) := []
  darkFrom : Nat := 0
  peer : Nat × Nat × Nat × Nat := (0, 0, 0, 0)
  shift : Option (Rat × Rat × Nat × Nat) := none
  deriving DecidableEq, Repr

/-- The working state of a terminal index. `update` is an outstanding equalisation delay with the frame it names once
its message has passed header lock (R76); `windowPs` the start of its ranging window after the reference, which may lie before
it (R74, R77); `resumedAt` the tick at which its last hold ended with the terminal back (R215). -/
structure Term where
  filter : Rat := 0
  update : Option (Nat × Option Nat) := none
  triesLeft : Nat := 0
  rangeAt : Option Nat := none
  tryFrame : Nat := 0
  eqdSent : Option Nat := none
  jumpRun : Nat := 0
  windowPs : Int := 0
  lostAt : Option Nat := none
  lostTicks : Nat := 0
  treeLos : Bool := false
  hold : Option (Nat × Nat) := none
  resumedAt : Option Nat := none
  missRun : Nat := 0
  lockRun : Nat := 0
  unframedRun : Nat := 0
  framedRun : Nat := 0
  rdiRun : Nat := 0
  noRdiRun : Nat := 0
  goodSeconds : Nat := 0
  lastEntry : Nat := 0
  secErr : Nat := 0
  secBits : Nat := 0
  secBad : Bool := false
  pm : Pm := {}
  ploamAt : Nat := 0
  awaitPloam : Bool := false
  disableLeft : Nat := 0
  reasm : List (Nat × Bytes) := []
  deriving DecidableEq, Repr

/-- A message in an Overhead Serial Port's transmit store: its terminal and its bytes on the wire. -/
structure OspMessage where
  terminal : Nat
  wire : Bytes
  deriving DecidableEq, Repr

/-- An Overhead Serial Port's transmit store (R64): bits held at tick `at_`, in units of 1/1,244,160,000 bit, whether
messages are dropped until space returns, and the messages held, oldest first. -/
structure Osp where
  held : Nat := 0
  at_ : Nat := 0
  dropping : Bool := false
  messages : List OspMessage := []
  deriving DecidableEq, Repr

/-- The working state of an allocation: its buckets in units of 1/512 byte (R89), the tick of its last grant (R92), its
run of missed reports (R91), and the report decoded since the last seal, with its burst (R90). -/
structure Alloc where
  assured : Nat := 0
  rate : Nat := 0
  grantTick : Nat := 0
  missRun : Nat := 0
  lastReport : Option (Nat × BurstRef) := none
  deriving DecidableEq, Repr

/-! ### The Quarry -/

/-- One half of a key slot (R119). -/
structure Key where
  a : Nat
  b : Nat
  index : Nat
  deriving DecidableEq, Repr

/-- A key slot (R119-R121, R135). `retireAt` is the superframe count at which a retiring key is erased. -/
structure Slot where
  current : Option Key := none
  next : Option Key := none
  retiring : Bool := false
  erased : Bool := false
  switchSfc : Nat := 0
  retireAt : Nat := 0
  deriving DecidableEq, Repr

/-- A job of a bank (R115, R116): its source, its class by R115 and as promoted, and the state a suspension saves: the counter
block, the blocks left, the output position and the running GHASH or integrity code `mac`. `slot` is the key slot it uses, if
any. `waited` is how long it has waited before `since`, the tick at which it began to wait or to run. -/
structure Job where
  id : Nat
  src : JobSource
  base : Nat
  cls : Nat
  slot : Option Nat
  ctr : Nat
  pos : Nat
  blocks : Nat
  mac : Nat
  waited : Nat
  since : Nat
  deriving DecidableEq, Repr

/-- A Quarry bank (R113, R116). `recut` are the frames its recut buffer holds: end of the recut, bytes (R122); `ghashUntil` the
tick up to which its GHASH unit is taken. -/
structure Bank where
  running : List Job := []
  queue : List Job := []
  suspended : List Job := []
  recut : List (Nat × Nat) := []
  nextId : Nat := 0
  ghashUntil : Nat := 0
  deriving DecidableEq, Repr

/-- The working state of a quad: the phase of a profile change (0 none, 1 written, 2 dark, 3 applied), its former
profile, and the sideband runs of R345. -/
structure Quad where
  change : Nat := 0
  formerProfile : Nat := 0
  badRun : Nat := 0
  goodRun : Nat := 0
  inReset : Bool := false
  deriving DecidableEq, Repr

/-! ### Classification and tables -/

/-- One version of the staged tables (R153): rules, prefixes, service domains, graph, defaults. Records are numbers,
most significant byte first. -/
structure Tables where
  rules : Tab Nat := []
  prefix4 : Tab Nat := []
  prefix6 : Tab Nat := []
  domains : Tab Nat := []
  nodes : Tab Nat := []
  transitions : Tab Nat := []
  defUplink : Nat := 0x40000000000000000000000000000000
  defTree : Nat := 0x40000000000000000000000000000000
  deriving DecidableEq, Repr

/-- A Fragment Table entry (R145). -/
structure Frag where
  ipVer : Nat
  src : Nat
  dst : Nat
  proto : Nat
  ident : Nat
  sport : Nat
  dport : Nat
  refreshed : Nat
  deriving DecidableEq, Repr

/-- An Address Table entry (R166); `kind` and `dest` as R149. -/
structure AddrEntry where
  mac : Nat
  domain : Nat
  kind : Nat
  dest : Nat
  static : Bool
  hit : Bool
  age : Nat
  hold : Bool
  learnMs : Nat
  deriving DecidableEq, Repr

/-- What waits for the Learning Engine in its order: a learning request (R171), a host operation (R174), an ager removal
(R173), the removal of a terminal's addresses (R175). -/
inductive LearnItem where
  | learn (domain mac kind dest : Nat)
  | op (code rec : Nat)
  | aged (domain mac : Nat)
  | terminal (g : Nat)
  deriving DecidableEq, Repr

/-- A flush of the Address Table (R174): its selector kind, DOMAIN, and DEST as R162 codes it, its start, its position (the
records below it have been gone over), and the keys (DOMAIN, MAC) learned behind that position, which stay. -/
structure AddrFlush where
  kind : Nat
  domain : Nat
  dest : Nat
  start : Nat
  pos : Nat := 0
  spared : List (Nat × Nat) := []
  deriving DecidableEq, Repr

/-- The Address Table and its engine; `flushes` are the flushes under way, the first of them running (R174); `visited` the
tick of the ager's last visit of a record (R173). -/
structure AddrTable where
  entries : Tab AddrEntry := []
  queue : List LearnItem := []
  victim : Nat := 0
  flushes : List AddrFlush := []
  visited : Tab Nat := []
  deriving DecidableEq, Repr

/-! ### The Shared Buffer -/

/-- A descriptor (R179); `edit` is the ACTION edit field of a default as it stood at lookup (R151), `stamp`, `sub` and
`rxTime` the tick, the ps after it and the time of receipt of an uplink frame, `oneStep` and `ring` what PTP_TX asks, `sampled` its sampler entry,
`mirror` the session of a copy, `ect` that the parsed IP header carries ECN 0b01 or 0b10 (R191). DEST_KIND 3, which no
classification gives, marks a frame that a standby keeps and has not classified (R275). -/
structure Desc where
  chain : Nat
  length : Nat
  destKind : Nat
  dest : Nat
  domain : Nat
  queue : Nat
  colour : Nat
  meterEn : Bool
  meter : Nat
  entry : Nat
  version : Nat
  hash : Nat
  srcKind : Nat
  srcNum : Nat
  pool : Nat
  copy : Bool
  tagged : Bool
  poison : Bool
  sample : Bool
  markCe : Bool
  ipOff : Nat
  arrival : Nat
  action : Nat
  stamp : Option Nat
  rxTime : Nat
  oneStep : Bool
  ring : Option Nat
  sampled : Option Nat
  mirror : Nat
  ect : Bool
  sub : Nat := 0
  indication : Option Nat := none
  deriving DecidableEq, Repr

/-- A cell chain: its cells in order, its references, its frame bytes without FCS. -/
structure Chain where
  cells : List Nat
  refs : Nat
  bytes : Bytes
  pool : Nat
  deriving DecidableEq, Repr

/-- The free ring of one bank (R186), oldest first: the bank's cells numbered `fresh` and above but for those of `skip`
(in use when the ring was built), then the returned ones of `back`. -/
structure Ring where
  fresh : Nat := 0
  skip : List Nat := []
  back : List Nat := []
  deriving DecidableEq, Repr

/-- The Shared Buffer. Queues are numbered as QUEUE_CFG numbers its records (R199); each holds descriptors, head
first. `avg` is the average depth of R191; `badReads` how many of the next frame writes meet a bad address or number in a free
store (R187). -/
structure Buffer where
  rings : Tab Ring := []
  taken : List Nat := []
  nextBank : Nat := 0
  chains : Tab Chain := []
  descs : Tab Desc := []
  queues : Tab (List Nat) := []
  avg : Tab Rat := []
  badReads : Nat := 0
  noted : List Nat := []
  copies : Nat := 0
  deriving DecidableEq, Repr

/-- A frame that waits for a search pipe (R136, R137): its source kind and number, port index, bytes without FCS,
LENGTH, tick and time of the first byte, tick of readiness; `sub` how many ps after its tick an uplink frame was stamped (R230). -/
structure Waiting where
  srcKind : Nat
  srcNum : Nat
  encPort : Nat
  bytes : Bytes
  length : Nat
  stamp : Nat
  rxTime : Nat
  at_ : Nat
  sub : Nat := 0
  deriving DecidableEq, Repr

/-! ### Scheduling -/

/-- A token bucket (R205): tokens in units of 1/9,953,280 byte, so that RATE_KBPS units accrue a tick. -/
structure Bucket where
  tokens : Int
  tick : Nat
  deriving DecidableEq, Repr

/-- A meter's two buckets, in the units of `Bucket` (R208). -/
structure Meter where
  c : Int
  p : Int
  tick : Nat
  deriving DecidableEq, Repr

/-- A queue's live statistics (R214, R219); `lastTick` is the tick of the last send with the largest delay sent in it. -/
structure QStat where
  peak : Nat := 0
  delayLast : Nat := 0
  delayMax : Nat := 0
  lastTick : Option (Nat × Nat) := none
  isolation : Nat := 0
  deriving DecidableEq, Repr

/-- The Egress Scheduler and the Meter Bank. Buckets are keyed: queue q at q, terminal CIR at 1,000,000 + g, terminal
PIR at 2,000,000 + g, tree at 3,000,000 + t, port at 3,001,000 + p, host at 3,002,000. `permitBad` are the queues whose next isolation check
meets a double-bit error in its permit-set word (R212); `taken` the tick and port of the last uplink frame a search pipe
took (R210). -/
structure Sched where
  buckets : Tab Bucket := []
  deficits : Tab Int := []
  termDeficits : Tab Int := []
  lastCir : Tab Nat := []
  lastTerm : Tab Nat := []
  lastQueue : Tab Nat := []
  meters : Tab Meter := []
  counts : Tab (Nat × Nat × Nat) := []
  stats : Tab QStat := []
  permitBad : List Nat := []
  taken : Option (Nat × Nat) := none
  deriving DecidableEq, Repr

/-! ### Ports, lanes, time -/

/-- The transmit path of an uplink port while it owns a frame (R184): the frame's descriptor, the tick its send ends, its
sampler entry, and whether its data read badly, so that it ends with an inverted FCS (R188). -/
structure Sending where
  desc : Nat
  ends : Nat
  sampled : Option Nat
  inverted : Bool := false
  deriving DecidableEq, Repr

/-- The working state of an uplink port. `resumedAt` is the tick at which its last hold ended with the link back (R215); `lost`
the LAG_BUCKETS records it held when it went down, less those the host has written since (R198). `countedTo` and `pauseRest`
are the tick up to which PAUSED_US counts the pause under way and the part of a us left over, in 1/100 tick (R259); `negotiated`
the pause, received and sent, that auto-negotiation resolved, once it is complete; `triedAt` and `capAt` the ticks of the last
negotiation and of the last capability frame (R249, R250). -/
structure Port where
  store : List Waiting := []
  pausedAt : Option Nat := none
  pauseUntil : Nat := 0
  countedTo : Nat := 0
  pauseRest : Nat := 0
  lastPauseRx : Nat := 0
  stormed : Bool := false
  pauseSent : Bool := false
  pauseSentAt : Nat := 0
  hold : Option (Nat × Nat) := none
  sending : Option Sending := none
  resumedAt : Option Nat := none
  lost : List Nat := []
  upAt : Nat := 0
  revertAt : Option Nat := none
  partnerCap : Bool := false
  negotiated : Option (Bool × Bool) := none
  triedAt : Nat := 0
  capAt : Option Nat := none
  retryAt : Nat := 0
  deriving DecidableEq, Repr

/-- The working state of a lane; `done` tells that its own part of its stage is done (R249); `precodeTx` and `precodeRx` that its
transmitter precodes, and that it has requested precoding (R243). -/
structure Lane where
  done : Bool := false
  precodeTx : Bool := false
  precodeRx : Bool := false
  calibrated : Bool := false
  calibrating : Bool := false
  stageAt : Nat := 0
  idle : Bool := false
  exitAt : Option Nat := none
  degraded : Bool := false
  scanning : Bool := false
  deriving DecidableEq, Repr

/-- The Gnomon's working state (R224-R239): phase left to slew (R327), pending changes, last write of the servo, PPS_OUT high
until, last stamped PPS_IN edge, end of a squelch. -/
structure Gnomon where
  residual : Int := 0
  rate : Option (Nat × Nat) := none
  step : Option (Nat × Nat × Nat) := none
  servoAt : Nat := 0
  ppsHighUntil : Nat := 0
  ppsInLast : Option Nat := none
  rclkUntil : Option Nat := none
  deriving DecidableEq, Repr

/-! ### Redundancy -/

/-- The redundancy function (R264-R280). `accepted` holds, for each salt, one above the last counter accepted (R131); `sentAt` the tick of the last
frame sent on the mate link (R254);
`kept` the overheard frames kept, each with its descriptor (R275);
`unacked` the durable records not acknowledged, with the tick they were made; `takeSfc` an accepted relinquish;
`relinquishing` the TAKE_SFC of one sent; `firstFrame` the frame K of a take-over; `deltas` and `delays` the last 64 measurements of the
tick difference and of the link delay in 1/256 tick, and `deltaRef` the difference at the entry to following (R240); `lastBeat` the superframe
count and transmit tick of the last lane heartbeat; `held` the frame that PRESYNC holds (R51); `partsOf`, `parts` and
`lastPart` the mirror set being received, `arrived` the records of the last whole one still to be applied and `wholeAt` its tick,
`resyncAt` and `resynced` the start of a standby's resync and whether it has applied a record since, `ackHeard` the last DSEQ_ACK
that an active unit heard and `streamDue` that it owes its standby the stream of a resync (R269), and `gaps` the frames with a mirror gap (R268); `peerActive` ACTIVE_SINCE and UNIT_ID of a peer heard active, and the
superframe count then (R279); `bothSilent` since when both paths are silent, and the trees that had a terminal in
OPERATION then (R278). -/
structure Mate where
  mateNext : Nat := 0
  joiningAt : Option Nat := none
  heardRole0 : Bool := false
  heardRole1 : Bool := false
  lanesAt : Option Nat := none
  pinsAt : Option Nat := none
  accepted : Tab Nat := []
  hbSeq : Nat := 0
  seqTx : Nat := 0
  sentAt : Nat := 0
  seqRx : Option Nat := none
  activeSince : Nat := 0
  unacked : List (Nat × MirrorRecord) := []
  takeSfc : Option (Nat × Path) := none
  relinquishing : Option Nat := none
  relinquishFault : Bool := false
  relinquishMaster : Option Master := none
  refuseHeard : Bool := false
  drainUntil : Option Nat := none
  keeping : Bool := false
  kept : List (Nat × Waiting) := []
  tookOverAt : Option Nat := none
  firstFrame : Option Nat := none
  unplacedAt : Option Nat := none
  deltas : List Int := []
  delays : List Int := []
  deltaRef : Option Int := none
  aligned : Bool := false
  lastBeat : Option (Nat × Nat) := none
  peerActive : Option (Nat × Nat × Nat) := none
  bothSilent : Option (Nat × List Nat) := none
  partsOf : Nat := 0
  parts : List (Nat × Bytes) := []
  arrived : List MirrorRecord := []
  wholeAt : Nat := 0
  resyncAt : Nat := 0
  resynced : Bool := false
  ackHeard : Option Nat := none
  streamDue : Bool := false
  lastPart : Option Nat := none
  gaps : List Nat := []
  aisBit : Option Bool := none
  rdiBit : Option Bool := none
  aisRun : Nat := 0
  noAisRun : Nat := 0
  rdiRun : Nat := 0
  noRdiRun : Nat := 0
  hunt : Bool := true
  huntSince : Nat := 0
  held : Option MateFrameIn := none
  lastBad : Bool := false
  losSet : Option Timed := none
  losClr : Option Timed := none
  pm : Pm := {}
  capability : Bool := false
  retryAt : Nat := 0
  deriving DecidableEq, Repr

/-! ### Faults -/

/-- A capture record (R287), with the time of its tick, as the clock model then in force tells it (R221, R288). -/
structure Capture where
  source : Nat
  master : Nat
  access : Nat
  session : Nat
  detail : Nat
  index : Nat
  aux : Nat
  tick : Nat
  count : Nat
  time : Nat
  deriving DecidableEq, Repr

/-- The state of one fault source (R285). `level` is LEVEL_NOW of FAULT_STATUS; `broken` that its wire to its collector is broken,
`cutOff` that the bridge fault wire which stands for it is (R286). -/
structure Source where
  sticky : Bool := false
  severity : Nat := 0
  level : Bool := false
  broken : Bool := false
  cutOff : Bool := false
  capture : Option Capture := none
  deriving DecidableEq, Repr

/-- The first-fault record (R288). -/
structure FirstFault where
  capture : Capture
  severity : Nat
  refilled : Bool
  sameCycle : Nat
  deriving DecidableEq, Repr

/-- The Fault Collectors (R282-R291). `arriving` are occurrences captured at their sources, with the capture tick and
the severity held there, that the collector has not yet taken. `shut` are the elements shut: tree t as t, quad q as
32 + q, tree die d as 40 + d, port p as 50 + p, the mate link as 66. `device` is DEVICE_ACTION. -/
structure Faults where
  arriving : List (Nat × Nat × Occurrence) := []
  sources : Tab Source := []
  first : Option FirstFault := none
  overflow : Nat := 0
  shut : List Nat := []
  device : Nat := 0
  deriving DecidableEq, Repr

/-! ### Management, counters, chip -/

/-- A Swijan session's hidden state (R308-R310): its issued nonce, opening tick, last request tick, stored response. -/
structure Session where
  nonce : Nat := 0
  openedAt : Nat := 0
  lastAt : Nat := 0
  stored : Bytes := []
  snapView : Bool := false
  deriving DecidableEq, Repr

/-- A long operation in progress (R314): code, start, maximum duration in ticks, argument. -/
structure LongOp where
  code : Nat
  start : Nat
  maxTicks : Nat
  arg : Nat
  deriving DecidableEq, Repr

/-- Window locks (R160): window index and instance, holder, tick of taking or renewal. -/
structure Lock where
  index : Nat
  inst : Nat
  holder : Master
  at_ : Nat
  deriving DecidableEq, Repr

/-- A response held until a relinquish is decided (R276): the reply's route, its session (none on the Dictionary Serial
Port), the management key it is sealed under (index, key), the response commands before the deferred one, that command's
header, and those after it. -/
structure Held where
  arrival : RxPort
  dest : Nat
  tags : Bytes
  session : Option Nat
  key : Option (Nat × Nat)
  seq : Nat
  before : List (Bytes × Resp)
  header : Bytes
  after : List (Bytes × Resp)
  deriving DecidableEq, Repr

/-- The Dictionary Engine (R300-R316). `dspReady` and `dspResponse` are what a FETCH reads; `keyChanged` are the management
keys written and not yet in effect (R312); `mgmtNext` and `loadNext` the nonce counters (R129); `commitReady` the tick at which step 1 of the
running commit ended (R154); `gcmWaiting` the blocks of the GCM jobs that find no open bank (R114); `inband` the in-band requests
that wait, as descriptors, and `rxWaiting` those of the management port. -/
structure Mgmt where
  sessions : Tab Session := []
  leaseAt : Nat := 0
  locks : List Lock := []
  longOp : Option LongOp := none
  waitingOps : List LongOp := []
  dspSeq : Nat := 0
  dspReady : Nat := 0x0F
  dspResponse : Bytes := []
  keyChanged : List Nat := []
  loadRecords : Tab Nat := []
  mgmtNext : Tab Nat := []
  loadNext : Nat := 0
  commitReady : Option Nat := none
  gcmBank : Nat := 0
  gcmWaiting : List Nat := []
  inband : List Nat := []
  rxWaiting : Nat := 0
  dspSnapView : Bool := false
  held : Option Held := none
  deriving DecidableEq, Repr

/-- A latched snapshot (R295): its groups, the registers, queue statistics, meter counts and queue depths as they were. -/
structure Snapshot where
  mask : Nat := 0
  regs : Tab Nat := []
  stats : Tab QStat := []
  counts : Tab (Nat × Nat × Nat) := []
  depths : Tab Nat := []
  deriving DecidableEq, Repr

/-- A frame followed by the Latency Sampler (R297, R298). -/
structure Followed where
  id : Nat
  seq : Nat
  hash : Nat
  domain : Nat
  source : Nat
  dest : Nat
  length : Nat
  marks : Nat
  entry : Nat
  desc : Nat
  t0 : Nat
  cipher : Nat
  classified : Nat
  written : Nat
  dequeued : Nat
  outFirst : Nat
  outLast : Nat
  deriving DecidableEq, Repr

/-- The Latency Sampler. -/
structure Sampler where
  eligible : Nat := 0
  nextSeq : Nat := 0
  nextId : Nat := 0
  followed : List Followed := []
  ring : Tab Nat := []
  deriving DecidableEq, Repr

/-- Where the device stands in start-up and reset (R338-R341). -/
inductive Phase where
  | porst | starting | up | warm
  deriving DecidableEq, Repr

/-- Clocks, power, resets and pins. `refGood` are the inputs that are good, `holdoverAt` since when the root PLL holds
over, `lockedRef` the reference it was locked to last; `dieReset` the dies in reset; `pendingReset` a warm reset (0) or a reset
of die k (k + 1) that waits for a relinquish; `domainOnWait` the power domains whose switch-on waits for a reset's end; `railsRead` the rails that have been measured (R334). FAULT_L and ALERT_L are the asserted states of the pins. -/
structure Chip where
  phase : Phase := .porst
  refGoodA : Bool := false
  refGoodB : Bool := false
  holdoverAt : Option Nat := none
  lockedRef : Nat := 0
  dieReset : List Nat := []
  faultL : Bool := false
  alertL : Bool := false
  pendingReset : Option Nat := none
  domainOnWait : List Nat := []
  railsRead : List Nat := []
  deriving DecidableEq, Repr

/-- The device less its clock and its command queue. `swept` is the tick of the last background compare of a block, as an instance
of SIGNATURE (R176); `pmSecond` is the performance second that runs, `pmEnds` the superframe
counts at which the ended ones that wait for commit ended (R57, R58). -/
structure Dev where
  regs : Tab Nat := []
  wins : Tab Nat := []
  active : Tables := {}
  staging : Tables := {}
  older : List (Nat × Tables) := []
  trees : Tab Tree := []
  terms : Tab Term := []
  allocs : Tab Alloc := []
  osps : Tab Osp := []
  slots : Tab Slot := []
  banks : Tab Bank := []
  quads : Tab Quad := []
  frags : List Frag := []
  addr : AddrTable := {}
  swept : Tab Nat := []
  buf : Buffer := {}
  treeWaiting : List Waiting := []
  sched : Sched := {}
  ports : Tab Port := []
  lanes : Tab Lane := []
  gnomon : Gnomon := {}
  mate : Mate := {}
  faults : Faults := {}
  mgmt : Mgmt := {}
  snap : Snapshot := {}
  sampler : Sampler := {}
  chip : Chip := {}
  pmEnds : List Nat := []
  pmSecond : Nat := 0
  wire : List Emission := []
  free : Nat := 0
  deriving DecidableEq, Repr

/-- The machine: the Gnomon's tick counter (R220), the commands that wait, first in first out, and the device. -/
structure State where
  now : Nat
  pending : List Instr
  dev : Dev
  deriving DecidableEq, Repr

/-- The tables after power-on reset: every rule, prefix and domain at its default (of a rule, VALID 0 and VERDICT drop, R149), and the
default graph (R142). -/
def Tables.initial : Tables := { nodes := defaultNodes, transitions := defaultTransitions }

/-- The device after power-on reset: PORST_L asserted, every register, record and timer at its default (R7, R338),
both the active tables and staging holding the default graph (R142), nothing sent. -/
def Dev.initial : Dev := { active := Tables.initial, staging := Tables.initial }

/-- The machine right after reset (R7, R220, R338). PORST_L_RELEASE and DICTIONARY_READY bring it up. -/
def State.reset : State := { now := 0, pending := [], dev := Dev.initial }

end Sys2Proof.Machine
end

