-- ==== Sys2Proof/Machine/Operands.lean ====
section
/-!
DEFINITION. The operand forms of the commands: the device's numbering (R14), the operands that name an element of it, and
the tick every command carries.
-/
namespace Sys2Proof.Machine
open Sys2Proof

/-! ### Numbering (R14) -/

def quadOf (t : Nat) : Nat := t / 4
def dieOf (t : Nat) : Nat := t / 16
def treeOfTerm (g : Nat) : Nat := g / 512
def treeOfAlloc (a : Nat) : Nat := a / 2048
def treesOfQuad (q : Nat) : List Nat := [4 * q, 4 * q + 1, 4 * q + 2, 4 * q + 3]
def treesOfDie (e : Nat) : List Nat := (List.range 16).map (e * 16 + ·)
def quadsOfDie (e : Nat) : List Nat := (List.range 4).map (e * 4 + ·)
def allTrees : List Nat := List.range 32
def allPorts : List Nat := List.range 16

/-- The terminal indices of a tree (global), ascending. -/
def termsOfTree (t : Nat) : List Nat := (List.range 512).map (t * 512 + ·)

/-- A command of an element `x` below `bound`; any other names no element of the device (R14). -/
def onElement (x bound : Nat) (s : State) (k : State → State) : Host.Outcome State Fault Refusal :=
  if x < bound then .next (k s) else .fault .noSuchElement

/-- A command at tick `n`: the counter reads at least `n`, and the device changes by `f`, which is told the tick. -/
def State.at_ (s : State) (n : Nat) (f : Nat → Dev → Dev) : State :=
  { s with now := max s.now n, dev := f (max s.now n) s.dev }

/-- A session number of the device, or the serial port. -/
def masterExists : Master → Bool
  | .session k => decide (1 ≤ k) && decide (k ≤ 16)
  | .serial => true

/-- A command of session `k`, 1 to 16. -/
def onSession (k : Nat) (s : State) (f : State → State) : Host.Outcome State Fault Refusal :=
  if 1 ≤ k ∧ k ≤ 16 then .next (f s) else .fault .noSuchElement

/-- The numbers of an egress exist. -/
def egressExists : Egress → Bool
  | .tree t => t < 32
  | .port p => p < 16
  | .host => true

/-- The part of a reset is one of the device's. -/
def resetPartExists : ResetScope → Bool
  | .warm => true
  | .die e => decide (e < 3)
  | .quad q => decide (q < 8)
  | .tree t => decide (t < 32)
  | .restart t => decide (t < 32)

end Sys2Proof.Machine
end

