-- ==== Sys2Proof/Machine/Ops.lean ====
section
/-!
DEFINITION. The named operations over the device: registers, tables, rates and profiles, and what leaves the device.
-/
namespace Sys2Proof.Machine
open Sys2Proof

/-! ### Registers -/

/-- The key of instance `i` of a register in `Dev.regs`; there are fewer than 1,024 registers. -/
def regKey (r : Reg) (i : Nat) : Nat := i * 1024 + r.ctorIdx

/-- One above the largest value a register holds: counters hold 64 bits (R292), every other its size (R300). -/
def Reg.modulus (r : Reg) : Nat := if r.row.flags.counter then 2 ^ 64 else 256 ^ r.size

/-- The value instance `i` of a register holds. -/
def Dev.rd (d : Dev) (r : Reg) (i : Nat) : Nat := Tab.get (r.dflt i) d.regs (regKey r i)

/-- Writing a register, within its width. -/
def Dev.wr (d : Dev) (r : Reg) (i v : Nat) : Dev :=
  { d with regs := Tab.set (r.dflt i) d.regs (regKey r i) (v % r.modulus) }

/-- Counting: a register advanced by `k` (R292). -/
def Dev.add (d : Dev) (r : Reg) (i k : Nat) : Dev := d.wr r i (d.rd r i + k)

/-- Counting one. -/
def Dev.bump (d : Dev) (r : Reg) (i : Nat) : Dev := d.add r i 1

/-- A BOOL register. -/
def Dev.on (d : Dev) (r : Reg) (i : Nat) : Bool := d.rd r i % 2 == 1

/-- A register read as a signed number (S32). -/
def Dev.rdS (d : Dev) (r : Reg) (i : Nat) : Int := toSigned 32 (d.rd r i)

/-- A signed register written (S32). -/
def Dev.wrS (d : Dev) (r : Reg) (i : Nat) (v : Int) : Dev := d.wr r i (ofSigned 32 v)

/-- The instances of a register that hold something else than its default. -/
def Dev.instances (d : Dev) (r : Reg) : List Nat :=
  d.regs.filterMap fun p => if p.1 % 1024 = r.ctorIdx then some (p.1 / 1024) else none

/-! ### Tables of working state -/

def Dev.tree (d : Dev) (t : Nat) : Tree := Tab.get {} d.trees t
def Dev.term (d : Dev) (g : Nat) : Term := Tab.get {} d.terms g
def Dev.alloc (d : Dev) (a : Nat) : Alloc := Tab.get {} d.allocs a
def Dev.slot (d : Dev) (s : Nat) : Slot := Tab.get {} d.slots s
def Dev.bank (d : Dev) (q : Nat) : Bank := Tab.get {} d.banks q
def Dev.quad (d : Dev) (q : Nat) : Quad := Tab.get {} d.quads q
def Dev.port (d : Dev) (p : Nat) : Port := Tab.get {} d.ports p
def Dev.lane (d : Dev) (l : Nat) : Lane := Tab.get {} d.lanes l
def Dev.source (d : Dev) (s : Nat) : Source := Tab.get {} d.faults.sources s

def Dev.modTree (d : Dev) (t : Nat) (f : Tree → Tree) : Dev :=
  { d with trees := Tab.set {} d.trees t (f (d.tree t)) }
def Dev.modTerm (d : Dev) (g : Nat) (f : Term → Term) : Dev :=
  { d with terms := Tab.set {} d.terms g (f (d.term g)) }
def Dev.modAlloc (d : Dev) (a : Nat) (f : Alloc → Alloc) : Dev :=
  { d with allocs := Tab.set {} d.allocs a (f (d.alloc a)) }
def Dev.modSlot (d : Dev) (s : Nat) (f : Slot → Slot) : Dev :=
  { d with slots := Tab.set {} d.slots s (f (d.slot s)) }
def Dev.modBank (d : Dev) (q : Nat) (f : Bank → Bank) : Dev :=
  { d with banks := Tab.set {} d.banks q (f (d.bank q)) }
def Dev.modQuad (d : Dev) (q : Nat) (f : Quad → Quad) : Dev :=
  { d with quads := Tab.set {} d.quads q (f (d.quad q)) }
def Dev.modPort (d : Dev) (p : Nat) (f : Port → Port) : Dev :=
  { d with ports := Tab.set {} d.ports p (f (d.port p)) }
def Dev.modLane (d : Dev) (l : Nat) (f : Lane → Lane) : Dev :=
  { d with lanes := Tab.set {} d.lanes l (f (d.lane l)) }
def Dev.modSource (d : Dev) (s : Nat) (f : Source → Source) : Dev :=
  { d with faults := { d.faults with sources := Tab.set {} d.faults.sources s (f (d.source s)) } }

/-- Applying a step to each member of a list, in order. -/
def Dev.each {α : Type} (d : Dev) (l : List α) (f : Dev → α → Dev) : Dev := l.foldl f d

/-- A step taken only under a condition. -/
def Dev.when (d : Dev) (c : Bool) (f : Dev → Dev) : Dev := if c then f d else d

/-- Sending something to the outside. -/
def Dev.emit (d : Dev) (e : Emission) : Dev := { d with wire := d.wire ++ [e] }

/-- Drawing a value the manual leaves open (DESIGN CHOICE, log row 3). -/
def Dev.draw (d : Dev) : Nat × Dev := (Config.freeValue d.free, { d with free := d.free + 1 })

/-- Drawing from the noise source (R129, R191; DESIGN CHOICE, log row 2). -/
def Dev.drawNoise (d : Dev) : Nat × Dev := (Config.noise d.free, { d with free := d.free + 1 })

/-! ### Relations between elements -/

/-- The bridge of a tree's die is locked (R11). -/
def Dev.bridgeUp (d : Dev) (t : Nat) : Bool := d.rd (if dieOf t = 0 then .bridgeAState else .bridgeBState) 0 == 2

/-- The global terminal of an allocation: the index ALLOC_TERMINAL names on the allocation's tree (R87). -/
def Dev.allocTerm (d : Dev) (a : Nat) : Nat := treeOfAlloc a * 512 + d.rd .allocTerminal a

/-! ### Profiles and rates -/

/-- The profile a quad runs under (R31, R33): the former one until step 3 of a change. -/
def Dev.profile (d : Dev) (q : Nat) : Nat :=
  if (d.quad q).change = 1 ∨ (d.quad q).change = 2 then (d.quad q).formerProfile else d.rd .quadProfile q

def Dev.treeProfile (d : Dev) (t : Nat) : Nat := d.profile (quadOf t)

/-- LATENCY quads use sub-maps (R26, R32). -/
def Dev.latency (d : Dev) (t : Nat) : Bool := d.treeProfile t == 1

/-- The upstream rate code a profile gives a tree whose LINE_MODE is `mode` (R32, R35): 0 49.7664, 1 24.8832,
2 12.4416, 3 9.95328 (XGS coexistence). -/
def adaptRate (profile mode : Nat) : Nat :=
  match profile with
  | 0 => mode
  | 1 => if mode = 0 then 0 else 1
  | 2 => if mode ≤ 1 then 1 else 2
  | _ => 2

def Dev.upRate (d : Dev) (t : Nat) : Nat := adaptRate (d.treeProfile t) (d.rd .lineMode t)

/-- Upstream bits a second of a rate code (R39). -/
def rateBps (r : Nat) : Nat :=
  match r with
  | 0 => 49766400000
  | 1 => 24883200000
  | 2 => 12441600000
  | _ => 9953280000

/-- The frequency of clock domain `c` now, in kHz, truncated: its PLL's ratio at the tree's rates, the quad's profile and OSP_RATE
(R329). -/
def Dev.domainKhzNow (d : Dev) (c : Nat) : Nat :=
  if c < 32 then (if d.upRate c = 3 then 155520 else 777600)
  else if c < 64 then [777600, 388800, 194400, 155520].getD (d.upRate (c - 32)) 777600
  else if c < 72 then (if d.profile (c - 64) = 3 then 622080 else 1244160)
  else if c < 102 then nominalKhz c
  else [100000, 200000, 400000].getD (d.rd .ospRate (c - 102)) 400000

/-- The clock domains that PLL `k` makes (R329); the lanes' receive domains follow their partners. -/
def pllDomains (k : Nat) : List Nat :=
  if k < 8 then treesOfQuad k ++ (treesOfQuad k).map (32 + ·) ++ [64 + k]
  else match k with
    | 8 => [72]
    | 9 => [73]
    | 10 => [74, 75, 100, 101]
    | _ => [96, 97, 98, 99, 102, 103]

/-- A PLL and its domains lock (1) or stop (0). -/
def Dev.setPll (d : Dev) (k v : Nat) : Dev := (d.wr .pllLocked k v).each (pllDomains k) fun d c => d.wr .domainLocked c v

/-- Line bytes of a map period (the table of 05_grants.md before R93). -/
def lineBytes (rate : Nat) (latency : Bool) : Nat := rateBps rate / (if latency then 512000 else 64000)

/-- The upstream rates a profile allows (R32). -/
def rateAllowed (profile rate : Nat) : Bool :=
  match profile with
  | 0 => true
  | 1 => rate == 0 || rate == 1
  | 2 => rate == 1 || rate == 2
  | _ => rate == 2

/-- Whether the quad profile allows an entry's rate and FEC (R32, R50, R80): REACH has FEC on for every burst; code 3
belongs to a tree in XGS coexistence alone. -/
def Dev.entryAllowed (d : Dev) (t e : Nat) : Bool :=
  let r := d.rd .bpRate (4 * t + e)
  rateAllowed (d.treeProfile t) r && (r != 3 || d.upRate t == 3) && (d.treeProfile t != 2 || d.on .bpFec (4 * t + e))

/-- An entry that the Grant Engine may assign (R50): valid, announced, allowed. -/
def Dev.entryUsable (d : Dev) (t e : Nat) : Bool :=
  d.on .bpValid (4 * t + e) && d.entryAllowed t e && (d.tree t).announced.contains e

/-- The number of terminal indices a profile activates on a tree (R32). -/
def activatedIndices (profile : Nat) : Nat := if profile = 1 then 128 else 512

/-- A tree's terminals in a state. -/
def Dev.inState (d : Dev) (g st : Nat) : Bool := d.rd .termState g == st

/-- Ticks of a frame and of a LATENCY sub-period (R17, R26). -/
def frameTicks : Nat := 155520
def subTicks : Nat := 19440

/-- The start tick of the period a map point lies in. -/
def Dev.pointStart (d : Dev) (p : MapPoint) : Nat :=
  d.rd .frameTick 0 + (match p with | .frame => 0 | .sub k => k * subTicks)

/-- Picoseconds as ticks, whole ticks: a tick is 10^12 / 1,244,160,000 ps. -/
def psToTicks (ps : Nat) : Nat := ps * 124416 / 100000000

/-- Ticks as picoseconds, truncated. -/
def ticksToPs (c : Nat) : Nat := c * 100000000 / 124416

/-! ### PLOAM queues (R42) -/

/-- The Ranging Engine hands over a message. -/
def Dev.rangeMsg (d : Dev) (t : Nat) (m : Ploam) : Dev :=
  d.modTree t fun x => { x with ranging := x.ranging ++ [m] }

/-- The Activation Sequencer or the Quarry hands over a message. -/
def Dev.seqMsg (d : Dev) (t : Nat) (m : Ploam) : Dev :=
  d.modTree t fun x => { x with sequencer := x.sequencer ++ [m] }

end Sys2Proof.Machine
end

