-- ==== Sys2Proof/Machine/Clock.lean ====
section
/-!
DEFINITION. The clock model of the Gnomon (R220-R228): times of ticks, rebases and steps.
-/
namespace Sys2Proof.Machine
open Sys2Proof

/-- A time of R223 in units of 2^-16 ns since the epoch. -/
def timeUnits (w : Nat) : Nat := (w / 2 ^ 48 * 1000000000 + w / 2 ^ 16 % 2 ^ 32) * 65536 + w % 65536

/-- The 96-bit time of a number of units of 2^-16 ns, of 2^48 seconds. -/
def unitsTime (u : Nat) : Nat :=
  u / 65536 / 1000000000 % 2 ^ 48 * 2 ^ 48 + u / 65536 % 1000000000 * 65536 + u % 65536

/-- A clock model: OFFSET in units of 2^-16 ns, BASE_TICK, INC in units of 2^-40 ns a tick (R221). -/
structure ClockModel where
  offset : Nat
  base : Nat
  inc : Nat
  deriving DecidableEq, Repr

/-- Times run modulo 2^48 seconds, the range of the format (R223), in units of 2^-16 ns. -/
def timeModulus : Nat := 2 ^ 48 * 1000000000 * 65536

/-- `a` less `b`, on the circle of times. -/
def timeLess (a b : Nat) : Nat := (a % timeModulus + (timeModulus - b % timeModulus)) % timeModulus

/-- T(c), the product truncated to 16 fraction bits; before BASE_TICK it runs back likewise (R221). -/
def ClockModel.time (m : ClockModel) (c : Nat) : Nat :=
  if m.base ≤ c then (m.offset + (c - m.base) * m.inc / 2 ^ 24) % timeModulus
  else timeLess m.offset ((m.base - c) * m.inc / 2 ^ 24)

/-- The model in force. -/
def Dev.clock (d : Dev) : ClockModel := ⟨timeUnits (d.rd .clockModelOffset 0), d.rd .baseTick 0, d.rd .clkInc 0⟩

def Dev.setClock (d : Dev) (m : ClockModel) : Dev :=
  ((d.wr .clockModelOffset 0 (unitsTime m.offset)).wr .baseTick 0 m.base).wr .clkInc 0 m.inc

/-- The rebase of R224 at tick `c`. -/
def ClockModel.rebase (m : ClockModel) (c inc : Nat) : ClockModel := ⟨m.time c, c, inc⟩

/-- The step of R225 at tick `c`: modes 0 add, 1 subtract, 2 set. A subtraction of more than OFFSET leaves OFFSET on the circle of
times, so that T is less by VALUE (log row 111). -/
def ClockModel.step (m : ClockModel) (mode value c : Nat) : ClockModel :=
  match mode with
  | 0 => { m with offset := (m.offset + value) % timeModulus }
  | 1 => { m with offset := timeLess m.offset value }
  | _ => ⟨value, c, m.inc⟩

/-- The model that will hold at tick `c` with the changes now pending (R227, R234): at one tick the rate first. -/
def Dev.clockAhead (d : Dev) (c : Nat) : ClockModel :=
  let rate : ClockModel → ClockModel := fun m => match d.gnomon.rate with
    | some (inc, at_) => if at_ ≤ c then m.rebase at_ inc else m
    | none => m
  let step : ClockModel → ClockModel := fun m => match d.gnomon.step with
    | some (mode, value, at_) => if at_ ≤ c then m.step mode (timeUnits value) at_ else m
    | none => m
  match d.gnomon.rate, d.gnomon.step with
  | some (_, a), some (_, _, b) => if b < a then rate (step d.clock) else step (rate d.clock)
  | _, _ => step (rate d.clock)

/-- The time at tick `c` as the device tells it (R221): at a change tick the new model holds (R227). -/
def Dev.timeAt (d : Dev) (c : Nat) : Nat := unitsTime ((d.clockAhead c).time c)

/-- A correction in ps in units of 2^-16 ns. -/
def psUnits (ps : Int) : Int := ps * 65536 / 1000

/-- The time of a stamp at tick `c`, moved later by `ps` (R230). -/
def Dev.stampTime (d : Dev) (c : Nat) (ps : Int) : Nat := unitsTime ((((d.clockAhead c).time c : Int) + psUnits ps) % timeModulus).toNat

/-- The ps after its tick that a stamp resolves, in steps of 10 ps (R230). -/
def stampPs (ps : Nat) : Nat := ps / 10 * 10

/-- PENDING (R227). -/
def Dev.pendingBits (d : Dev) : Nat :=
  ofBool d.gnomon.rate.isSome + 2 * ofBool d.gnomon.step.isSome

end Sys2Proof.Machine
end

