-- ==== Sys2Proof/Machine/Flags.lean ====
section
/-!
DEFINITION. The flags a condition sets: severities, level conditions, and the capture of an occurrence at its source
(R282, R283, R285, R291), which the collector then takes.
-/
namespace Sys2Proof.Machine
open Sys2Proof

/-! ### Raising faults at their source -/

/-- The severity a source holds (R282, R299): FAULT_SEVERITY's record, by default that of R282. -/
def defaultSeverity (s : Nat) : Nat :=
  if s < 256 then 1
  else if s < 288 then (if (s - 256) % 4 = 2 then 2 else 1)
  else if s < 304 then
    (match (s - 288) % 8 with | 0 => 3 | 2 => 2 | 4 => 2 | 5 => 2 | 6 => 2 | _ => 1)
  else if s < 388 then 1
  else match s with
    | 393 => 2 | 396 => 2 | 397 => 2 | 401 => 0
    | 419 => 0 | 424 => 0 | 427 => 2 | 428 => 2 | 429 => 2 | 430 => 2 | 431 => 2 | 432 => 2 | 433 => 2 | 434 => 2
    | 436 => 3 | 437 => 2 | 441 => 0 | 443 => 0 | 444 => 2 | 445 => 2 | 447 => 0
    | _ => 1

/-- Whether a source is level or event (R282). -/
def isLevel (s : Nat) : Bool :=
  if s < 256 then s % 8 ≤ 3 || s % 8 == 6
  else if s < 288 then (s - 256) % 4 == 2 || (s - 256) % 4 == 3
  else if s < 304 then [0, 2, 4, 5, 6, 7].contains ((s - 288) % 8)
  else if s < 368 then (s - 304) % 4 ≤ 2
  else if s < 388 then true
  else [388, 389, 390, 391, 393, 394, 395, 396, 398, 399, 421, 422, 423, 425, 426, 427, 428, 429, 430, 431, 432, 433,
        434, 435, 436, 437, 438, 444, 445].contains s

/-- Window codes for `Dev.wins`: the record key of window `w` (its index), instance 0, record `r`. -/
def winKey (w r : Nat) : Nat := r * 65536 + w

/-- The record an unwritten window record reads as: PORT_KEY_MODE mode 1 for every port (R125), FAULT_SEVERITY by R282,
QUEUE_SCHED, TERM_SCHED and PERMIT_SETS as R217, R218, R212; else zero. -/
def winDefault (w r : Nat) : Nat :=
  match w with
  | 0x3400 => 0x55
  | 0x3300 => defaultSeverity r
  | 0x3800 => 2 ^ 46 + 1024 * 2
  | 0x3801 => 1024 * 2 ^ 54 + 1024 * 2 ^ 38 + 2 ^ 30
  | 0x3802 => if r = 0 then 2 ^ 4096 - 1 else 0
  | _ => 0

/-- An unversioned window record. -/
def Dev.win (d : Dev) (w r : Nat) : Nat := Tab.get (winDefault w r) d.wins (winKey w r)

/-- Writing an unversioned window record. -/
def Dev.setWin (d : Dev) (w r v : Nat) : Dev :=
  { d with wins := Tab.set (winDefault w r) d.wins (winKey w r) v }

/-- The severity in force of a source. -/
def Dev.severity (d : Dev) (s : Nat) : Nat := d.win 0x3300 s % 4

/-- DISABLE of a source (R291). -/
def Dev.disabled (d : Dev) (s : Nat) : Bool := bitAt (d.win 0x3300 s) 7

/-- A tree is shut by itself, by its quad or by its die (R283). -/
def Dev.treeShut (d : Dev) (t : Nat) : Bool :=
  d.faults.shut.contains t || d.faults.shut.contains (32 + t / 4) || d.faults.shut.contains (40 + t / 16)

def Dev.portShut (d : Dev) (p : Nat) : Bool := d.faults.shut.contains (50 + p)
def Dev.mateShut (d : Dev) : Bool := d.faults.shut.contains 66

/-- The sources not evaluated while a tree is shut (R283): 0-6 of a shut tree. -/
def Dev.unevaluated (d : Dev) (s : Nat) : Bool := s < 256 && s % 8 ≤ 6 && d.treeShut (s / 8)

/-- A source catches an occurrence at tick `n` under severity `sev` (R285, R287, R291): the engine's capture is kept from the
first one after re-arming, with the time of its tick, and counts later ones; OCCURRENCES advances; the collector will take
it. -/
def Dev.raiseAt (d : Dev) (n sev : Nat) (o : Occurrence) : Dev :=
  if d.disabled o.source || d.unevaluated o.source then d
  else
    let cap : Source → Source := fun x =>
      match x.capture with
      | some c => { x with capture := some { c with count := min (c.count + 1) (2 ^ 32 - 1) } }
      | none =>
        { x with capture := some ⟨o.source, o.master, o.access, o.session, o.detail, o.index, o.aux, n, 1, d.timeAt n⟩ }
    let d := (d.modSource o.source cap).bump .occurrences o.source
    { d with faults := { d.faults with arriving := d.faults.arriving ++ [(n, sev, o)] } }

/-- An occurrence under the severity its source holds. -/
def Dev.raise (d : Dev) (n : Nat) (o : Occurrence) : Dev := d.raiseAt n (d.severity o.source) o

/-- A level source's condition holds: where it begins to, LEVEL_NOW is set and the occurrence is raised (R282). -/
def Dev.raiseLevel (d : Dev) (n : Nat) (o : Occurrence) : Dev :=
  if (d.source o.source).level || d.unevaluated o.source then d
  else (d.modSource o.source fun x => { x with level := true }).raise n o

/-- A level source's condition stops holding; a source whose wire is broken stays asserted (R286). -/
def Dev.dropLevel (d : Dev) (s : Nat) : Dev :=
  if (d.source s).level && !(d.source s).broken && !(d.source s).cutOff then d.modSource s fun x => { x with level := false } else d

/-- An event source raised with an index. -/
def Dev.event (d : Dev) (n s index : Nat) : Dev := d.raise n { source := s, index := index }

end Sys2Proof.Machine
end

