-- ==== Sys2Proof/Machine/Delineate.lean ====
section
/-!
DEFINITION. The Delineator (R51, R52): the frames that its HUNT, PRESYNC and SYNC machine takes out of an allocation
interval.
-/
namespace Sys2Proof.Machine
open Sys2Proof

/-- The states of R51; SYNC remembers whether the previous header was good, PRESYNC is decided at once. -/
inductive DelinState where
  | hunt
  | sync (previousGood : Bool)
  deriving DecidableEq, Repr

/-- What an interval yields: the frames taken, each with whether a hunt found it past the interval's first boundary, and
the counts of HEC_CORR, HEC_UNCORR and DELIN_LOSS. -/
structure Delineated where
  frames : List (Candidate × Bool) := []
  corrected : Nat := 0
  uncorrectable : Nat := 0
  losses : Nat := 0
  deriving DecidableEq, Repr

/-- The candidate at boundary `b` that fits. -/
def candAt (cands : List Candidate) (b : Nat) : Option Candidate := cands.find? fun c => c.pos == b

def fitsAt (cands : List Candidate) (b : Nat) : Bool :=
  match candAt cands b with
  | some c => c.check == .fits
  | none => false

/-- A frame taken, or discarded and counted where it runs past the interval's end. -/
def Delineated.take (r : Delineated) (words : Nat) (c : Candidate) (hunted : Bool) : Delineated :=
  if words < c.pos + c.len then { r with uncorrectable := r.uncorrectable + 1 }
  else { r with frames := r.frames ++ [(c, hunted)] }

/-- The machine of R51 from boundary `b` on, over an interval of `words` boundaries. A held frame that runs past the interval's
end is counted, and the interval is left. -/
def delineate (strict : Bool) (words : Nat) (cands : List Candidate) : Nat → Nat → DelinState → Delineated → Delineated
  | 0, _, _, r => r
  | fuel + 1, b, st, r =>
    if words ≤ b then r
    else match st, candAt cands b with
      | .hunt, some c =>
        if c.check = .fits then
          if strict then
            let next := b + max 1 c.len
            if words < next then { r with uncorrectable := r.uncorrectable + 1 }
            else if next = words ∨ fitsAt cands next = true then
              delineate strict words cands fuel next (.sync true) (r.take words c (0 < b))
            else delineate strict words cands fuel (b + 1) .hunt r
          else delineate strict words cands fuel (b + max 1 c.len) (.sync true) (r.take words c (0 < b))
        else delineate strict words cands fuel (b + 1) .hunt r
      | .hunt, none => delineate strict words cands fuel (b + 1) .hunt r
      | .sync good, some c =>
        match c.check with
        | .fits => delineate strict words cands fuel (b + max 1 c.len) (.sync true) (r.take words c false)
        | .corrected =>
          delineate strict words cands fuel (b + max 1 c.len) (.sync true)
            ({ r with corrected := r.corrected + 1 }.take words c false)
        | .uncorrectable =>
          if good then
            delineate strict words cands fuel (b + max 1 c.len) (.sync false)
              { r with uncorrectable := r.uncorrectable + 1 }
          else delineate strict words cands fuel (b + 1) .hunt { r with losses := r.losses + 1 }
      | .sync good, none =>
        if good then
          delineate strict words cands fuel (b + 1) (.sync false) { r with uncorrectable := r.uncorrectable + 1 }
        else delineate strict words cands fuel (b + 1) .hunt { r with losses := r.losses + 1 }

/-- The frames of an interval: the machine begins in HUNT at its first byte. -/
def delineateInterval (i : Interval) (strict : Bool) : Delineated :=
  delineate strict i.words i.cands (i.words + 1) 0 .hunt {}

end Sys2Proof.Machine
end

