-- ==== Sys2Proof/Machine/Crc.lean ====
section
/-!
DEFINITION. The check sums of the manual: CRC-32C (R358), CRC-32 of IEEE 802.3 (R61), CRC-16 (R315), CRC-8 (R271).
-/
namespace Sys2Proof.Machine
open Sys2Proof

/-- Eight steps of a reflected CRC register. -/
def crcReflectedByte (poly : Nat) : Nat → Nat → Nat
  | 0, c => c
  | k + 1, c => crcReflectedByte poly k (if c % 2 = 1 then (c / 2) ^^^ poly else c / 2)

/-- A reflected CRC over bytes, each entering least significant bit first, with no final complement. -/
def crcReflected (poly init : Nat) (bs : Bytes) : Nat :=
  bs.foldl (fun c b => crcReflectedByte poly 8 (c ^^^ (b % 256))) init

/-- CRC-32C with the register initialised to `init`, complemented at the end (R358). -/
def crc32c (init : Nat) (bs : Bytes) : Nat := crcReflected 0x82F63B78 init bs ^^^ 0xFFFFFFFF

/-- CRC-32 of the IEEE 802.3 polynomial (R61). -/
def crc32 (bs : Bytes) : Nat := crcReflected 0xEDB88320 0xFFFFFFFF bs ^^^ 0xFFFFFFFF

/-- `k` steps of a CRC register of `w` bits, most significant bit first. -/
def crcForwardByte (w poly : Nat) : Nat → Nat → Nat
  | 0, c => c
  | k + 1, c =>
    crcForwardByte w poly k (if c / 2 ^ (w - 1) % 2 = 1 then (c * 2 % 2 ^ w) ^^^ poly else c * 2 % 2 ^ w)

/-- A CRC of `w` bits over bytes, most significant bit first. -/
def crcForward (w poly init : Nat) (bs : Bytes) : Nat :=
  bs.foldl (fun c b => crcForwardByte w poly 8 (c ^^^ (b % 256 * 2 ^ (w - 8)))) init

/-- The CRC-16 of the Dictionary Serial Port: x^16 + x^12 + x^5 + 1 from 0xFFFF (R315). -/
def crc16 (bs : Bytes) : Nat := crcForward 16 0x1021 0xFFFF bs

/-- The CRC-8 of a heartbeat word: x^8 + x^2 + x + 1 from 0 (R271). -/
def crc8 (bs : Bytes) : Nat := crcForward 8 0x07 0 bs

end Sys2Proof.Machine
end

