-- ==== Sys2Proof/Machine/Jobs.lean ====
section
/-!
DEFINITION. The cutters of the Quarry banks: the classes and the order of jobs, suspension and resumption (R113-R116), and
the upstream keystream that map seal asks for (R118).
-/
namespace Sys2Proof.Machine
open Sys2Proof

/-! ### Banks -/

/-- The power domain of a quad (R335). -/
def quadDomain (q : Nat) : Nat := if q < 4 then q else q + 3

/-- A bank takes work: its domain is on (R336). -/
def Dev.bankOn (d : Dev) (q : Nat) : Bool := d.rd .pdState (quadDomain q) == 2

/-- Ticks of a block: 200 cycles of the bank clock (R113). -/
def Dev.blockTicks (d : Dev) (q : Nat) : Nat := if d.profile q = 3 then 400 else 200

/-- The class of a job (R115): its source's; a grant's keystream is P0 for an allocation with LAT_BOUND 1 on a LATENCY quad. -/
def Dev.jobClass (d : Dev) : JobSource → Nat
  | .grant t a _ => if d.latency t && d.on .latBound a then 0 else 2
  | .downstream _ => 1
  | .recut _ => 1
  | .integrity _ => 3
  | .gcm => 4

/-- The bank that serves a source; none for management jobs, which go round-robin (R114). -/
def sourceBank : JobSource → Option Nat
  | .grant t _ _ => some (quadOf t)
  | .downstream t => some (quadOf t)
  | .recut g => some (quadOf (treeOfTerm g))
  | .integrity t => some (quadOf t)
  | .gcm => none

/-! ### The order of jobs (R115, R116) -/

/-- The blocks a running job has made by tick `e`. -/
def Job.madeBy (j : Job) (e block : Nat) : Nat := min j.blocks ((e - j.since) / block)

/-- A job at a block boundary, `k` blocks further on: what a suspension saves (R116). The value of a running GHASH or integrity
code is the cipher's (DESIGN CHOICE, log row 4). -/
def Job.after (j : Job) (k : Nat) : Job :=
  { j with blocks := j.blocks - k, ctr := j.ctr + k, pos := j.pos + 16 * k, mac := Config.runningCode j.mac k }

/-- The running job to suspend for class `c`: least urgent and less urgent than `c`, the latest started on a tie. -/
def victim (c : Nat) (l : List Job) : Option Job :=
  (l.filter fun j => c < j.cls).foldl (fun acc j => match acc with
    | none => some j
    | some b => if b.cls < j.cls ∨ (b.cls = j.cls ∧ b.since ≤ j.since) then some j else some b) none

/-- The next job of a bank whose cutter frees: the most urgent class; within it a suspended job before queued ones, each in its
order of arrival. -/
def nextJob (b : Bank) : Option (Bool × Job) :=
  let best : List Job → Option Job := fun l => l.foldl (fun acc j => match acc with
    | none => some j
    | some x => if j.cls < x.cls then some j else some x) none
  match best b.suspended, best b.queue with
  | none, none => none
  | some s, none => some (true, s)
  | none, some q => some (false, q)
  | some s, some q => if s.cls ≤ q.cls then some (true, s) else some (false, q)

/-- A job takes a cutter at tick `e`: the time it waited stays counted. -/
def Job.begin (j : Job) (e : Nat) : Job := { j with waited := j.waited + (e - j.since), since := e }

/-- Job `j` of a bank ends at tick `e`, and its cutter takes the next one (R116). -/
def Bank.finish (b : Bank) (e : Nat) (j : Job) : Bank :=
  let b := { b with running := b.running.filter (· != j) }
  match nextJob b with
  | none => b
  | some (true, k) => { b with suspended := b.suspended.filter (· != k), running := b.running ++ [k.begin e] }
  | some (false, k) => { b with queue := b.queue.filter (· != k), running := b.running ++ [k.begin e] }

/-- The running job that ends first, with its end. -/
def Bank.nextEnd (b : Bank) (block : Nat) : Option (Nat × Job) :=
  b.running.foldl (fun acc j =>
    let e := j.since + j.blocks * block
    match acc with
    | none => some (e, j)
    | some x => if e < x.1 then some (e, j) else some x) none

/-- The jobs a bank holds. -/
def Bank.jobs (b : Bank) : List Job := b.running ++ b.suspended ++ b.queue

/-- The tick at which the last of the jobs `ids` ends, as the bank stands. -/
def Bank.endOf (block : Nat) : Nat → Bank → List Nat → Nat → Nat
  | 0, _, _, last => last
  | fuel + 1, b, ids, last =>
    if ids.isEmpty then last
    else match b.nextEnd block with
      | none => last
      | some (e, j) => Bank.endOf block fuel (b.finish e j) (ids.filter (· != j.id)) (if ids.contains j.id then e else last)

/-! ### Keystream produced (R118) -/

/-- Bytes of a tree's region of the upstream store, and of the downstream store (R113). -/
def upstreamStore : Nat := 196608
def downstreamStore : Nat := 262144

/-- Chunks that continue what is made from the start on. -/
def Keystream.join : Nat → Keystream → Keystream
  | 0, k => k
  | fuel + 1, k =>
    match k.done.find? fun c => c.1 == k.made with
    | some c => Keystream.join fuel { k with made := k.made + c.2, done := k.done.filter (· != c) }
    | none => k

/-- `bytes` of keystream at output position `pos` have been written. -/
def Keystream.produce (k : Keystream) (pos bytes : Nat) : Keystream :=
  Keystream.join (k.done.length + 1) { k with done := k.done ++ [(pos, bytes)] }

/-- The bytes of a burst's structure that are produced and not yet used. -/
def Keystream.ready (k : Keystream) : Nat := k.made + (k.done.map (·.2)).sum

/-- A tree's upstream keystream goes, and KS_READY falls by what of it was ready (R113). -/
def Dev.forgetKeystream (d : Dev) (t : Nat) : Dev :=
  let l := (d.tree t).keystream
  if l.isEmpty then d
  else
    let ready := d.rd .ksReady (quadOf t) - (l.map Keystream.ready).sum
    (d.wr .ksReady (quadOf t) ready).modTree t fun x => { x with keystream := [] }

/-- `blocks` blocks of job `j`, from its output position on, are made: upstream keystream joins its structure's and counts in
KS_READY. -/
def Dev.credit (d : Dev) (j : Job) (blocks : Nat) : Dev :=
  match j.src with
  | .grant t a b =>
    if blocks ≠ 0 && (d.tree t).keystream.any fun k => k.burst == b && k.alloc == a then
      (d.modTree t fun x => { x with keystream := x.keystream.map fun k =>
        if k.burst = b ∧ k.alloc = a then k.produce j.pos (16 * blocks) else k }).add .ksReady (quadOf t) (16 * blocks)
    else d
  | _ => d

/-! ### A bank runs (R116) -/

/-- A management job that waits for an open bank takes the place that one leaves (R114). -/
def Bank.gcmHeld (b : Bank) : Nat := (b.jobs.filter fun j => j.src == .gcm).length

/-- The ends of jobs up to tick `n`, in their order. -/
def Dev.runBank (n q : Nat) : Nat → Dev → Dev
  | 0, d => d
  | fuel + 1, d =>
    match (d.bank q).nextEnd (d.blockTicks q) with
    | none => d
    | some (e, j) =>
      if e ≤ n then Dev.runBank n q fuel ((d.modBank q fun b => b.finish e j).credit j j.blocks) else d

/-- Bank `q` at tick `n`. -/
def Dev.settleBank (d : Dev) (n q : Nat) : Dev := Dev.runBank n q (d.bank q).jobs.length d

/-- A job joins a bank (R116): an idle cutter; or the cutter of a less urgent job, which completes its block and saves its
state; or a place in the queue, counted while every suspension slot is full. -/
def Dev.addJob (d : Dev) (n q : Nat) (j : Job) : Dev :=
  let b := d.bank q
  if b.running.length < 640 then d.modBank q fun b => { b with running := b.running ++ [j.begin n] }
  else match victim j.cls b.running with
    | none => d.modBank q fun b => { b with queue := b.queue ++ [j] }
    | some v =>
      if b.suspended.length < 64 then
        let block := d.blockTicks q
        let k := min v.blocks (v.madeBy n block + 1)
        let e := v.since + k * block
        let rest : Job := { v.after k with since := e }
        let d := (if rest.blocks = 0 then d else d.bump .suspensions q).credit v k
        d.modBank q fun b => { b with
          running := b.running.filter (· != v) ++ [j.begin e],
          suspended := if rest.blocks = 0 then b.suspended else b.suspended ++ [rest] }
      else (d.bump .suspFull q).modBank q fun b => { b with queue := b.queue ++ [j] }

/-- A job of a source is queued at bank `q` at tick `n`. -/
def Dev.queueJob (d : Dev) (n q : Nat) (src : JobSource) (slot : Option Nat) (ctr pos blocks : Nat) : Dev :=
  let cls := d.jobClass src
  let d := d.settleBank n q
  let id := (d.bank q).nextId
  (d.modBank q fun b => { b with nextId := id + 1 }).addJob n q
    { id := id, src := src, base := cls, cls := cls, slot := slot, ctr := ctr, pos := pos, blocks := blocks, mac := 0,
      waited := 0, since := n }

/-- Blocks of one job of a keystream or recut: a stream is cut into such jobs, so that several cutters work on it (DESIGN CHOICE,
log row 92). -/
def chunkBlocks : Nat := 16

/-- The jobs of a stream of `blocks` blocks from counter `ctr` and output position `pos` on, queued at bank `q`. -/
def Dev.queueStream (d : Dev) (n q : Nat) (src : JobSource) (slot : Option Nat) (ctr pos blocks : Nat) : Dev :=
  d.each (List.range (ceilDiv blocks chunkBlocks)) fun d k =>
    d.queueJob n q src slot (ctr + chunkBlocks * k) (pos + 16 * chunkBlocks * k) (min chunkBlocks (blocks - chunkBlocks * k))

/-- The tick at which jobs `first` and later of bank `q` have all ended, as the bank stands at tick `n`. -/
def Dev.streamEnd (d : Dev) (n q first : Nat) : Nat :=
  let b := d.bank q
  let ids := (b.jobs.filter fun j => first ≤ j.id).map (·.id)
  Bank.endOf (d.blockTicks q) b.jobs.length b ids n

/-! ### The upstream store (R118) -/

/-- Bytes of a tree's region that are produced or being produced. -/
def Tree.storeUsed (x : Tree) : Nat := (x.keystream.map fun k => k.asked).sum

/-- The next chunk of the first structure that has one left, as space allows. -/
def Dev.nextChunk (d : Dev) (t : Nat) : Option (Keystream × Nat) :=
  match (d.tree t).keystream.find? fun k => decide (k.asked < k.bytes) with
  | none => none
  | some k =>
    let c := min (16 * chunkBlocks) (k.bytes - k.asked)
    if (d.tree t).storeUsed + c ≤ upstreamStore then some (k, c) else none

/-- Jobs are queued in order of expected arrival, as space in the region frees. -/
def Dev.fillStore (n t : Nat) : Nat → Dev → Dev
  | 0, d => d
  | fuel + 1, d =>
    match d.nextChunk t with
    | none => d
    | some (k, c) =>
      let d := d.modTree t fun x => { x with keystream := x.keystream.map fun y =>
        if y = k then { y with asked := y.asked + c } else y }
      Dev.fillStore n t fuel
        (d.queueJob n (quadOf t) (.grant t k.alloc k.burst) (some k.slot) (k.ctr + k.asked / 16) k.asked (ceilDiv c 16))

/-- Chunks that a full region holds. -/
def storeChunks : Nat := 768

/-- Structures join a tree's region, and their keystream is begun. -/
def Dev.askKeystream (d : Dev) (n t : Nat) (l : List Keystream) : Dev :=
  if l.isEmpty || !d.bankOn (quadOf t) then d
  else Dev.fillStore n t storeChunks (d.modTree t fun x => { x with keystream := x.keystream ++ l })

/-- The keystream of a burst goes, used or not, and its space frees (R118). -/
def Dev.dropKeystream (d : Dev) (n t : Nat) (b : BurstRef) : Dev :=
  let gone := (d.tree t).keystream.filter fun k => k.burst == b
  if gone.isEmpty then d
  else
    let q := quadOf t
    let d := d.modTree t fun x => { x with keystream := x.keystream.filter fun k => k.burst != b }
    Dev.fillStore n t storeChunks (d.wr .ksReady q (d.rd .ksReady q - (gone.map fun k => k.ready).sum))

/-- The keystream of bytes below `stop` of a structure is not produced (R118). What the region could not yet hold is made as the
burst's own bytes free it (DEDUCED, log row 92). -/
def Dev.keystreamLate (d : Dev) (t : Nat) (b : BurstRef) (alloc stop : Nat) : Bool :=
  match (d.tree t).keystream.find? fun k => k.burst == b && k.alloc == alloc with
  | some k => decide (k.made < stop) && decide (k.made < k.asked)
  | none => true

/-! ### Management jobs (R114) -/

/-- The banks open to management jobs: those whose quads are neither in ECONOMY nor changing profile; if there is none, every
bank. -/
def Dev.gcmBanks (d : Dev) : List Nat :=
  let on := (List.range 8).filter d.bankOn
  let ok := on.filter fun q => d.profile q != 3 && (d.quad q).change == 0
  if ok.isEmpty then on else ok

/-- The bank of the next management job: round-robin over the open banks, skipping those with eight. -/
def Dev.nextGcmBank (d : Dev) : Option Nat :=
  let l := d.gcmBanks
  let order := (l.filter fun q => decide (d.mgmt.gcmBank ≤ q)) ++ l.filter fun q => decide (q < d.mgmt.gcmBank)
  order.find? fun q => (d.bank q).gcmHeld < 8

/-- The management jobs that wait take the places open at tick `n`. -/
def Dev.placeGcm (n : Nat) : Nat → Dev → Dev
  | 0, d => d
  | fuel + 1, d =>
    match d.mgmt.gcmWaiting with
    | [] => d
    | blocks :: rest =>
      match d.nextGcmBank with
      | none => d
      | some q =>
        let d := ({ d with mgmt := { d.mgmt with gcmWaiting := rest, gcmBank := (q + 1) % 8 } }).bump .mgmtJobs q
        let cycles := if d.profile q = 3 then 8 else 4
        let d := d.modBank q fun b => { b with ghashUntil := max b.ghashUntil n + cycles * blocks }
        Dev.placeGcm n fuel (d.queueJob n q .gcm none 0 0 blocks)

/-- Every bank at tick `n`. -/
def Dev.settleBanks (d : Dev) (n : Nat) : Dev := d.each (List.range 8) fun d q => d.settleBank n q

/-- A message of `bytes` bytes is sealed or opened: one job (R114). -/
def Dev.gcmJob (d : Dev) (n bytes : Nat) : Dev :=
  let d := d.settleBanks n
  let d := { d with mgmt := { d.mgmt with gcmWaiting := d.mgmt.gcmWaiting ++ [ceilDiv bytes 16 + 1] } }
  Dev.placeGcm n d.mgmt.gcmWaiting.length d

/-- The integrity code of a message of `bytes` bytes of tree `t` (R115, R127). -/
def Dev.integrityJob (d : Dev) (n t bytes : Nat) : Dev :=
  if d.bankOn (quadOf t) then d.queueJob n (quadOf t) (.integrity t) none 0 0 (ceilDiv bytes 16) else d

/-! ### Jobs of an erased slot (R27, R124) -/

/-- A slot is erased at tick `n`: the cutters that use it finish their block under the old key, and no job goes on with it. -/
def Bank.eraseSlot (b : Bank) (n block s : Nat) : Bank :=
  { b with
    running := b.running.map fun j =>
      if j.slot = some s then { j with blocks := min j.blocks (j.madeBy n block + 1) } else j,
    queue := b.queue.filter fun j => j.slot != some s,
    suspended := b.suspended.filter fun j => j.slot != some s }

/-- The class of a P3 or P4 job that has waited `w` ticks: one up for each 250 us, never above P1 (R115). -/
def promoted (base w : Nat) : Nat := if base < 3 then base else max 1 (base - w / 311040)

/-! ### Meanings -/

/-- JOB_QUEUED (R114-R116): a management job goes to the next open bank, every other to bank `q`, its source's own. -/
def execJobQueued (n q : Nat) (j : JobReq) (st : State) : Host.Outcome State Fault Refusal :=
  if q < 8 then
    .next (st.at_ n fun n d =>
      match sourceBank j.src with
      | none => d.gcmJob n (16 * (j.blocks - 1))
      | some k => if k = q ∧ d.bankOn q = true then d.queueJob n q j.src none 0 0 j.blocks else d)
  else .fault .noSuchElement

/-- JOB_RESUME (R116): job `id` ends and its cutter frees. -/
def execJobResume (n q id : Nat) (st : State) : Host.Outcome State Fault Refusal :=
  onElement q 8 st fun st => st.at_ n fun n d =>
    if (d.bank q).running.any fun j => j.id == id && decide (j.since + j.blocks * d.blockTicks q ≤ n) then
      let d := d.settleBank n q
      Dev.placeGcm n d.mgmt.gcmWaiting.length d
    else d

/-- JOB_PROMOTE (R115): the time a job has waited, its time on a cutter left out. -/
def execJobPromote (n q id : Nat) (st : State) : Host.Outcome State Fault Refusal :=
  onElement q 8 st fun st => st.at_ n fun n d =>
    let up : Job → Job := fun j => if j.id = id then { j with cls := promoted j.base (j.waited + (n - j.since)) } else j
    d.modBank q fun b => { b with queue := b.queue.map up, suspended := b.suspended.map up }

end Sys2Proof.Machine
end

