-- ==== Sys2Proof/Machine/Buffer.lean ====
section
/-!
DEFINITION. The Cell Pool Manager (R178-R187): taking and freeing cells and descriptors, pools, references, queues,
and the ends of a frame's life.
-/
namespace Sys2Proof.Machine
open Sys2Proof

def Dev.ring (d : Dev) (b : Nat) : Ring := Tab.get {} d.buf.rings b
def Dev.setRing (d : Dev) (b : Nat) (r : Ring) : Dev :=
  { d with buf := { d.buf with rings := Tab.set {} d.buf.rings b r } }

/-- The first of the cell numbers `k`, `k + 1`, … of a bank, at most `fuel` of them, that `skip` does not hold. -/
def firstNotIn (skip : List Nat) : Nat → Nat → Option Nat
  | 0, _ => none
  | fuel + 1, k => if skip.contains k then firstNotIn skip fuel (k + 1) else some k

/-- The next free cell of bank `b` and the store without it: the oldest one in ring mode, the lowest in bitmap mode
(R186). Cell c lies in bank c mod 32 (R178). -/
def Dev.takeFromBank (d : Dev) (b : Nat) : Option (Nat × Dev) :=
  if d.rd .freeMode 0 = 0 then
    let r := d.ring b
    match firstNotIn r.skip (12288 - r.fresh) r.fresh with
    | some k => some (k * 32 + b, d.setRing b { r with fresh := k + 1 })
    | none =>
      match r.back with
      | [] => none
      | c :: rest => some (c, d.setRing b { r with fresh := 12288, back := rest })
  else
    match firstNotIn (d.buf.taken.filterMap fun c => if c % 32 = b then some (c / 32) else none) 12288 0 with
    | some k => some (k * 32 + b, { d with buf := { d.buf with taken := (k * 32 + b) :: d.buf.taken } })
    | none => none

/-- A free cell of the next bank in turn that has one, trying `tries` banks from bank `b` on (R178, R186). -/
def Dev.takeInTurn (d : Dev) : Nat → Nat → Option (Nat × Dev)
  | 0, _ => none
  | tries + 1, b =>
    match d.takeFromBank (b % 32) with
    | some (c, d') =>
      let d' := { d' with buf := { d'.buf with nextBank := (b + 1) % 32 } }
      some (c, (d'.wr .cellsFree 0 (d'.rd .cellsFree 0 - 1)).bump .bankCellsUsed (c % 32))
    | none => Dev.takeInTurn d tries (b + 1)

/-- A freed cell returns to the store (R186). In bitmap mode a cell that is free already is refused. -/
def Dev.freeCell (d : Dev) (n c : Nat) : Dev :=
  let back : Dev → Dev := fun d =>
    (d.add .cellsFree 0 1).wr .bankCellsUsed (c % 32) (d.rd .bankCellsUsed (c % 32) - 1)
  if d.rd .freeMode 0 = 0 then
    let r := d.ring (c % 32)
    back (d.setRing (c % 32) { r with back := r.back ++ [c] })
  else if d.buf.taken.contains c then back { d with buf := { d.buf with taken := d.buf.taken.erase c } }
  else (d.bump .doubleFree 0).event n 418 c

/-- Cells charged to a pool. -/
def Dev.charge (d : Dev) (pool : Nat) : Dev :=
  let u := d.rd .poolUsed pool + 1
  (d.wr .poolUsed pool u).wr .poolPeak pool (max (d.rd .poolPeak pool) u)

def Dev.uncharge (d : Dev) (pool k : Nat) : Dev := d.wr .poolUsed pool (d.rd .poolUsed pool - k)

/-- Taking `k` cells for a pool, one at a time (R183): the cells, or the cells taken before the pool or the store ran
dry. -/
def Dev.takeCells (d : Dev) (pool : Nat) : Nat → List Nat → (Bool × List Nat × Dev)
  | 0, got => (true, got.reverse, d)
  | k + 1, got =>
    if d.rd .poolUsed pool ≥ d.rd .poolSize pool then (false, got, d)
    else match d.takeInTurn 32 d.buf.nextBank with
      | none => (false, got, d)
      | some (c, d') => Dev.takeCells (d'.charge pool) pool k (c :: got)

/-- Cells of a frame of `n` bytes, FCS included (R178). -/
def cellsOf (n : Nat) : Nat := ceilDiv n 256

/-- A frame whose write meets a bad address or number in a free store is dropped, and the cells it has taken are left to the Leak
Auditor (R187): here the first of them. -/
def Dev.badRead (d : Dev) : Dev :=
  let d := { d with buf := { d.buf with badReads := d.buf.badReads - 1 } }
  match d.takeInTurn 32 d.buf.nextBank with
  | none => d
  | some (_, d) => d

/-- Writing a frame into the buffer (R183): its chain, or none and the frame counted in NO_BUFFER of its pool, the
cells returned. -/
def Dev.storeFrame (d : Dev) (n pool length : Nat) (bytes : Bytes) : Option (Nat × Dev) × Dev :=
  if d.buf.badReads ≠ 0 then (none, d.badRead)
  else match d.takeCells pool (cellsOf length) [] with
  | (true, cells, d') =>
    let first := cells.headD 0
    (some (first, { d' with buf := { d'.buf with chains := Tab.insert d'.buf.chains first ⟨cells, 0, bytes, pool⟩ } }), d)
  | (false, cells, d') =>
    (none, ((d'.each cells fun d c => d.freeCell n c).uncharge pool cells.length).bump .noBuffer pool)

/-- The lowest descriptor number not in use (the order of the descriptor free store is not stated; DESIGN CHOICE, log row 13). -/
def freeDescNo : Tab Desc → Nat → Nat
  | [], k => k
  | (j, _) :: r, k => if j = k then freeDescNo r (k + 1) else k

/-- Naming a chain by a new descriptor (R179, R184): its number. -/
def Dev.addDesc (d : Dev) (x : Desc) : Nat × Dev :=
  let k := freeDescNo d.buf.descs 0
  let chains := match Tab.find d.buf.chains x.chain with
    | some c => Tab.insert d.buf.chains x.chain { c with refs := c.refs + 1 }
    | none => d.buf.chains
  let d := { d with buf := { d.buf with
    descs := Tab.insert d.buf.descs k x, chains := chains, copies := d.buf.copies + (if x.copy then 1 else 0) } }
  (k, d.wr .descFree 0 (d.rd .descFree 0 - 1))

def Dev.desc (d : Dev) (k : Nat) : Option Desc := Tab.find d.buf.descs k
def Dev.setDesc (d : Dev) (k : Nat) (x : Desc) : Dev :=
  { d with buf := { d.buf with descs := Tab.insert d.buf.descs k x } }

/-- The cells and bytes of a descriptor's frame. -/
def Dev.chainOf (d : Dev) (x : Desc) : Chain := (Tab.find d.buf.chains x.chain).getD ⟨[], 0, [], x.pool⟩
def Dev.descCells (d : Dev) (k : Nat) : Nat :=
  match d.desc k with
  | some x => (d.chainOf x).cells.length
  | none => 0

/-- The number of the next version is free (R154). -/
def Dev.nextVersionFree (d : Dev) : Bool := !(d.older.any fun p => p.1 == (d.rd .activeVersion 0 + 1) % 4)

/-- Step 1 of a commit under way ends when the next version's number is free (R154). -/
def Dev.settleCommit (d : Dev) (n : Nat) : Dev :=
  if d.mgmt.longOp.any (fun o => o.code == 1) && d.mgmt.commitReady.isNone && d.nextVersionFree then
    { d with mgmt := { d.mgmt with commitReady := some n } }
  else d

/-- A version's in-flight count falls; its rows are released when none is left (R155). -/
def Dev.leaveVersion (d : Dev) (n v : Nat) : Dev :=
  let k := d.rd .verInflight v - 1
  let d := d.wr .verInflight v k
  if k = 0 then ({ d with older := d.older.filter fun p => p.1 != v }).settleCommit n else d

/-- A reference to a chain is released (R184): the last one frees the cells and the pool's charge. -/
def Dev.releaseChain (d : Dev) (n chain : Nat) : Dev :=
  match Tab.find d.buf.chains chain with
  | none => d
  | some c =>
    if c.refs ≤ 1 then
      let d := { d with buf := { d.buf with chains := Tab.erase d.buf.chains chain } }
      (d.each c.cells fun d x => d.freeCell n x).uncharge c.pool c.cells.length
    else { d with buf := { d.buf with chains := Tab.insert d.buf.chains chain { c with refs := c.refs - 1 } } }

/-- A descriptor is freed when its last owner releases it (R184): its reference goes, and the frame leaves its version
(R155). Device-made frames, copies and frames not classified yet are in no version. -/
def Dev.freeDesc (d : Dev) (n k : Nat) : Dev :=
  match d.desc k with
  | none => d
  | some x =>
    let d := { d with buf := { d.buf with
      descs := Tab.erase d.buf.descs k, copies := d.buf.copies - (if x.copy then 1 else 0) } }
    let d := (d.wr .descFree 0 (d.rd .descFree 0 + 1)).releaseChain n x.chain
    if x.copy || x.srcKind == 2 || x.destKind == 3 then d else d.leaveVersion n x.version

/-! ### Queues -/

/-- Queue numbers (R199): downstream queue of a terminal, uplink queue, host queue. -/
def downQueue (g q : Nat) : Nat := g * 8 + q
def upQueue (p q : Nat) : Nat := 131072 + p * 8 + q
def hostQueue : Nat := 131200

def Dev.queue (d : Dev) (q : Nat) : List Nat := Tab.get [] d.buf.queues q

/-- A queue takes a content. The deficit of a queue that empties, and of a terminal that empties, is 0 (R202). -/
def Dev.setQueue (d : Dev) (q : Nat) (l : List Nat) : Dev :=
  let d := { d with buf := { d.buf with queues := Tab.set [] d.buf.queues q l } }
  if l.isEmpty then
    let d := { d with sched := { d.sched with deficits := Tab.erase d.sched.deficits q } }
    if q < 131072 && (List.range 8).all (fun k => (d.queue (downQueue (q / 8) k)).isEmpty) then
      { d with sched := { d.sched with termDeficits := Tab.erase d.sched.termDeficits (q / 8) } }
    else d
  else d

/-- The live depth of a queue in cells (R214). -/
def Dev.depth (d : Dev) (q : Nat) : Nat := ((d.queue q).map d.descCells).sum

def Dev.stat (d : Dev) (q : Nat) : QStat := Tab.get {} d.sched.stats q
def Dev.modStat (d : Dev) (q : Nat) (f : QStat → QStat) : Dev :=
  { d with sched := { d.sched with stats := Tab.set {} d.sched.stats q (f (d.stat q)) } }

/-- A frame joins the tail of a queue; the peak depth follows (R214). -/
def Dev.pushQueue (d : Dev) (q k : Nat) : Dev :=
  let d := d.setQueue q (d.queue q ++ [k])
  d.modStat q fun x => { x with peak := max x.peak (d.depth q) }

/-! ### The Latency Sampler's entries (R297, R298) -/

/-- The 64 bytes of a SAMPLES entry, as one number. -/
def Followed.record (f : Followed) (outcome : Nat) : Nat :=
  ofBytes (toBytes 4 f.hash ++ toBytes 2 f.domain ++ toBytes 2 f.source ++ toBytes 4 f.dest ++ toBytes 2 f.length ++
    [f.marks, outcome] ++ toBytes 4 f.entry ++ toBytes 4 f.desc ++ toBytes 8 f.t0 ++ toBytes 4 f.cipher ++
    toBytes 4 f.classified ++ toBytes 4 f.written ++ toBytes 4 f.dequeued ++ toBytes 4 f.outFirst ++
    toBytes 4 f.outLast ++ toBytes 4 f.seq ++ toBytes 4 0)

/-- Changing a followed frame's entry. -/
def Dev.follow (d : Dev) (id : Option Nat) (f : Followed → Followed) : Dev :=
  match id with
  | none => d
  | some k => { d with sampler := { d.sampler with
      followed := d.sampler.followed.map fun x => if x.id = k then f x else x } }

/-- A followed frame's outcome is known: its entry is written whole at SAMPLE_NEXT, which advances and wraps. -/
def Dev.sampleDone (d : Dev) (id : Option Nat) (outcome : Nat) : Dev :=
  match id with
  | none => d
  | some k =>
    match d.sampler.followed.find? fun x => x.id == k with
    | none => d
    | some x =>
      let at_ := d.rd .sampleNext 0
      let d := { d with sampler := { d.sampler with
        followed := d.sampler.followed.filter fun y => y.id != k,
        ring := Tab.set 0 d.sampler.ring at_ (x.record outcome) } }
      d.wr .sampleNext 0 ((at_ + 1) % 4096)

/-- A buffered frame is dropped: its sample ends with the outcome and its descriptor is freed. A dropped copy counts in
MIR_DROP of its session (R185). -/
def Dev.dropDesc (d : Dev) (n k outcome : Nat) : Dev :=
  match d.desc k with
  | none => d
  | some x =>
    let d := if x.copy then d.bump .mirDrop x.mirror else d.sampleDone x.sampled outcome
    d.freeDesc n k

/-! ### Ports and terminals as destinations -/

/-- The ports the current width has (R14, R248). -/
def Dev.portCount (d : Dev) : Nat :=
  match d.rd .portWidth 0 with | 0 => 16 | 1 => 8 | _ => 4

/-- Lanes of a port (R14). -/
def Dev.lanesPerPort (d : Dev) : Nat :=
  match d.rd .portWidth 0 with | 0 => 1 | 1 => 2 | _ => 4

def Dev.lanesOf (d : Dev) (p : Nat) : List Nat := (List.range d.lanesPerPort).map (p * d.lanesPerPort + ·)

/-- The port that holds uplink lane `l` under the current width. -/
def Dev.portOfLane (d : Dev) (l : Nat) : Nat := l / d.lanesPerPort

/-- A port is up (PORT_STATE 1 or 2, R249, R254). -/
def Dev.portUp (d : Dev) (p : Nat) : Bool := d.rd .portState p != 0

/-- Flushing a queue (R193, R194): its frames are detached in one step, freed and counted by `count`. -/
def Dev.flushQueue (d : Dev) (n q : Nat) (count : Dev → Dev) : Dev :=
  let l := d.queue q
  (d.setQueue q []).each l fun d k => count (d.dropDesc n k 6)

/-- A port's transmit path has sent its frame by tick `n`: it releases it (R184). -/
def Dev.settleSend (d : Dev) (n p : Nat) : Dev :=
  match (d.port p).sending with
  | none => d
  | some s =>
    if s.ends ≤ n then
      ((d.modPort p fun x => { x with sending := none }).sampleDone s.sampled 0).freeDesc n s.desc
    else d

/-- Every transmit path that has sent its frame by tick `n`. -/
def Dev.settleSends (d : Dev) (n : Nat) : Dev :=
  d.each ((d.ports.filter fun p => p.2.sending.any fun s => decide (s.ends ≤ n)).map (·.1)) fun d p => d.settleSend n p

/-- The link is lost while the port's transmit path sends a frame (R193): the frame is lost. The manual gives no OUTCOME for it
(log row 109). -/
def Dev.loseSend (d : Dev) (n p : Nat) : Dev :=
  match (d.port p).sending with
  | none => d
  | some s =>
    let d := ((d.bump .partialLost p).wr .txFrames p (d.rd .txFrames p - 1)).emit (.cut p)
    let (v, d) := d.draw
    let d := d.follow s.sampled fun y => { y with outLast := 2 ^ 32 - 1 }
    ((d.modPort p fun x => { x with sending := none }).sampleDone s.sampled (v % 9)).freeDesc n s.desc

/-- The queues of a port flushed (R193). -/
def Dev.flushPort (d : Dev) (n p : Nat) : Dev :=
  d.each (List.range 8) fun d q => d.flushQueue n (upQueue p q) fun d => d.bump .flushedFrames p

/-- The downstream queues of a terminal flushed (R194). -/
def Dev.flushTerm (d : Dev) (n g : Nat) : Dev :=
  d.each (List.range 8) fun d q => d.flushQueue n (downQueue g q) fun d => d.bump .termFlushed g

end Sys2Proof.Machine
end

