-- ==== Sys2Proof/Machine/Meters.lean ====
section
/-!
DEFINITION. Token buckets (R205-R207) and the Meter Bank (R208-R210). Tokens are exact: one byte is 9,953,280 units, so
that a rate of r kb/s, r x 125 bytes a second, accrues r units a tick.
-/
namespace Sys2Proof.Machine
open Sys2Proof

/-- Units of a byte. -/
def byteUnits : Int := 9953280

/-- Units of `b` bytes. -/
def units (b : Nat) : Int := (b : Int) * byteUnits

/-! ### Shapers -/

/-- A shaper: its key in `Sched.buckets`, its rate in kb/s, its burst in bytes. -/
structure Shaper where
  key : Nat
  rate : Nat
  burst : Nat
  deriving DecidableEq, Repr

def Dev.treeShaper (d : Dev) (t : Nat) : Shaper := ⟨3000000 + t, d.rd .treeShapeKbps t, d.rd .treeShapeBurst t⟩
def Dev.portShaper (d : Dev) (p : Nat) : Shaper := ⟨3001000 + p, d.rd .portShapeKbps p, d.rd .portShapeBurst p⟩
def Dev.hostShaper (d : Dev) : Shaper := ⟨3002000, d.rd .hostShapeKbps 0, 65536⟩

/-- QUEUE_SCHED fields (R217). -/
def Dev.queueShaper (d : Dev) (q : Nat) : Shaper :=
  ⟨q, field (d.win 0x3800 q) 17 29, field (d.win 0x3800 q) 1 16 * 64⟩
def Dev.queueWeight (d : Dev) (q : Nat) : Nat := max 1 (field (d.win 0x3800 q) 46 8)
def Dev.permitSet (d : Dev) (q : Nat) : Nat := field (d.win 0x3800 q) 54 10

/-- TERM_SCHED fields (R218). -/
def Dev.cirShaper (d : Dev) (g : Nat) : Shaper :=
  ⟨1000000 + g, field (d.win 0x3801 g) 99 29, field (d.win 0x3801 g) 54 16 * 64⟩
def Dev.pirShaper (d : Dev) (g : Nat) : Shaper :=
  ⟨2000000 + g, field (d.win 0x3801 g) 70 29, field (d.win 0x3801 g) 38 16 * 64⟩
def Dev.termWeight (d : Dev) (g : Nat) : Nat := max 1 (field (d.win 0x3801 g) 30 8)
def Dev.strictCount (d : Dev) (g : Nat) : Nat := field (d.win 0x3801 g) 28 2

/-- The tokens of a shaper at tick `n` (R205): a bucket never used is full. -/
def Dev.tokens (d : Dev) (n : Nat) (s : Shaper) : Int :=
  match Tab.find d.sched.buckets s.key with
  | none => units s.burst
  | some b => min (b.tokens + (s.rate : Int) * ((n - b.tick : Nat) : Int)) (units s.burst)

/-- A shaper is eligible: unshaped, or at or above 0 (R205). -/
def Dev.eligible (d : Dev) (n : Nat) (s : Shaper) : Bool := s.rate == 0 || decide (0 ≤ d.tokens n s)

def Dev.setBucket (d : Dev) (key : Nat) (b : Bucket) : Dev :=
  { d with sched := { d.sched with buckets := Tab.insert d.sched.buckets key b } }

/-- A sent frame's charged length is taken, even below 0; an unshaped bucket is never charged (R205). -/
def Dev.takeTokens (d : Dev) (n : Nat) (s : Shaper) (bytes : Nat) : Dev :=
  if s.rate = 0 then d else d.setBucket s.key ⟨d.tokens n s - units bytes, n⟩

/-- A shaper after a write (R205, R207): a changed rate fills it, a changed burst clips it at once. -/
def Dev.reshape (d : Dev) (n : Nat) (old new : Shaper) : Dev :=
  if old.rate ≠ new.rate then d.setBucket new.key ⟨units new.burst, n⟩
  else d.setBucket new.key ⟨min (d.tokens n old) (units new.burst), n⟩

/-! ### Meters -/

/-- A METERS record (R219). -/
structure MeterCfg where
  cir : Nat
  cbs : Nat
  pir : Nat
  pbs : Nat
  alg : Nat
  aware : Bool
  redDrop : Bool
  overhead : Int
  deriving DecidableEq, Repr

def meterCfg (w : Nat) : MeterCfg :=
  let ov := toSigned 8 (field w 112 8)
  { cir := field w 224 32, cbs := field w 192 32, pir := field w 160 32, pbs := field w 128 32,
    alg := field w 120 2, aware := bitAt w 122, redDrop := bitAt w 123,
    overhead := if ov < -64 then -64 else ov }

/-- A meter's buckets at tick `n` (R208): refilled from the tick counter, clipped by its sizes; full when never used. -/
def Dev.meterAt (d : Dev) (n m : Nat) (c : MeterCfg) : Meter :=
  match Tab.find d.sched.meters m with
  | none => ⟨units c.cbs, units c.pbs, n⟩
  | some b =>
    ⟨min (b.c + (c.cir : Int) * ((n - b.tick : Nat) : Int)) (units c.cbs),
     min (b.p + (c.pir : Int) * ((n - b.tick : Nat) : Int)) (units c.pbs), n⟩

/-- RFC 2698: the colour (0 green, 1 yellow, 2 red) and the buckets after a frame of `b` units. -/
def trtcm2698 (aware : Bool) (pre : Nat) (b : Int) (x : Meter) : Nat × Meter :=
  if x.p < b ∨ (aware = true ∧ pre = 2) then (2, x)
  else if x.c < b ∨ (aware = true ∧ pre = 1) then (1, { x with p := x.p - b })
  else (0, { x with c := x.c - b, p := x.p - b })

/-- RFC 4115: C at CIR, E at EIR in the P bucket, with no coupling. -/
def trtcm4115 (aware : Bool) (pre : Nat) (b : Int) (x : Meter) : Nat × Meter :=
  if aware = true ∧ pre = 2 then (2, x)
  else if ¬ (aware = true ∧ pre = 1) ∧ b ≤ x.c then (0, { x with c := x.c - b })
  else if b ≤ x.p then (1, { x with p := x.p - b })
  else (2, x)

/-- A frame of `len` bytes and colour `pre` metered by meter `m` (R208, R209): its new colour, whether the meter drops
it, and the device with the buckets and METER_COUNTS advanced. ALG 0 and 3 keep the colour. -/
def Dev.metered (d : Dev) (n m len pre : Nat) : Nat × Bool × Dev :=
  let c := meterCfg (d.win 0x3803 m)
  let length := (max 1 ((len : Int) + c.overhead)).toNat
  let x := d.meterAt n m c
  let r :=
    if c.alg = 1 then trtcm2698 c.aware pre (units length) x
    else if c.alg = 2 then trtcm4115 c.aware pre (units length) x
    else (pre, x)
  let k := Tab.get (0, 0, 0) d.sched.counts m
  let k' := match r.1 with
    | 0 => (k.1 + length, k.2.1, k.2.2)
    | 1 => (k.1, k.2.1 + length, k.2.2)
    | _ => (k.1, k.2.1, k.2.2 + length)
  let d := { d with sched := { d.sched with
    meters := if c.alg = 1 ∨ c.alg = 2 then Tab.insert d.sched.meters m r.2 else d.sched.meters,
    counts := Tab.set (0, 0, 0) d.sched.counts m k' } }
  (r.1, r.1 == 2 && c.redDrop && (c.alg == 1 || c.alg == 2), d)

end Sys2Proof.Machine
end

