-- ==== Sys2Proof/Machine/Queueing.lean ====
section
/-!
DEFINITION. Queueing a frame: holds and down drops (R193-R195), aggregation members (R197, R198), meters (R209),
random early drop (R191), mirror copies (R185).
-/
namespace Sys2Proof.Machine
open Sys2Proof

/-! ### Aggregation groups -/

/-- The member ports of a group that the current width has, ascending (R196). -/
def Dev.groupMembers (d : Dev) (a : Nat) : List Nat :=
  (List.range d.portCount).filter fun p => bitAt (d.rd .lagMembers a) p

def Dev.groupExists (d : Dev) (a : Nat) : Bool := a < 8 && !(d.groupMembers a).isEmpty

/-- The group a port belongs to (R196). -/
def Dev.groupOfPort (d : Dev) (p : Nat) : Option Nat :=
  (List.range 8).find? fun a => bitAt (d.rd .lagMembers a) p && p < d.portCount

/-- The members of a group now in use (ACTIVE, R198): up, and named by one of its LAG_BUCKETS entries. -/
def Dev.activeMask (d : Dev) (a : Nat) : Nat :=
  ((d.groupMembers a).filter fun p => d.portUp p && (List.range 256).any fun b =>
    d.win 0x3701 (a * 256 + b) == p).foldl (fun m p => m + 2 ^ p) 0

/-- The next member of `ms` after `p` that is up, in ascending order, wrapping (R198). -/
def nextUp (up : Nat → Bool) (ms : List Nat) (p : Nat) : Option Nat :=
  match (ms.filter fun q => q > p && up q) with
  | q :: _ => some q
  | [] => (ms.filter up).head?

/-- The LAG_BUCKETS records of group `a` that name port `p`. -/
def Dev.bucketsOf (d : Dev) (a p : Nat) : List Nat :=
  ((List.range 256).map (a * 256 + ·)).filter fun k => d.win 0x3701 k == p

/-- The records of `l` that no port counts among those it held when it went down. -/
def Dev.ownBuckets (d : Dev) (l : List Nat) : List Nat := l.filter fun k => !(d.ports.any fun x => x.2.lost.contains k)

/-- The records `l`, which name port `p`, move to port `q`; `p` keeps those it held itself (R198). -/
def Dev.moveTo (d : Dev) (p q : Nat) (l : List Nat) : Dev :=
  let own := d.ownBuckets l
  (d.modPort p fun x => { x with lost := x.lost ++ own }).each l fun d k => d.setWin 0x3701 k q

/-- The buckets of each group move off port `p` to the next member that is up (R198). -/
def Dev.moveBuckets (d : Dev) (p : Nat) : Dev :=
  d.each (List.range 8) fun d a =>
    if bitAt (d.rd .lagMembers a) p && p < d.portCount then
      match nextUp d.portUp (d.groupMembers a) p with
      | none => d
      | some q => d.moveTo p q (d.bucketsOf a p)
    else d

/-- The buckets of a group's members that are down go to the member `p` that alone is up (R198). -/
def Dev.gatherBuckets (d : Dev) (a p : Nat) : Dev :=
  let ms := d.groupMembers a
  if ms.filter d.portUp = [p] then d.each (ms.filter (· != p)) fun d q => d.moveTo q p (d.bucketsOf a q) else d

/-- The buckets that member `p` held when it went down go back to it (R198). -/
def Dev.revertBuckets (d : Dev) (p : Nat) : Dev :=
  (d.modPort p fun x => { x with lost := [] }).each (d.port p).lost fun d k => d.setWin 0x3701 k p

/-- The host has written LAG_BUCKETS records, or refilled them: no member gets them back. -/
def Dev.forgetBuckets (d : Dev) (l : List Nat) : Dev :=
  d.each (Tab.keys d.ports) fun d p => d.modPort p fun x => { x with lost := x.lost.filter fun k => !l.contains k }

/-- A group's buckets refilled (R197): bucket b to the (b mod m)-th existing member. -/
def Dev.refillGroup (d : Dev) (a : Nat) : Dev :=
  let ms := d.groupMembers a
  (d.forgetBuckets ((List.range 256).map (a * 256 + ·))).each (List.range 256) fun d b =>
    d.setWin 0x3701 (a * 256 + b) (if ms.isEmpty then 0 else ms.getD (b % ms.length) 0)

/-! ### Random early drop -/

/-- MIN, MAX and PMAX of a profile for a colour (R191, R199). -/
def Dev.dropMin (d : Dev) (r c : Nat) : Nat := d.rd (match c with | 0 => .greenMin | 1 => .yellowMin | _ => .redMin) r
def Dev.dropMax (d : Dev) (r c : Nat) : Nat := d.rd (match c with | 0 => .greenMax | 1 => .yellowMax | _ => .redMax) r
def Dev.dropPmax (d : Dev) (r c : Nat) : Nat :=
  d.rd (match c with | 0 => .greenPmax | 1 => .yellowPmax | _ => .redPmax) r

/-- What the test of R191 decides. -/
inductive EarlyDrop where
  | queue | mark | tail | early
  deriving DecidableEq, Repr

/-- The average depth after an update (R191). -/
def avgAfter (avg : Rat) (q weight : Nat) : Rat := if q = 0 then 0 else avg + ((q : Rat) - avg) / (2 ^ weight : Nat)

/-- Whether a frame is selected: r < p x 65,536 with p = PMAX / 256 x (avg - MIN) / (MAX - MIN). -/
def selected (avg : Rat) (mn mx pmax r : Nat) : Bool :=
  decide ((r : Rat) < (pmax : Rat) / 256 * (avg - mn) / ((mx : Rat) - mn) * 65536)

/-- The test of R191 for a frame of `cells` cells and colour `c` at queue `q` under profile `r`, with the drawn number
`rnd` and whether its IP header carries ECN 0b01 or 0b10. -/
def Dev.earlyDrop (d : Dev) (q r c cells rnd : Nat) (ect : Bool) : EarlyDrop :=
  let depth := d.depth q
  let avg := avgAfter (Tab.get 0 d.buf.avg q) depth (d.rd .dropProfileWeight r)
  if depth + cells > d.rd .greenMax r then .tail
  else if (d.dropMax r c : Rat) ≤ avg then .early
  else if (d.dropMin r c : Rat) ≤ avg && selected avg (d.dropMin r c) (d.dropMax r c) (d.dropPmax r c) rnd then
    (if d.on .ecnMark r && ect then .mark else .early)
  else .queue

/-- The average depth of a queue updated on a test. -/
def Dev.updateAvg (d : Dev) (q r : Nat) : Dev :=
  let a := avgAfter (Tab.get 0 d.buf.avg q) (d.depth q) (d.rd .dropProfileWeight r)
  { d with buf := { d.buf with avg := Tab.set 0 d.buf.avg q a } }

/-- The drop counter of a colour. -/
def redDropReg (c : Nat) : Reg := match c with | 0 => .redDropGreen | 1 => .redDropYellow | _ => .redDropRed

/-! ### Admission to a queue -/

/-- What R193, R194 and R195 say of a frame at its queue: queued and tested, queued under a hold and not tested, or
dropped and counted. -/
inductive QueueGate where
  | open_ | held | down
  deriving DecidableEq, Repr

def Dev.portGate (d : Dev) (p : Nat) : QueueGate :=
  if d.portUp p then .open_ else if (d.port p).hold.isSome then .held else .down

def Dev.termGate (d : Dev) (g : Nat) : QueueGate :=
  if d.rd .termState g = 2 then .open_ else if (d.term g).hold.isSome then .held else .down

/-- The queue of a descriptor (R211): the terminal's, the port's, or the host's. -/
def Desc.queueNo (x : Desc) : Nat :=
  match x.destKind with
  | 0 => upQueue x.dest x.queue
  | 1 => downQueue (x.dest / 4096) x.queue
  | _ => hostQueue

/-- The gate and drop counter of a descriptor's destination. DEST of a terminal holds it in bits 25:12. -/
def Dev.gateOf (d : Dev) (x : Desc) : QueueGate × Option (Reg × Nat) :=
  match x.destKind with
  | 0 => (d.portGate x.dest, some (.downDrop, x.dest))
  | 1 => (d.termGate (x.dest / 4096), some (.termDownDrop, x.dest / 4096))
  | _ => (.open_, none)

/-- A port's hold ends flushed (R193). -/
def Dev.endPortHold (d : Dev) (n p : Nat) : Dev :=
  ((d.wr .holdState p 2).modPort p fun x => { x with hold := none }).flushPort n p

/-- A terminal's hold ends with its queues flushed (R194). -/
def Dev.endTermHold (d : Dev) (n g : Nat) : Dev := (d.modTerm g fun x => { x with hold := none }).flushTerm n g

/-- A hold that has run its time by tick `n` has ended flushed. -/
def Dev.settlePortHold (d : Dev) (n p : Nat) : Dev :=
  match (d.port p).hold with
  | some (at_, ms) => if at_ + msTicks ms ≤ n then d.endPortHold n p else d
  | none => d

def Dev.settleTermHold (d : Dev) (n g : Nat) : Dev :=
  match (d.term g).hold with
  | some (at_, ms) => if at_ + msTicks ms ≤ n then d.endTermHold n g else d
  | none => d

/-- The hold of a descriptor's destination, judged at tick `n`. -/
def Dev.settleHold (d : Dev) (n : Nat) (x : Desc) : Dev :=
  match x.destKind with
  | 0 => d.settlePortHold n x.dest
  | 1 => d.settleTermHold n (x.dest / 4096)
  | _ => d

/-- A stored frame is queued (R191, R193-R195, R209): down drop, then meter, then random early drop, then the queue.
Answers whether it was queued. -/
def Dev.enqueue (d : Dev) (n k : Nat) : Bool × Dev :=
  match d.desc k with
  | none => (false, d)
  | some x =>
    let d := d.settleHold n x
    let q := x.queueNo
    match d.gateOf x with
    | (.down, cnt) =>
      let d := match cnt with
        | some (r, i) => if x.copy then d else d.bump r i
        | none => d
      (false, d.dropDesc n k 6)
    | (gate, _) =>
      let (colour, drop, d) := if x.meterEn then d.metered n x.meter x.length x.colour else (x.colour, false, d)
      let d := d.follow x.sampled fun f => { f with marks := f.marks / 4 * 4 + colour }
      if drop then (false, (d.bump .meterDrop 0).dropDesc n k 4)
      else
        let d := d.setDesc k { x with colour := colour }
        if x.srcKind == 1 && !x.copy || gate == .held then (true, d.pushQueue q k)
        else
          let r := field (d.win 0x3700 q) 27 5
          let (rnd, d) := d.drawNoise
          let test := d.earlyDrop q r colour (d.descCells k) (rnd % 65536) x.ect
          let d := d.updateAvg q r
          match test with
          | .queue => (true, d.pushQueue q k)
          | .mark => (true, ((d.setDesc k { x with colour := colour, markCe := true }).bump .ecnMarked 0).pushQueue q k)
          | .tail => (false, (d.bump .tailDrop 0).dropDesc n k 3)
          | .early => (false, (d.bump (redDropReg colour) 0).dropDesc n k 3)

/-! ### Mirror copies -/

/-- The sessions that copy frames of a source: kind 1 received on a port, 2 transmitted on a port, 3 of a tree. -/
def Dev.mirrorSessions (d : Dev) (kind i : Nat) : List Nat :=
  (List.range 4).filter fun m => field (d.rd .mirSource m) 30 2 = kind && field (d.rd .mirSource m) 0 5 = i

/-- A copy of frame `k` for session `m` (R185): a second descriptor on the same cells, green, on MIR_PORT. A copy of a
transmitted frame keeps its edit, others are sent unedited; each is marked or dropped by random early drop as its ECN field
says. A copy that finds no descriptor counts in MIR_DROP. -/
def Dev.mirrorCopy (d : Dev) (n k m : Nat) (edited : Bool) : Dev :=
  match d.desc k with
  | none => d
  | some x =>
    if d.buf.copies ≥ 393216 then d.bump .mirDrop m
    else
      let y : Desc := { x with
        destKind := 0, dest := d.rd .mirPort m, queue := d.rd .mirQueue m, domain := d.rd .mirDomain m, colour := 0,
        meterEn := false, copy := true, sample := false, sampled := none, mirror := m, markCe := false, stamp := none,
        oneStep := false, ring := none, action := if edited then x.action else 0, tagged := edited && x.tagged }
      let (c, d) := (d.bump .mirCopies m).addDesc y
      (d.enqueue n c).2

/-- The copies of a received or tree frame, made when the original is queued (R185). -/
def Dev.mirrorQueued (d : Dev) (n k : Nat) : Dev :=
  match d.desc k with
  | none => d
  | some x =>
    let ms := match x.srcKind with
      | 0 => d.mirrorSessions 1 x.srcNum
      | 1 => d.mirrorSessions 3 (treeOfTerm x.srcNum)
      | _ => []
    d.each ms fun d m => d.mirrorCopy n k m false

/-- A frame made by the device is stored and queued (R60, R65, R233, R308): its pool, destination, domain. -/
def Dev.queueDevice (d : Dev) (n pool kind dest queue domain : Nat) (bytes : Bytes) (oneStep : Bool)
    (ring : Option Nat) : Bool × Dev :=
  let length := max 64 (bytes.length + 4)
  match d.storeFrame n pool length bytes with
  | (none, d) => (false, d)
  | (some (chain, d), _) =>
    let x : Desc :=
      { chain := chain, length := length, destKind := kind, dest := dest, domain := domain, queue := queue, colour := 0,
        meterEn := false, meter := 0, entry := 0, version := 0, hash := 0, srcKind := 2, srcNum := 0, pool := pool,
        copy := false, tagged := false, poison := false, sample := false, markCe := false, ipOff := 0,
        arrival := n % 2 ^ 48, action := 0, stamp := none, rxTime := 0, oneStep := oneStep, ring := ring, sampled := none,
        mirror := 0, ect := false }
    let (k, d) := d.addDesc x
    d.enqueue n k

end Sys2Proof.Machine
end

