-- ==== Sys2Proof/Machine/Terminals.lean ====
section
/-!
DEFINITION. Terminal states and their transitions (R67-R69, R83, R175, R194), tree and terminal defects (R53-R55), uplink
indications (R59, R60), messages toward the host on the Overhead Serial Ports (R61-R64), and durable records (R268).
-/
namespace Sys2Proof.Machine
open Sys2Proof

/-! ### Durable records -/

/-- An active unit makes a durable record with the next DSEQ and keeps it until it is acknowledged (R267, R268). -/
def Dev.durable (d : Dev) (n : Nat) (r : Nat → MirrorRecord) : Dev :=
  if d.rd .unitRole 0 = 1 then
    let k := (d.rd .dseqSent 0 + 1) % 2 ^ 32
    let d := d.wr .dseqSent 0 k
    { d with mate := { d.mate with unacked := d.mate.unacked ++ [(n, r k)] } }
  else d

/-- The record of a terminal: state, ONU_ID, equalisation delay, BP_ENTRY (R267). -/
def Dev.mirrorTerm (d : Dev) (n g : Nat) : Dev :=
  d.durable n fun k => .terminal k g (d.rd .termState g) (d.rd .onuId g) (d.rd .eqdBits g) (d.rd .bpEntry g)

/-! ### Overhead Serial Ports, toward the host -/

/-- The bytes of R61 before the CRC, `length` being what the LENGTH field says. -/
def ospHead (type flags terminal sfc length : Nat) (payload : Bytes) : Bytes :=
  [type, flags] ++ toBytes 2 terminal ++ toBytes 2 length ++ toBytes 4 sfc ++ payload

/-- A message of R61, before flags and escapes. -/
def ospFrame (type flags terminal sfc : Nat) (payload : Bytes) : Bytes :=
  let b := ospHead type flags terminal sfc payload.length payload
  b ++ toBytes 4 (crc32 b)

/-- The escapes of R62. -/
def ospEscape (m : Bytes) : Bytes :=
  m.flatMap fun b => if b = 0x7E then [0x7D, 0x5E] else if b = 0x7D then [0x7D, 0x5D] else [b]

/-- What ends a message on the wire (R62): a flag, or the ABORT marker with its reason, and a flag. -/
def ospTail : Option Nat → Bytes
  | none => [0x7E]
  | some reason => [0x7D, 0xAB, reason, 0x7E]

/-- A message on the wire: a flag, the escaped bytes, the end. -/
def ospWire (m : Bytes) (stop : Option Nat) : Bytes := 0x7E :: ospEscape m ++ ospTail stop

/-- Bits a second of OSP_RATE. -/
def ospBps (code : Nat) : Nat := match code with | 0 => 100000000 | 1 => 200000000 | _ => 400000000

def Dev.osp (d : Dev) (p : Nat) : Osp := Tab.get {} d.osps p
def Dev.modOsp (d : Dev) (p : Nat) (f : Osp → Osp) : Dev := { d with osps := Tab.set {} d.osps p (f (d.osp p)) }

/-- Bytes in the units of `Osp`: 1/1,244,160,000 bit. -/
def ospUnits (bytes : Nat) : Nat := bytes * 8 * 1244160000

/-- What a port's store holds at tick `n`, in those units: it drains at OSP_RATE. -/
def Dev.ospHeld (d : Dev) (n p : Nat) : Nat := (d.osp p).held - ospBps (d.rd .ospRate p) * (n - (d.osp p).at_)

/-- The messages that have bytes left in a store that holds `held`, oldest first. -/
def ospLive (held : Nat) : List OspMessage → List OspMessage
  | [] => []
  | m :: rest => if ((rest.map fun x => ospUnits x.wire.length).sum) < held then m :: rest else ospLive held rest

/-- The 512 KiB store in those units (R64). -/
def ospStore : Nat := ospUnits 524288

/-- Bytes join a port's store. -/
def Dev.ospPut (d : Dev) (n p terminal : Nat) (dropping : Bool) (wire : Bytes) : Dev :=
  let held := d.ospHeld n p
  d.modOsp p fun x => {
    held := held + ospUnits wire.length, at_ := n, dropping := dropping,
    messages := ospLive held x.messages ++ [⟨terminal, wire⟩] }

/-- An ABORT marker has ended a message: it is counted and raised (R62, R64). -/
def Dev.ospAborted (d : Dev) (n p terminal reason : Nat) (wire : Bytes) : Dev :=
  ((d.bump .txAborts p).emit (.ospAbort p terminal reason wire)).event n (439 + p) reason

/-- A message leaves on a port, whole or cut off with the ABORT marker (R62, R63); or it meets a full store (R64): the one that
overflows it is aborted with reason 0x03, and those that follow are dropped whole until space returns. -/
def Dev.ospTransmit (d : Dev) (n p terminal : Nat) (m : Bytes) (stop : Option Nat) : Dev :=
  let wire := ospWire m stop
  let held := d.ospHeld n p
  if held + ospUnits wire.length ≤ ospStore then
    let d := d.ospPut n p terminal false wire
    match stop with
    | none => (d.bump .txMessages p).emit (.ospMessage p wire)
    | some reason => d.ospAborted n p terminal reason wire
  else if (d.osp p).dropping then (d.bump .txOverflow p).event n (439 + p) 3
  else
    let cut := wire.take ((ospStore - held) / ospUnits 1) ++ ospTail (some 3)
    (d.ospPut n p terminal true cut).ospAborted n p terminal 3 cut

/-- A whole message leaves on a port. -/
def Dev.ospSend (d : Dev) (n p terminal : Nat) (m : Bytes) : Dev := d.ospTransmit n p terminal m none

/-- The reset of some trees aborts their message that a port is sending (R62, R64): what the port has not sent of it is lost. -/
def Dev.ospReset (d : Dev) (n : Nat) (ts : List Nat) (p : Nat) : Dev :=
  let held := d.ospHeld n p
  match ospLive held (d.osp p).messages with
  | [] => d
  | m :: rest =>
    if ts.contains (treeOfTerm m.terminal) then
      let later := (rest.map fun x => ospUnits x.wire.length).sum
      let sent := m.wire.take ((ospUnits m.wire.length - (held - later)) / ospUnits 1)
      let wire := sent ++ ospTail (some 4)
      let left : OspMessage := ⟨m.terminal, ospTail (some 4)⟩
      (d.modOsp p fun x => { x with
        held := ospUnits left.wire.length + later, at_ := n, messages := left :: rest }).ospAborted n p m.terminal 4 wire
    else d

/-- The EVENT message of a terminal defect (R55, R61). -/
def Dev.termEvent (d : Dev) (n g on : Nat) : Dev :=
  let p := d.rd .ospPort (treeOfTerm g)
  d.ospSend n p g (ospFrame 0x04 0 g (d.rd .superframe 0) [d.rd .termDefects g, on])

/-! ### Holds of terminals (R194) -/

/-- A terminal's hold begins: TERM_HOLD_MS of its tree; 0 flushes at once, as R193 states for a port. -/
def Dev.startTermHold (d : Dev) (n g : Nat) : Dev :=
  let ms := d.rd .termHoldMs (treeOfTerm g)
  if ms = 0 then d.flushTerm n g else d.modTerm g fun x => { x with hold := some (n, ms) }

/-! ### Addresses of a terminal (R175) -/

/-- Removing the dynamic entries that `p` selects. -/
def Dev.removeAddrs (d : Dev) (p : Nat × AddrEntry → Bool) : Dev :=
  { d with addr := { d.addr with entries := d.addr.entries.filter fun e => e.2.static || !p e } }

/-- Removing the dynamic entries of terminal `g`, counted in FLUSHED. -/
def Dev.flushAddrs (d : Dev) (g : Nat) : Dev :=
  let mine : Nat × AddrEntry → Bool := fun e => e.2.kind == 1 && e.2.dest / 4096 == g
  (d.removeAddrs mine).add .flushed 0 (d.addr.entries.filter fun e => !e.2.static && mine e).length

/-- ADDR_TABLE is locked: the Learning Engine and the ager stand still (R161). -/
def Dev.addrLocked (d : Dev) : Bool := d.mgmt.locks.any fun l => l.index == 0x3602

/-- Every dynamic entry whose destination is terminal `g`, once the engine may write. -/
def Dev.flushTermAddrs (d : Dev) (g : Nat) : Dev :=
  if d.addrLocked then { d with addr := { d.addr with queue := d.addr.queue ++ [.terminal g] } }
  else d.flushAddrs g

/-! ### Uplink indications (R59, R60) -/

/-- The indication word. -/
def Dev.indicationWord (d : Dev) (t event : Nat) : Nat :=
  let b := d.rd .treeDefects t
  t * 2 ^ 24 + (d.tree t).indSeq % 256 * 2 ^ 16 + b % 2 * 128 + b / 2 % 2 * 64 + b / 4 % 2 * 32 + b / 8 % 2 * 16 + event

/-- Writing bytes over a frame at an offset. -/
def overlay (frame : Bytes) (off : Nat) (bs : Bytes) : Bytes :=
  frame.take off ++ bs ++ frame.drop (off + bs.length)

/-- The indication of tree `t` queued last at tick `n` goes before those of higher trees of the same tick (R60). -/
def Dev.orderIndication (d : Dev) (n t q : Nat) : Dev :=
  match (d.queue q).reverse with
  | [] => d
  | k :: rest =>
    let later := rest.takeWhile fun j => (d.desc j).any fun x =>
      x.arrival == n % 2 ^ 48 && x.indication.any fun u => decide (t < u)
    let d := match d.desc k with
      | some x => d.setDesc k { x with indication := some t }
      | none => d
    d.setQueue q ((rest.drop later.length).reverse ++ [k] ++ later.reverse)

/-- An indication is composed and queued (R59, R60). An OFFSET outside the frame leaves its content open (DESIGN CHOICE, log
row 3). -/
def Dev.indicate (d : Dev) (n t event : Nat) : Dev :=
  let len := d.rd .indLength t
  let off := d.rd .indicationOffset t
  let (frame, d) :=
    if 14 ≤ off ∧ off + 4 ≤ len then
      (overlay ((toBytes 508 (d.rd .indTemplate t)).take len) off (toBytes 4 (d.indicationWord t event)), d)
    else let (v, d) := d.draw; (toBytes len v, d)
  let d := d.modTree t fun x => { x with indSeq := (x.indSeq + 1) % 256, indAt := n, indEvent := event }
  let before := d.rd .noBuffer 33
  let (queued, d) := d.queueDevice n 33 0 (d.rd .indPort t) (d.rd .indQueue t) (d.rd .indDomain t) frame false none
  let d := d.when queued fun d => d.orderIndication n t (upQueue (d.rd .indPort t) (d.rd .indQueue t))
  if d.rd .noBuffer 33 = before then d.bump .indSent t else d.bump .indLost t

/-! ### Tree defects -/

/-- A defect declared marks the running performance second: bit 3, RDI, makes it errored, every other severely errored
(R57). -/
def Pm.mark (p : Pm) (b : Nat) : Pm := if b = 3 then { p with rdi := true } else { p with defect := true }

/-- A tree defect (bit `b`: 0 LOS, 1 LOF, 2 AIS, 3 RDI) changes state: its bit, DEFECT_EVENTS, the tree's fault source,
and the indication when ENABLE_MASK selects it (R53, R55, R59). Where it holds already, its source, which a shut tree does not
evaluate (R283), sets if it has not. -/
def Dev.setTreeDefect (d : Dev) (n t b : Nat) (on : Bool) : Dev :=
  if bitAt (d.rd .treeDefects t) b = on then d.when on fun d => d.raiseLevel n { source := 8 * t + b }
  else
    let d := d.wr .treeDefects t (setBit (d.rd .treeDefects t) b on)
    let d := d.when on fun d => d.modTree t fun x => { x with pm := x.pm.mark b }
    let d := if on then (d.bump .defectEvents t).raiseLevel n { source := 8 * t + b } else d.dropLevel (8 * t + b)
    d.when (bitAt (d.rd .enableMask t) b) fun d => d.indicate n t (ofBool on)

/-- Tree RDI judged afresh (R53): every terminal in OPERATION, at least one, has RDIi declared. -/
def Dev.judgeRdi (d : Dev) (n t : Nat) : Dev :=
  let ops := (termsOfTree t).filter fun g => d.inState g 2
  d.setTreeDefect n t 3 (!ops.isEmpty && ops.all fun g => bitAt (d.rd .termDefects g) 3)

/-! ### Terminal states -/

/-- A terminal is back in OPERATION: the hold that still runs ends, and its queues are served from the next decision on (R194,
R215); one that has run its time ended flushed. -/
def Dev.resumeTerm (d : Dev) (n g : Nat) : Dev :=
  let d := d.settleTermHold n g
  d.modTerm g fun x => { x with hold := none, resumedAt := if x.hold.isSome then some n else x.resumedAt }

/-- A terminal takes state `st` (R67): the hold of R194 starts or ends, addresses leave (R175), tree RDI is judged
(R53), and the change is mirrored (R267). -/
def Dev.setTermState (d : Dev) (n g st : Nat) : Dev :=
  let old := d.rd .termState g
  if old = st then d
  else
    let d := d.wr .termState g st
    let d := if st = 2 then d.resumeTerm n g else d
    let d := if old = 2 ∧ st ≠ 4 then d.startTermHold n g else d
    let d := if st = 4 then d.endTermHold n g else d
    let d := if st = 0 ∨ st = 4 then d.flushTermAddrs g else d
    let d := if old = 2 ∨ st = 2 then d.judgeRdi n (treeOfTerm g) else d
    d.mirrorTerm n g

/-- An outstanding equalisation-delay update whose message has not passed header lock is not sent (R78). -/
def Dev.dropUpdate (d : Dev) (g : Nat) : Dev :=
  let id := d.rd .onuId g
  let d := match (d.term g).update with
    | some (_, none) => d.modTree (treeOfTerm g) fun x => { x with ranging := x.ranging.filter fun m =>
        match m with
        | .eqDelayUpdate i _ _ => i != id
        | _ => true }
    | _ => d
  d.modTerm g fun x => { x with update := none }

/-- Bursts of sealed maps that go to a terminal no longer served are orphans (R111). The grants of a map under construction stay
ordinary grants of it: R111 speaks of sealed maps alone (DESIGN CHOICE, log row 98). -/
def Map.orphan (m : Map) (i : Nat) : Map :=
  { m with bursts := m.bursts.map fun b =>
      if b.terminal = i ∧ b.kind ≠ .discovery then { b with orphan := true } else b }

def Dev.orphanBursts (d : Dev) (g : Nat) : Dev :=
  d.modTree (treeOfTerm g) fun x => { x with
    maps := x.maps.map fun m => m.orphan (g % 512), rangeWanted := x.rangeWanted.filter (· != g) }

/-- A terminal leaves service: an outstanding update, its bursts to come, its filter, timers and runs go (R78, R111). Its
hold and performance second stay. -/
def Dev.retireTerm (d : Dev) (g : Nat) : Dev :=
  ((d.dropUpdate g).orphanBursts g).modTerm g fun x =>
    ({ hold := x.hold, pm := x.pm, lastEntry := x.lastEntry, ploamAt := x.ploamAt } : Term)

/-- A terminal in EMPTY has forgotten its equalisation delay and burst-profile position as well (R67). -/
def Dev.forgetTerm (d : Dev) (g : Nat) : Dev := ((d.retireTerm g).wr .eqdBits g 0).wr .bpEntry g 0

/-- A terminal returns to EMPTY (R67, R68), with a deactivation message where its tree is not dark. -/
def Dev.toEmpty (d : Dev) (n g : Nat) (message : Bool) : Dev :=
  let d := if message then d.seqMsg (treeOfTerm g) (.deactivate (d.rd .onuId g)) else d
  (d.forgetTerm g).setTermState n g 0

/-- A terminal enters QUARANTINE (R83): its disable message goes in three consecutive frames. -/
def Dev.toQuarantine (d : Dev) (n g : Nat) : Dev :=
  let d := (d.retireTerm g).setTermState n g 4
  d.modTerm g fun x => { x with disableLeft := 3 }

/-- OPERATION to LOST (R68). -/
def Dev.toLost (d : Dev) (n g : Nat) (byTree : Bool) : Dev :=
  if d.inState g 2 then
    let d := d.setTermState n g 3
    d.modTerm g fun x => { x with
      lostAt := some n, lostTicks := msTicks (d.rd .lostTimeout (treeOfTerm g)), treeLos := byTree }
  else if d.inState g 3 ∧ byTree = true then d.modTerm g fun x => { x with treeLos := true }
  else d

/-- LOST to OPERATION (R68): the delay and entry are kept. -/
def Dev.fromLost (d : Dev) (n g : Nat) : Dev :=
  if d.inState g 3 then (d.modTerm g fun x => { x with lostAt := none, treeLos := false }).setTermState n g 2 else d

/-- RANGING begins (R68): the tries and RANGE_TIMEOUT start, and the Ranging Engine wants a grant (R74). -/
def Dev.toRanging (d : Dev) (n g : Nat) (windowPs : Int) : Dev :=
  let t := treeOfTerm g
  let d := (d.dropUpdate g).modTerm g fun x => { x with
    triesLeft := d.rd .rangeTries t, rangeAt := some n, lostTicks := msTicks (d.rd .rangeTimeout t),
    tryFrame := 0, eqdSent := none, jumpRun := 0, filter := 0, windowPs := windowPs, lostAt := none, treeLos := false }
  let d := d.modTree t fun x => { x with rangeWanted := x.rangeWanted.filter (· != g) ++ [g] }
  d.setTermState n g 1

/-! ### Terminal defects (R53-R55) -/

/-- A terminal defect (bit `b`: 0 LOSi, 1 LOFi, 3 RDIi) changes state: the state bit, the EVENT message, the transition
of R68, and tree RDI. A terminal returns from LOST when neither LOSi nor LOFi is declared and tree LOS did not put it
there. -/
def Dev.setTermDefect (d : Dev) (n g b : Nat) (on : Bool) : Dev :=
  if bitAt (d.rd .termDefects g) b = on then d
  else
    let d := (d.wr .termDefects g (setBit (d.rd .termDefects g) b on)).termEvent n g (ofBool on)
    let d := d.when on fun d => d.modTerm g fun x => { x with pm := x.pm.mark b }
    if b = 3 then d.judgeRdi n (treeOfTerm g)
    else if on then d.toLost n g false
    else if d.rd .termDefects g % 4 = 0 ∧ (d.term g).treeLos = false then d.fromLost n g
    else d

/-- The counts a mask resets (R54). -/
def Dev.maskTerm (d : Dev) (n g : Nat) (los : Bool) : Dev :=
  let d := if los then d.setTermDefect n g 0 false else d
  let d := (d.setTermDefect n g 1 false).setTermDefect n g 3 false
  if d.term g = {} then d
  else d.modTerm g fun x => { x with
    missRun := if los then 0 else x.missRun, lockRun := if los then 0 else x.lockRun,
    unframedRun := 0, framedRun := 0, rdiRun := 0, noRdiRun := 0 }

/-- Tree LOS declared (R53, R54, R68): every terminal in OPERATION goes to LOST; LOF and the terminal defects are
masked. -/
def Dev.declareLos (d : Dev) (n t : Nat) : Dev :=
  let d := (d.setTreeDefect n t 0 true).modTree t fun x => { x with losSet := none, losClr := none, judged := none }
  let d := d.each (termsOfTree t) fun d g => d.toLost n g true
  let d := (d.setTreeDefect n t 1 false).modTree t fun x => { x with lofSet := none, lofClr := none }
  d.each (termsOfTree t) fun d g => d.maskTerm n g true

/-- Tree LOF declared: the terminals' LOFi and RDIi are masked. -/
def Dev.declareLof (d : Dev) (n t : Nat) : Dev :=
  ((d.setTreeDefect n t 1 true).modTree t fun x => { x with lofSet := none, lofClr := none }).each (termsOfTree t) fun d g => d.maskTerm n g false

/-! ### A tree goes dark (R67, R361) -/

/-- Sequencer messages that outlive a dark tree: key switches (R361). -/
def Ploam.isKeySwitch : Ploam → Bool
  | .keySwitch _ _ _ => true
  | _ => false

/-- Demand, owed bytes and buckets of a tree's allocations cleared (R111). -/
def Dev.clearAllocs (d : Dev) (t : Nat) : Dev :=
  d.each ((List.range 2048).map (t * 2048 + ·)) fun d a =>
    if d.alloc a = {} && d.rd .allocDemand a == 0 && d.rd .owedBytes a == 0 then d
    else ((d.modAlloc a fun _ => {}).wr .allocDemand a 0).wr .owedBytes a 0

/-- Host messages, which a dark tree keeps (R361). -/
def Ploam.isHost : Ploam → Bool
  | .host _ _ _ => true
  | _ => false

/-- The messages of a tree that goes dark (R361): the Ranging Engine's and the Sequencer's are discarded, key switches and host
messages kept, those already fixed in the header of a frame that is not sent among them, back at the head of their queues
(DEDUCED, log row 94). An entry whose announcement is discarded so is not announced. -/
def Tree.keepPloam (x : Tree) : Tree :=
  let gone := x.locked.filterMap fun m => match m with
    | .profileAnnounce e => some e
    | _ => none
  let host := x.locked.filter Ploam.isHost
  { x with
    ranging := [], sequencer := (x.locked ++ x.sequencer).filter Ploam.isKeySwitch, hostMsgs := host ++ x.hostMsgs, locked := [],
    creditDue := x.creditDue || !host.isEmpty,
    announced := x.announced.filter fun e => !gone.contains e }

/-- A tree goes dark: transmit disable, no PLOAM message, every terminal EMPTY with no message (R67), its messages as R361
says; `clear` also clears what R111 clears at a restart, profile change or reset. The timings of LOS and LOF end; a declared
defect of the tree or of a terminal stays declared until its clear condition holds (DEDUCED, log row 15). Frames in the Line
Framer's payload stay there and are sent after the relight (DESIGN CHOICE, log row 95). -/
def Dev.darken (d : Dev) (n t : Nat) (clear : Bool) : Dev :=
  let d := d.wr .txdisNow (quadOf t) (setBit (d.rd .txdisNow (quadOf t)) (t % 4) true)
  let d := d.modTree t fun x => { x.keepPloam with
    lit := false, building := none, lockedMap := none, room := 0, payloadBytes := 0,
    rangeWanted := [], windowFrame := none, rogueHist := [], losSet := none, losClr := none, lofSet := none,
    lofClr := none, judged := none, rxrst := none }
  let d := d.each (termsOfTree t) fun d g => if d.rd .termState g = 0 then d else d.toEmpty n g false
  if clear then
    ((d.forgetKeystream t).modTree t fun x => { x with maps := [], credit := none }).clearAllocs t
  else d

end Sys2Proof.Machine
end

