-- ==== Sys2Proof/Machine/Links.lean ====
section
/-!
DEFINITION. Ports and the mate link coming up and going down (R193, R198, R249, R251, R261), their lanes' stages, and the
recovered clock's squelch (R239).
-/
namespace Sys2Proof.Machine
open Sys2Proof

/-- The lanes of the mate link, M0-M3 (R14). -/
def mateLanes : List Nat := [16, 17, 18, 19]

/-- A lane enters a stage at tick `n` (R249); in stage 3 its peaking begins at CTLE_SET (R245). -/
def Dev.setStage (d : Dev) (n st l : Nat) : Dev :=
  let d := if st = 3 then d.wr .ctleNow l (d.rd .ctleSet l) else d
  (d.wr .laneState l st).modLane l fun x => { x with stageAt := n, done := false, idle := false, exitAt := none }

/-- An enabled lane that is calibrated begins at stage 1; one that is not waits in stage 0 (R249, R253). -/
def Dev.startLane (d : Dev) (n l : Nat) : Dev :=
  d.setStage n (if (d.lane l).calibrated && !(d.lane l).calibrating then 1 else 0) l

/-- The lane of the recovered clock is lost (R239): also one that was lost before and whose clock was about to return. -/
def Dev.squelch (d : Dev) (n : Nat) : Dev :=
  if d.rd .rclkSrc 0 = 255 ∨ (d.rd .rclkState 0 = 2 ∧ d.gnomon.rclkUntil = none) then d
  else
    let d := ((d.wr .rclkState 0 2).bump .squelches 0).raiseLevel n { source := 423 }
    { d with gnomon := { d.gnomon with rclkUntil := none } }

/-- The lane the recovered clock is taken from regains lock: the clock returns 10 ms later (R239). -/
def Dev.rclkRegain (d : Dev) (n : Nat) : Dev := { d with gnomon := { d.gnomon with rclkUntil := some (n + msTicks 10) } }

/-- A port may run: enabled, and neither shut by S2 nor by the DEVICE reaction (R283). -/
def Dev.portAllowed (d : Dev) (p : Nat) : Bool :=
  d.on .portEnable p && !d.portShut p && d.faults.device != 2

/-- The pause bits that a port advertises by what it enables, as (PAUSE, ASM_DIR), and what Annex 28B resolves with the partner's,
as received and sent (R249; PRESUMED, log row 113). -/
def pauseBits (rx tx : Bool) : Bool × Bool := (rx, rx != tx)
def resolvePause (own partner : Bool × Bool) : Bool × Bool :=
  if own.1 && partner.1 then (true, true)
  else if own.2 && partner.2 then (own.1 && !partner.1, partner.1 && !own.1)
  else (false, false)

/-- The pages of clause 73 that a port sends while its lowest lane is in stage 1 (R249, R250). -/
def Dev.advertise (d : Dev) (n p : Nat) : Dev :=
  let b := pauseBits (d.on .pauseRxEnable p) (d.on .pauseTxEnable p)
  (d.modPort p fun x => { x with triedAt := n }).emit
    (.advertise p (d.rd .portWidth 0) (d.rd .medium p) b.1 b.2 (d.rd .partRevision 0) (Config.partFunctions % 2 ^ 32))

/-- Auto-negotiation begins on a port whose lowest lane has come to stage 1. -/
def Dev.negotiate (d : Dev) (n p : Nat) : Dev :=
  if d.on .anEnable p && d.rd .laneState ((d.lanesOf p).headD 0) == 1 && (d.port p).negotiated.isNone then d.advertise n p else d

/-- The lanes of a port go to their first stage, or to stage 0 where the port may not run. A number that the current width has no
port for names no lanes (R14). -/
def Dev.restartPort (d : Dev) (n p : Nat) : Dev :=
  if d.portCount ≤ p then d
  else
  let d := (d.wr .partnerFinuno p 0).each (d.lanesOf p) fun d l =>
    if d.portAllowed p then d.startLane n l else d.setStage n 0 l
  (d.modPort p fun x => { x with partnerCap := false, retryAt := 0, negotiated := none, capAt := none }).negotiate n p

/-- A port that was up begins its hold (R193); HOLD_MS 0 flushes at once. -/
def Dev.startPortHold (d : Dev) (n p : Nat) : Dev :=
  let ms := d.rd .holdMs p
  if ms = 0 then ((d.wr .holdState p 2).modPort p fun x => { x with hold := none }).flushPort n p
  else (d.wr .holdState p 1).modPort p fun x => { x with hold := some (n, ms) }

/-- A port goes down (R251): the frame being sent is lost, its hold starts, LAG buckets move, a recovered clock taken from
it is squelched, its lanes begin again. A port going down, and an enabled one that is down, is its link fault. -/
def Dev.portDown (d : Dev) (n p : Nat) : Dev :=
  let up := d.portUp p
  let d :=
    if up then
      let d := ((d.bump .linkDowns p).settleSend n p).loseSend n p
      let d := ((d.wr .portState p 0).modPort p fun x => { x with revertAt := none }).startPortHold n p
      let d := d.moveBuckets p
      if d.rd .rclkSrc 0 < 16 ∧ d.portOfLane (d.rd .rclkSrc 0) = p then d.squelch n else d
    else d
  let d := d.restartPort n p
  let d := if up || d.on .portEnable p then d.raiseLevel n { source := 304 + 4 * p, index := p } else d
  if d.on .portEnable p then d else d.dropLevel (304 + 4 * p)

/-- A port comes up (R249): service resumes where its hold still runs; at its expiry the queues are flushed (R195). -/
def Dev.portComesUp (d : Dev) (n p : Nat) : Dev :=
  let d := d.settlePortHold n p
  let d := ((d.wr .portState p 1).wr .holdState p 0).modPort p fun x => { x with
    hold := none, upAt := n, resumedAt := if x.hold.isSome then some n else x.resumedAt }
  let d := d.dropLevel (304 + 4 * p)
  let d := match d.groupOfPort p with
    | none => d
    | some a =>
      let due := if d.on .revert a then some (n + msTicks (d.rd .revertMs a)) else none
      (d.modPort p fun x => { x with revertAt := due, lost := if due.isSome then x.lost else [] }).gatherBuckets a p
  if d.rd .rclkSrc 0 < 16 ∧ d.portOfLane (d.rd .rclkSrc 0) = p then d.rclkRegain n else d

/-- The mate link may run. -/
def Dev.mateAllowed (d : Dev) : Bool := d.on .mateEnable 0 && !d.mateShut

/-- The mate lanes go to their first stage, or to stage 0. -/
def Dev.restartMate (d : Dev) (n : Nat) : Dev :=
  let d := d.each mateLanes fun d l => if d.mateAllowed then d.startLane n l else d.setStage n 0 l
  { d with mate := { d.mate with capability := false, retryAt := 0 } }

/-- The mate link goes down (R251, R261): all four lanes begin again; LOS is timed from here (R53). -/
def Dev.mateDown (d : Dev) (n : Nat) : Dev :=
  let d := (d.wr .mateState 0 0).restartMate n
  let d := { d with mate := { d.mate with
    hunt := true, huntSince := n, held := none, lastBad := false, losSet := some ⟨n, d.rd .mateLineLosSet 0⟩, losClr := none } }
  if d.on .mateEnable 0 then d.raiseLevel n { source := 398 } else d.dropLevel 398

/-- The mate link comes up. -/
def Dev.mateComesUp (d : Dev) (n : Nat) : Dev :=
  let d := (d.wr .mateState 0 1).dropLevel 398
  { d with mate := { d.mate with losSet := none, losClr := some ⟨n, d.rd .mateLineLosClear 0⟩, huntSince := n } }

/-- A port (0-15) or the mate link (16) as the element of a lane. -/
def Dev.laneHome (d : Dev) (l : Nat) : LinkId := if l < 16 then .port (d.portOfLane l) else .mate

/-- The lanes of a link. -/
def Dev.linkLanes (d : Dev) : LinkId → List Nat
  | .port p => d.lanesOf p
  | .mate => mateLanes

/-! ### Electrical idle (R254) -/

/-- PORT_STATE or MATE_STATE: 2 while every lane is idle. -/
def Dev.showIdle (d : Dev) (k : LinkId) : Dev :=
  let v := if (d.linkLanes k).all fun l => (d.lane l).idle then 2 else 1
  match k with
  | .port p => if d.rd .portState p = 0 then d else d.wr .portState p v
  | .mate => if d.rd .mateState 0 = 0 then d else d.wr .mateState 0 v

/-- An idle lane leaves idle: a training burst of 2 us, after which frames go. -/
def Dev.wakeLane (d : Dev) (n l : Nat) : Dev :=
  if (d.lane l).idle then
    (d.modLane l fun x => { x with idle := false, exitAt := some (n + 2489) }).emit (.trainingBurst l)
  else d

/-- A frame of a link is ready at tick `n`: its idle lanes send their bursts, and the frame leaves when every burst has ended. -/
def Dev.wakeLink (d : Dev) (n : Nat) (k : LinkId) : Nat × Dev :=
  let d := (d.each (d.linkLanes k) fun d l => d.wakeLane n l).showIdle k
  ((d.linkLanes k).foldl (fun m l => max m ((d.lane l).exitAt.getD 0)) n, d)

end Sys2Proof.Machine
end

