-- ==== Sys2Proof/Machine/TreeCtl.lean ====
section
/-!
DEFINITION. Lighting and restarting trees (R35, R50, R79, R340, R341, R361) and long operations (R314).
-/
namespace Sys2Proof.Machine
open Sys2Proof

/-! ### Burst-profile defaults (R79) -/

/-- Repeat counts of entries 0-3, by profile; XGS coexistence has its own. -/
def defaultRepeat (profile rate e : Nat) : Nat :=
  if rate = 3 then [16, 8, 4, 4].getD e 0
  else match profile with
    | 1 => [16, 8, 4, 4].getD e 0
    | 2 => [32, 24, 16, 8].getD e 0
    | _ => [32, 16, 8, 8].getD e 0

/-- FEC flags: on but for entry 3 outside REACH. -/
def defaultFec (profile e : Nat) : Nat := if e = 3 ∧ profile ≠ 2 then 0 else 1

def defaultDelimiter (e : Nat) : Nat :=
  [0xB7A2D4096E1FC358, 0x4D39E6710BAC952E, 0x8E5327F01CB964DA, 0x36C87B95E20D4AB1].getD e 0

/-- The four entries of a tree loaded with the defaults of its profile and rate; only entry 0 is valid. -/
def Dev.loadEntries (d : Dev) (t : Nat) : Dev :=
  let profile := d.treeProfile t
  let rate := d.upRate t
  let d := d.each (List.range 4) fun d e =>
    let i := 4 * t + e
    (((((d.wr .bpRate i rate).wr .bpPreamble i 0x5555555555555555).wr .bpRepeat i (defaultRepeat profile rate e)).wr
      .bpDelimiter i (defaultDelimiter e)).wr .bpFec i (defaultFec profile e)).wr .bpValid i (if e = 0 then 1 else 0)
  d.modTree t fun x => { x with announced := [0] }

/-! ### Lighting -/

/-- A tree may be lit (R264, R283, R336, R341): enabled, powered, not shut, not in reset, its unit ALONE or ACTIVE. -/
def Dev.mayLight (d : Dev) (t : Nat) : Bool :=
  d.on .treeEnable t && d.rd .pdState (quadDomain (quadOf t)) == 2 && !d.treeShut t && !(d.tree t).inReset &&
  !(d.tree t).restarting && !(d.quad (quadOf t)).inReset && (d.quad (quadOf t)).change == 0 &&
  !d.chip.dieReset.contains (dieOf t) && decide (d.rd .unitRole 0 ≤ 1) && d.chip.phase == .up

/-- A terminal of the tree is past serial-number capture. -/
def Dev.anyCaptured (d : Dev) (t : Nat) : Bool :=
  (d.instances .termState).any fun g => treeOfTerm g == t && (d.inState g 1 || d.inState g 2 || d.inState g 3)

/-- A tree runs at another upstream rate than its LINE_MODE (R35). -/
def Dev.forced (d : Dev) (t : Nat) : Bool := d.upRate t != d.rd .lineMode t

/-- A tree lights under its profile (R35): an adaptation is counted, and a tree set for XGS coexistence that runs as a 50G-PON
tree has its entries loaded for that rate (R79). -/
def Dev.adaptTree (d : Dev) (t : Nat) : Dev :=
  if d.forced t then
    (d.bump .rateForced (quadOf t)).when (d.rd .lineMode t == 3) fun d => d.loadEntries t
  else d

/-- A tree lights: transmit disable goes, valid entries are announced where one of them has not been (R50), key-switch
messages whose count has passed go (R361), and an ECONOMY slice with no terminal past capture is gated (R36). -/
def Dev.light (d : Dev) (t : Nat) : Dev :=
  let q := quadOf t
  let sfc := d.rd .superframe 0
  let valid := (List.range 4).filter fun e => d.on .bpValid (4 * t + e)
  let d := d.wr .txdisNow q (setBit (d.rd .txdisNow q) (t % 4) false)
  let d := d.wr .slicesGated q (setBit (d.rd .slicesGated q) (t % 4) (d.treeProfile t == 3 && !d.anyCaptured t))
  let d := d.modTree t fun x => { x with
    lit := true, relightDue := false,
    sequencer := x.sequencer.filter fun m => match m with
      | .keySwitch _ _ s => decide (sfc < s)
      | _ => true }
  if valid.all fun e => (d.tree t).announced.contains e then d
  else d.each valid fun d e => d.seqMsg t (.profileAnnounce e)

/-- A tree lights otherwise than at the end of a profile change, whose step 3 has counted its adaptation. -/
def Dev.lightTree (d : Dev) (t : Nat) : Dev := (d.adaptTree t).light t

/-! ### Long operations -/

/-- Ticks of the maximum durations of R314. -/
def longOpMax (code : Nat) : Nat :=
  msTicks (match code with | 1 => 4 | 2 => 20 | 3 => 10 | 4 => 40 | 5 => 300 | _ => 1200)

/-- A restart of the trees of mask `m` begins: each stops at the next frame start (R340). -/
def Dev.beginRestarts (d : Dev) (m : Nat) : Dev :=
  d.each (allTrees.filter fun t => bitAt m t) fun d t => d.modTree t fun x => { x with restarting := true }

/-- A profile change of quad `q` to profile `v` begins (R33): PROFILE reads the new value. -/
def Dev.beginProfile (d : Dev) (q v : Nat) : Dev :=
  let d := d.modQuad q fun x => { x with change := 1, formerProfile := d.rd .quadProfile q }
  (d.wr .quadProfile q v).wr .profileState q 1

/-- What a long operation does at its start. The argument of a restart is a tree mask, of a profile change
value x 8 + quad. -/
def Dev.opStarts (d : Dev) (o : LongOp) : Dev :=
  match o.code with
  | 1 => ({ d with mgmt := { d.mgmt with commitReady := none } }).settleCommit o.start
  | 3 => d.beginRestarts o.arg
  | 4 => d.beginProfile (o.arg % 8) (o.arg / 8)
  | _ => d

/-- A long operation starts, or a device-started one waits until the running one ends (R314). -/
def Dev.startOp (d : Dev) (n code arg : Nat) : Dev :=
  let o : LongOp := ⟨code, n, longOpMax code, arg⟩
  if d.mgmt.longOp.isNone then ({ d with mgmt := { d.mgmt with longOp := some o } }).opStarts o
  else { d with mgmt := { d.mgmt with waitingOps := d.mgmt.waitingOps ++ [o] } }

/-- The running operation ends: it is counted with its duration in ms, rounded up, and the next waiting one starts. -/
def Dev.endOp (d : Dev) (n : Nat) : Dev :=
  match d.mgmt.longOp with
  | none => d
  | some o =>
    let d := ((d.bump .longOps 0).wr .lastLongOp 0 o.code).wr .lastLongMs 0 (ceilDiv (n - o.start) 1244160)
    match d.mgmt.waitingOps with
    | [] => { d with mgmt := { d.mgmt with longOp := none } }
    | w :: ws =>
      let w := { w with start := n }
      ({ d with mgmt := { d.mgmt with longOp := some w, waitingOps := ws } }).opStarts w

/-- The operation of a code is the one that runs. -/
def Dev.opRuns (d : Dev) (code : Nat) : Bool :=
  match d.mgmt.longOp with
  | some o => o.code == code
  | none => false

/-- A tree's restart ends (R67, R111, R341): whatever its tree still held is gone, lit or dark; its entries are reloaded (R79), it
relights at the next frame start; the operation ends with the last tree of its mask. -/
def Dev.endRestart (d : Dev) (n t : Nat) : Dev :=
  if (d.tree t).restarting then
    let d := d.darken n t true
    let d := (d.modTree t fun x => { x with restarting := false, relightDue := true }).loadEntries t
    let d := d.bump .treeRestarts t
    if allTrees.all fun t => !(d.tree t).restarting then (if d.opRuns 3 then d.endOp n else d) else d
  else d

end Sys2Proof.Machine
end

