-- ==== Sys2Proof/Machine/MateCore.lean ====
section
/-!
DEFINITION. What a unit sends on the mate paths (R260, R270, R271, R276), its eligibility and role.
-/
namespace Sys2Proof.Machine
open Sys2Proof

/-! ### Eligibility -/

/-- The recorded severities of the sticky bits that are set. -/
def Dev.stickySevs (d : Dev) : List Nat :=
  d.faults.sources.filterMap fun p => if p.2.sticky then some p.2.severity else none

/-- No uncleared fault at S2 or above (R270). -/
def Dev.isEligible (d : Dev) : Bool := d.stickySevs.all fun s => s < 2

/-- MAX_SEV: the highest uncleared severity, 0xFF when none (R270). -/
def Dev.maxSev (d : Dev) : Nat := if d.stickySevs.isEmpty then 0xFF else d.stickySevs.foldl max 0

/-- A mate is present: a path is live (R271). -/
def Dev.matePresent (d : Dev) : Bool := d.rd .pathState 0 % 4 != 0

/-! ### Sealing (R128, R129, R131) -/

/-- The slot of the mate key (R119). -/
def mateSlot : Nat := 32836

/-- The current mate key; none where the slot holds none. -/
def Dev.mateKey (d : Dev) : Option Nat := (d.slot mateSlot).current.map (·.a)

/-- The next nonce under the mate counter: salt, then counter (R129). -/
def Dev.mateNonce (d : Dev) : Nat × Dev :=
  (d.rd .deviceSalt 0 * 2 ^ 64 + d.mate.mateNext,
   { d with mate := { d.mate with mateNext := d.mate.mateNext + 1 } })

/-- A mate header (R260). -/
def mateHeader (length type : Nat) (ais rdi : Bool) (role seq : Nat) : Nat :=
  let bits := length * 2 ^ 37 + type * 2 ^ 33 + ofBool ais * 2 ^ 32 + ofBool rdi * 2 ^ 31 + role * 2 ^ 30 + seq % 65536 * 2 ^ 11
  bits * 2 ^ 13 + Config.headerCheck bits % 2 ^ 13

/-- AIS of the mate header (R260, R264, R265): a warm reset, or redundancy disabled. -/
def Dev.mateAis (d : Dev) : Bool := !d.on .redundancyEnable 0 || d.chip.phase == .warm

/-- The header of the next mate frame, and the device with its sequence advanced by `k` frames. -/
def Dev.nextHeader (d : Dev) (length type k : Nat) : Nat × Dev :=
  (mateHeader length type d.mateAis (d.rd .mateDefects 0 % 4 != 0) (if d.rd .unitRole 0 = 1 then 1 else 0) d.mate.seqTx,
   { d with mate := { d.mate with seqTx := (d.mate.seqTx + k) % 65536 } })

/-- Idle frames fill the link up to tick `at_` (R260); how many is a free value (DESIGN CHOICE, log row 72). -/
def Dev.fillMate (d : Dev) (at_ : Nat) : Dev :=
  let (k, d) := d.draw
  let (h, d) := d.nextHeader 0 0 k
  d.emit (.mateIdle at_ h k)

/-- A mate frame of `length` payload bytes, `payload` of its header, leaves on the lanes at tick `at_`, after the idle frames that
fill the link. -/
def Dev.putMate (d : Dev) (at_ type length : Nat) (payload : Nat → Bytes) : Dev :=
  let (h, d) := (d.fillMate at_).nextHeader length type 1
  ({ d with mate := { d.mate with sentAt := at_ } }).emit (.mateFrame at_ h (payload h))

/-- A payload that is ready at tick `n` is sent when the link is up, once its idle lanes have sent their bursts (R254): `payload` is
given the tick at which the frame leaves and its header. -/
def Dev.sendMate (d : Dev) (n type length : Nat) (payload : Nat → Nat → Bytes) : Dev :=
  if d.rd .mateState 0 = 0 then d
  else
    let (at_, d) := d.wakeLink n .mate
    d.putMate at_ type length (payload at_)

/-- A payload is sealed under the next nonce of the mate counter (R128): its `clear` bytes after the nonce travel open, and the
additional data is the clear part, after the header where `headed` says so (R268, R270). Without a mate key nothing is sent. -/
def Dev.sendSealed (d : Dev) (n type : Nat) (headed : Bool) (clear : Bytes) (length : Nat) (plain : Nat → Bytes) : Dev :=
  match d.mateKey with
  | none => d
  | some k =>
    let (nonce, d) := d.mateNonce
    let lead := toBytes 12 nonce ++ clear
    (d.gcmJob n length).sendMate n type (lead.length + length + 16) fun at_ h =>
      lead ++ Config.gcmSeal k nonce ((if headed then toBytes 8 h else []) ++ lead) (plain at_)

/-! ### Heartbeats (R270, R271) -/

/-- FLAGS of a lane heartbeat. -/
def Dev.heartbeatFlags (d : Dev) (refuse : Bool) : Nat :=
  ofBool (d.rd .unitRole 0 == 1) + 2 * ofBool d.isEligible + 4 * ofBool refuse + 8 * (d.rd .unitId 0 % 2) +
    16 * ofBool (d.rd .unitRole 0 == 3)

/-- The trees that framed a burst in the last frame (BURST_SEEN). -/
def Dev.burstSeenMask (d : Dev) : Nat :=
  (allTrees.filter fun t => (d.tree t).burstSeenLast).foldl (fun m t => m + 2 ^ t) 0

/-- DSEQ_ACK (R268, R270): 0 from an active unit, and from a standby that resyncs until a record has come (DESIGN CHOICE, log row
73). -/
def Dev.dseqAck (d : Dev) : Nat :=
  if d.rd .unitRole 0 = 1 ∨ (d.rd .mirrorState 0 = 1 ∧ d.mate.resynced = false) then 0 else d.rd .dseqApplied 0

/-- Bytes 12 to 51 of a lane heartbeat that leaves at tick `n`. -/
def Dev.heartbeatBody (d : Dev) (n : Nat) (refuse : Bool) : Bytes :=
  toBytes 8 n ++ toBytes 8 (d.rd .superframe 0) ++ toBytes 4 d.mate.hbSeq ++ [d.heartbeatFlags refuse, d.maxSev, 0, 0] ++
    toBytes 4 d.dseqAck ++ toBytes 4 d.burstSeenMask ++
    toBytes 8 d.mate.activeSince

/-- A pin word of a kind (R271). -/
def Dev.pinWord (d : Dev) (kind seq : Nat) : Nat :=
  let w := 0xB4 * 2 ^ 16 + kind * 2 ^ 14 + ofBool (d.rd .unitRole 0 == 1) * 2 ^ 13 + ofBool d.isEligible * 2 ^ 12 +
    seq % 16 * 2 ^ 8 + d.rd .unitId 0 % 2 * 2 ^ 7
  w * 256 + crc8 (toBytes 3 w)

/-- A heartbeat on both paths with redundancy enabled; else the mate link carries idle frames with AIS, and the pins nothing
(R264). -/
def Dev.sendHeartbeat (d : Dev) (n : Nat) (refuse : Bool) : Dev :=
  if d.on .redundancyEnable 0 then
    let d := { d with mate := { d.mate with hbSeq := (d.mate.hbSeq + 1) % 2 ^ 32 } }
    let d := d.sendSealed n 1 false [] 40 fun at_ => d.heartbeatBody at_ refuse
    (d.emit (.pinWord (d.pinWord (if refuse then 2 else 0) d.mate.hbSeq))).bump .hbSent 0
  else if d.rd .mateState 0 = 1 then d.fillMate n
  else d

/-! ### Roles -/

/-- A tree carries frames from superframe count `sfc` on: lit, or to be lit by a take-over whose frame K has come by then
(R275). -/
def Dev.carries (d : Dev) (t sfc : Nat) : Bool :=
  (d.tree t).lit || match d.mate.firstFrame with
    | some k => decide (k ≤ sfc) && (d.tree t).relightDue && d.mayLight t
    | none => false

/-- A standby or fenced unit: transmit disable asserted on every tree, nothing lit (R264). -/
def Dev.goDark (d : Dev) : Dev :=
  (d.each (List.range 8) fun d q => d.wr .txdisNow q 15).each allTrees fun d t =>
    d.modTree t fun x => { x with lit := false, building := none, locked := [], lockedMap := none }

/-- A role is taken (R264, R270). -/
def Dev.takeRole (d : Dev) (role : Nat) : Dev :=
  let d := d.wr .unitRole 0 role
  { d with mate := { d.mate with activeSince := if role = 1 then d.rd .superframe 0 else 0 } }

/-- A resync of a standby starts (R269): its static entries are replaced by those that the active unit streams. -/
def Dev.startResync (d : Dev) (n : Nat) : Dev :=
  let d := { d with
    addr := { d.addr with entries := d.addr.entries.filter fun p => !p.2.static },
    mate := { d.mate with resyncAt := n, resynced := false, arrived := [] } }
  (d.wr .mirrorState 0 1).raiseLevel n { source := 396 }

/-- A standby listens to every tree, acquiring (R272), follows its mate's time (R240) and resyncs (R269). -/
def Dev.toStandby (d : Dev) (n : Nat) : Dev :=
  let d := (d.takeRole 2).goDark
  let listen : Tree → Tree := fun x => { x with legTerms := [], shift := none }
  let d := d.each allTrees fun d t => ((d.wr .listenState t 1).wr .legShiftPs t 0).modTree t listen
  let d := d.wr .timeState 0 3
  let mate : Mate := { d.mate with keeping := false, kept := [], takeSfc := none, firstFrame := none, wholeAt := n }
  let mate : Mate := { mate with deltas := [], delays := [], deltaRef := none, aligned := false, lastBeat := none, unplacedAt := none }
  { d with mate := mate }.startResync n

/-- A fenced unit: dark, not listening (R264). -/
def Dev.toFenced (d : Dev) : Dev :=
  let d := (d.takeRole 3).goDark
  let d := { d with mate := { d.mate with firstFrame := none } }
  (d.each allTrees fun d t => d.wr .listenState t 0).wr .mirrorState 0 0

/-- Every uplink port is taken down, PORT_ENABLE kept (R283, S3). -/
def Dev.uplinksDown (d : Dev) (n : Nat) : Dev :=
  let d := { d with faults := { d.faults with device := 2 } }
  d.each allPorts fun d p => d.portDown n p

/-- The first frame start at least 30 us ahead of tick `n` (R276): its superframe count. -/
def Dev.takeSfcAt (d : Dev) (n : Nat) : Nat :=
  let next := d.rd .frameTick 0 + frameTicks
  if n + 37325 ≤ next then d.rd .superframe 0 + 1 else d.rd .superframe 0 + 1 + ceilDiv (n + 37325 - next) frameTicks

/-- An ACTIVE unit sends a relinquish on both paths, naming TAKE_SFC (R276). -/
def Dev.startRelinquish (d : Dev) (n : Nat) (fault : Bool) (m : Option Master) : Dev :=
  let k := d.takeSfcAt n
  let d := { d with mate := { d.mate with
    relinquishing := some k, relinquishFault := fault, relinquishMaster := m } }
  let d := d.sendSealed n 3 false [] 8 fun _ => toBytes 8 k
  d.emit (.pinWord (d.pinWord 1 k))

end Sys2Proof.Machine
end

