-- ==== Sys2Proof/Machine/FaultCore.lean ====
section
/-!
DEFINITION. The Fault Collectors: collection cycles, sticky bits, the first-fault record, reactions and their release, the
pins (R283-R291).
-/
namespace Sys2Proof.Machine
open Sys2Proof

/-! ### Elements (R282) -/

/-- The element of a source, coded as in `Faults.shut`; none for hub memories and hub sources. -/
def elementOf (s : Nat) : Option Nat :=
  if s < 256 then some (s / 8)
  else if s < 288 then some (32 + (s - 256) / 4)
  else if s < 304 then some (40 + (s - 288) / 8)
  else if s < 368 then some (50 + (s - 304) / 4)
  else if s < 388 then none
  else if s < 404 then some 66
  else none

/-- A lane source's element follows the current width (R14). -/
def Dev.element (d : Dev) (s : Nat) : Option Nat :=
  if 368 ≤ s ∧ s < 384 then some (50 + d.portOfLane (s - 368))
  else if 384 ≤ s ∧ s < 388 then some 66
  else elementOf s

/-- The trees an element covers. -/
def elementTrees (e : Nat) : List Nat :=
  if e < 32 then [e] else if e < 40 then treesOfQuad (e - 32) else if e < 42 then treesOfDie (e - 40) else []

/-! ### The pins (R290) -/

/-- A take-over gap (R277): from its tick D to the first PSync of frame K. -/
def Dev.inGap (d : Dev) : Bool := d.mate.firstFrame.isSome

/-- FAULT_L and ALERT_L follow the sticky bits once the dictionary answers (R339); during a take-over gap they hold (R277,
R290). -/
def Dev.judgePins (d : Dev) : Dev :=
  if d.inGap then d
  else if d.chip.phase = .up then
    let sevs := d.stickySevs
    { d with chip := { d.chip with
      faultL := sevs.any fun s => d.rd .faultLevel 0 ≤ s, alertL := sevs.any fun s => 1 ≤ s } }
  else { d with chip := { d.chip with faultL := false, alertL := false } }

/-! ### Reactions (R283, R284) -/

/-- An element is shut, unless it is already. The sources 0-6 of a tree shut with it report nothing any more. -/
def Dev.shutElement (d : Dev) (n e : Nat) : Dev :=
  if d.faults.shut.contains e then d
  else
    let new := (elementTrees e).filter fun t => !d.treeShut t
    let d := d.each new fun d t => (d.darken n t false).each (List.range 7) fun d k => d.dropLevel (8 * t + k)
    let d := { d with faults := { d.faults with shut := d.faults.shut ++ [e] } }
    if 50 ≤ e ∧ e < 66 then d.portDown n (e - 50) else if e = 66 then d.mateDown n else d

/-- The DEVICE reaction, unless one is in force (R283). -/
def Dev.deviceReaction (d : Dev) (n : Nat) : Dev :=
  if d.faults.device ≠ 0 then d
  else match d.rd .unitRole 0 with
    | 0 => d.uplinksDown n
    | 1 =>
      if d.matePresent then
        ({ d with faults := { d.faults with device := 1 } }).startRelinquish n true none
      else d.uplinksDown n
    | _ => d

/-- The reaction of an occurrence of severity `sev`. -/
def Dev.react (d : Dev) (n s sev : Nat) : Dev :=
  if sev = 2 then
    match d.element s with
    | some e => d.shutElement n e
    | none => d
  else if sev = 3 then d.deviceReaction n
  else d

/-- An element is released when no sticky bit of recorded severity S2 or above remains for it (R284): its trees restart
as one long operation, a port or the mate link begins again. -/
def Dev.releaseElement (d : Dev) (n e : Nat) : Dev :=
  if d.faults.sources.any fun p => p.2.sticky && decide (2 ≤ p.2.severity) && d.element p.1 == some e then d
  else
    let d := { d with faults := { d.faults with shut := d.faults.shut.filter (· != e) } }
    let ts := (elementTrees e).filter fun t => !d.treeShut t
    if ts.isEmpty then
      if 50 ≤ e ∧ e < 66 then d.restartPort n (e - 50) else if e = 66 then d.restartMate n else d
    else d.startOp n 3 (ts.foldl (fun m t => m + 2 ^ t) 0)

/-- Every reaction that its sticky bits no longer hold is released (R284). -/
def Dev.releaseReactions (d : Dev) (n : Nat) : Dev :=
  let d := d.each d.faults.shut fun d e => d.releaseElement n e
  if d.faults.device ≠ 0 ∧ (d.stickySevs.all fun s => s < 3) = true then
    let d := { d with faults := { d.faults with device := 0 } }
    d.each allPorts fun d p => if d.portUp p then d else d.restartPort n p
  else d

/-! ### Collection (R285) -/

/-- A sticky bit is set, or its recorded severity raised. -/
def Dev.setSticky (d : Dev) (s sev : Nat) : Dev :=
  d.modSource s fun x => { x with sticky := true, severity := if x.sticky then max x.severity sev else sev }

/-- A capture as the engine of source `s` holds it. -/
def Dev.captureOf (d : Dev) (n s : Nat) : Capture :=
  (d.source s).capture.getD ⟨s, 0, 0, 0, 0, 0, 0, n, 0, d.timeAt n⟩

/-- The better candidate of two for the first-fault record: higher severity, then lower source. -/
def betterFault (a b : Nat × Nat) : Nat × Nat :=
  if a.2 < b.2 ∨ (a.2 = b.2 ∧ b.1 < a.1) then b else a

/-- Every advance of OVERFLOW is an occurrence of source 443, which never advances it itself. -/
def Dev.overflowFault (d : Dev) (n : Nat) : Dev :=
  let d := { d with faults := { d.faults with overflow := min (d.faults.overflow + 1) (2 ^ 32 - 1) } }
  if d.disabled 443 then d
  else
    let sev := d.severity 443
    let d := d.raise n { source := 443 }
    let d := { d with faults := { d.faults with arriving := d.faults.arriving.filter fun p => p.2.2.source != 443 } }
    (d.setSticky 443 sev).react n 443 sev

/-- One collection cycle: the occurrences captured at tick `c`, as (source, severity). -/
def Dev.collectCycle (d : Dev) (n c : Nat) (occs : List (Nat × Nat)) : Dev :=
  let empty := d.faults.first.isNone
  let fresh := (occs.map Prod.fst).dedup.filter fun s => !(d.source s).sticky
  let d := match empty, occs with
    | true, o :: os =>
      let b := os.foldl betterFault o
      let cap := d.captureOf c b.1
      { d with faults := { d.faults with
          first := some ⟨cap, b.2, false, (occs.map Prod.fst).dedup.length - 1⟩ } }
    | _, _ => d
  let d := d.each occs fun d o => d.setSticky o.1 o.2
  let d := if empty then d else d.each (fresh.filter (· != 443)) fun d _ => d.overflowFault c
  (d.each occs fun d o => d.react n o.1 o.2)

/-- The capture ticks waiting, ascending. -/
def Dev.arrivalTicks (d : Dev) : List Nat := ((d.faults.arriving.map (·.1)).dedup).insertionSort (· ≤ ·)

/-- The collector takes what has arrived, cycle by cycle, and the pins follow. -/
def Dev.collect (d : Dev) (n : Nat) : Dev :=
  let waiting := d.faults.arriving
  let ticks := d.arrivalTicks
  let d := { d with faults := { d.faults with arriving := [] } }
  let d := d.each ticks fun d c =>
    d.collectCycle n c ((waiting.filter fun p => p.1 == c).map fun p => (p.2.2.source, p.2.1))
  d.judgePins

/-! ### Clearing (R289) -/

/-- The severity under which a source that is asserted again occurs: S2 where the bridge fault wire that stands for it is broken
(R286). -/
def Dev.againAt (d : Dev) (s : Nat) : Nat := if (d.source s).cutOff then 2 else d.severity s

/-- A sticky bit is cleared and its source re-armed; a level source whose condition holds, or whose wire is broken,
occurs again, a shut tree's not being evaluated (R283). Reactions that no bit holds are released then. -/
def Dev.clearSticky (d : Dev) (n s : Nat) : Dev :=
  let x := d.source s
  if x.sticky then
    let again : Occurrence := match x.capture with
      | some c => { source := s, master := c.master, access := c.access, session := c.session, detail := c.detail,
                    index := c.index, aux := c.aux }
      | none => { source := s }
    let d := d.modSource s fun x => { x with sticky := false, severity := 0, capture := none }
    let d := if x.broken || x.cutOff || ((d.source s).level && isLevel s) then d.raiseAt n (d.againAt s) again else d
    (d.releaseReactions n).judgePins
  else d.modSource s fun x => { x with capture := none }

/-- FF_CLEAR empties the record and zeroes OVERFLOW; a set sticky bit refills it at once (R289). -/
def Dev.clearFirst (d : Dev) : Dev :=
  let set := d.faults.sources.filterMap fun p => if p.2.sticky then some (p.1, p.2.severity) else none
  let first : Option FirstFault := match set with
    | [] => none
    | o :: os =>
      let b := os.foldl betterFault o
      let cap := d.captureOf 0 b.1
      some ⟨cap, b.2, true, 0⟩
  { d with faults := { d.faults with first := first, overflow := 0 } }

/-! ### Meanings -/

/-- The frame of descriptor `k` is dropped where it waits, or marked POISON if it is being sent, and its chain is left to the Leak
Auditor (R187, R188). -/
def Dev.orphanFrame (d : Dev) (n k : Nat) : Dev :=
  match d.desc k with
  | none => d
  | some x =>
    match d.ports.find? fun p => p.2.sending.any fun s => s.desc == k with
    | some p => (d.setDesc k { x with poison := true }).emit (.inverted (.port p.1))
    | none =>
      let d := { d with
        buf := { d.buf with chains := d.buf.chains.map fun (p : Nat × Chain) =>
          if p.1 = x.chain then (p.1, { p.2 with refs := p.2.refs + 1 }) else p },
        mgmt := { d.mgmt with inband := d.mgmt.inband.erase k },
        mate := { d.mate with kept := d.mate.kept.filter fun y => y.1 != k } }
      let d := if x.destKind = 3 ∨ (x.destKind = 2 ∧ x.dest = 1) then d else d.setQueue x.queueNo ((d.queue x.queueNo).erase k)
      d.dropDesc n k 7

/-- A cell address or descriptor number is good (R187). -/
def pointerGood : PtrStage → Nat → Bool
  | .descriptorStore, v => decide (v < 786432)
  | _, v => decide (v < 100663296) && v % 256 == 0

/-- The number of a stage in AUX of source 417's capture (DESIGN CHOICE, log row 24). -/
def ptrStageNo : PtrStage → Nat
  | .descriptor => 0
  | .link => 1
  | .ring => 2
  | .descriptorStore => 3

/-- A cell address or descriptor number that fails its check (R187): it is counted and raised, and the frame it comes with, or
the next one written where it comes from a free store, is dropped. -/
def Dev.badPointer (d : Dev) (n : Nat) (stage : PtrStage) (value desc : Nat) : Dev :=
  if pointerGood stage value then d
  else
    let d := (d.bump .ptrBad 0).raise n { source := 417, index := value, aux := ptrStageNo stage }
    match stage with
    | .descriptor | .link => d.orphanFrame n desc
    | .ring | .descriptorStore => { d with buf := { d.buf with badReads := d.buf.badReads + 1 } }

/-- The newest frame on its way to tree `t` is discarded before the Line Framer (R188). -/
def Dev.discardNewest (d : Dev) (t : Nat) : Dev :=
  match (d.tree t).payload.getLast? with
  | some f =>
    if f.placed = 0 then (d.modTree t fun x => { x with payload := x.payload.dropLast }).sampleDone f.sampled 7 else d
  | none => d

/-- Frame data reads badly in a send (R188): toward a tree the frame is discarded on the die, otherwise its FCS is inverted. -/
def Dev.badData (d : Dev) (n : Nat) (e : Egress) : Dev :=
  let d := (d.bump .bufEccUncorr 0).raise n { source := 418 }
  match e with
  | .tree t => d.discardNewest t
  | .port p =>
    let d := d.settleSend n p
    if (d.port p).sending.isSome then
      (d.modPort p fun x => { x with sending := x.sending.map fun s => { s with inverted := true } }).emit (.inverted e)
    else d
  | .host => d.emit (.inverted e)

/-- The sources of the junctions, as their sensors read (R282, R356): 115 °C of a tree die, 115 °C and 125 °C of any die. -/
def Dev.judgeJunctions (d : Dev) (n : Nat) : Dev :=
  let above : Nat → Int → Bool := fun e c => decide (c < d.rdS .tjMc e)
  let set : Dev → Nat × Bool → Dev := fun d x => if x.2 then d.raiseLevel n { source := x.1 } else d.dropLevel x.1
  [(295, above 0 115000), (303, above 1 115000), (435, (List.range 3).any fun e => above e 115000),
    (436, (List.range 3).any fun e => above e 125000)].foldl set d

/-- A junction sensor is read; its peak follows. -/
def Dev.readJunction (d : Dev) (n e : Nat) (mC : Int) : Dev :=
  let d := (d.wrS .tjMc e mC).wrS .tjPeakMc e (max (d.rdS .tjPeakMc e) mC)
  d.judgeJunctions n

/-- The rails that have been measured, against their thresholds (R334). -/
def Dev.judgeRails (d : Dev) (n : Nat) : Dev :=
  if d.chip.railsRead.any fun r => decide (d.rd .railMv r < d.rd .railLowMv r) || decide (d.rd .railHighMv r < d.rd .railMv r) then
    d.raiseLevel n { source := 437 }
  else d.dropLevel 437

/-- A rail is measured. -/
def Dev.readRail (d : Dev) (n r mV : Nat) : Dev :=
  ({ d.wr .railMv r mV with chip := { d.chip with railsRead := r :: d.chip.railsRead.filter (· != r) } }).judgeRails n

/-- A PLL stops or locks (R282, R329): a quad's has a source. -/
def Dev.pllReport (d : Dev) (n k : Nat) (locked : Bool) : Dev :=
  if d.on .pllLocked k = locked then d
  else
    let d := (d.setPll k (ofBool locked)).when (!locked) fun d => d.bump .pllUnlocks k
    if k < 8 then
      if locked then d.dropLevel (256 + 4 * k + 2) else d.raiseLevel n { source := 256 + 4 * k + 2, index := k }
    else d

/-- An occurrence as its engine reports it: of a level source, its condition begins to hold; a bridge's CRC error is counted (R13,
R282). -/
def Dev.faultReport (d : Dev) (n : Nat) (o : Occurrence) : Dev :=
  let d := match o.source with
    | 289 => d.bump .bridgeCrc 0
    | 297 => d.bump .bridgeCrc 1
    | _ => d
  if isLevel o.source && !(d.source o.source).level then d.raiseLevel n o else d.raise n o

/-- What a report of the silicon does. -/
def Dev.hwReport (d : Dev) (n : Nat) : HwReport → Dev
  | .fault o => d.faultReport n o
  | .ends s => d.dropLevel s
  | .pointer stage value desc => d.badPointer n stage value desc
  | .eccCorrected b => (d.bump .bufEccCorr 0).bump .bankEccCorr b
  | .eccData e => d.badData n e
  | .eccLink k => ((d.bump .bufEccUncorr 0).raise n { source := 418, index := k }).orphanFrame n k
  | .permitWord q => { d with sched := { d.sched with permitBad := d.sched.permitBad.filter (· != q) ++ [q] } }
  | .junction e mC => d.readJunction n e mC
  | .rail r mV => d.readRail n r mV
  | .pll k locked => d.pllReport n k locked

/-- The elements a report names are the device's. -/
def reportExists : HwReport → Bool
  | .fault o => decide (o.source < 448)
  | .ends s => decide (s < 448)
  | .pointer _ _ k | .eccLink k => decide (k < 786432)
  | .eccCorrected b => decide (b < 32)
  | .eccData e => egressExists e
  | .permitWord q => decide (q < 131201)
  | .junction e _ => decide (e < 3)
  | .rail r _ => decide (r < 8)
  | .pll k _ => decide (k < 12)

/-- FAULT_OCCURRENCE (R285): the reports reach their collectors, with everything captured before. -/
def execFaultOccurrence (n : Nat) (reports : List HwReport) (s : State) : Host.Outcome State Fault Refusal :=
  if reports.all reportExists then .next (s.at_ n fun n d => ((d.settleSends n).each reports fun d r => d.hwReport n r).collect n)
  else .fault .noSuchElement

/-- The sources of tree die `d` (R285). -/
def dieSources (d : Nat) : List Nat :=
  (List.range 128).map (d * 128 + ·) ++ (List.range 16).map (256 + d * 16 + ·) ++ (List.range 8).map (288 + d * 8 + ·)

/-- A source asserted by its own broken wire (R286): it stays asserted, and its capture has DETAIL 0xFF. -/
def Dev.assertBroken (d : Dev) (n s : Nat) : Dev :=
  (d.modSource s fun x => { x with broken := true, level := true }).raise n { source := s, detail := 0xFF, index := s }

/-- A source that the broken bridge fault wire of its die stands for (R286): where the hub has not received it, it is taken as
asserted at S2. -/
def Dev.assertCutOff (d : Dev) (n s : Nat) : Dev :=
  let heard := (d.source s).sticky
  let d := d.modSource s fun x => { x with cutOff := true, level := true }
  if heard then d else d.raiseAt n 2 { source := s, detail := 0xFF, index := s }

/-- BROKEN_WIRE (R286): the wire of `source` at `collector` (290, 298 or 428), or the bridge fault wire of collector 444 or
445, which stands for every source of its die not yet received, at severity S2. -/
def execBrokenWire (n collector source : Nat) (s : State) : Host.Outcome State Fault Refusal :=
  if source < 448 ∧ [290, 298, 428, 444, 445].contains collector = true then
    .next (s.at_ n fun n d =>
      let d := d.raiseLevel n { source := collector, index := source, detail := 0xFF }
      if collector = 444 ∨ collector = 445 then (d.each (dieSources (collector - 444)) fun d s => d.assertCutOff n s).collect n
      else (d.assertBroken n source).collect n)
  else .fault .noSuchElement

end Sys2Proof.Machine
end

