-- ==== Sys2Proof/Machine/Quarry.lean ====
section
/-!
DEFINITION. The Quarry: keystream used (R117, R118), key slots (R119-R126), deciphering (R122, R123), nonces and salt
(R129), bulk load (R133).
-/
namespace Sys2Proof.Machine
open Sys2Proof

/-! ### Slots (R119) -/

/-- The kinds of key slot. -/
inductive SlotKind where
  | data | integrity | broadcast | defaultIntegrity | management | mate | load
  deriving DecidableEq, Repr

def slotKind (s : Nat) : SlotKind :=
  if s < 16384 then .data else if s < 32768 then .integrity else if s < 32800 then .broadcast
  else if s < 32832 then .defaultIntegrity else if s < 32836 then .management
  else if s = 32836 then .mate else .load

/-- Data and broadcast slots hold a key index (R120). -/
def hasIndex (s : Nat) : Bool := slotKind s == .data || slotKind s == .broadcast

/-- Slots switched at a named superframe count. -/
def switchedByCount (s : Nat) : Bool := slotKind s != .management && slotKind s != .load

/-- The tree a slot belongs to (R134): none for slots of device scope. -/
def slotTree (s : Nat) : Option Nat :=
  if s < 16384 then some (s / 512) else if s < 32768 then some ((s - 16384) / 512)
  else if s < 32800 then some (s - 32768) else if s < 32832 then some (s - 32800) else none

/-- KEY_STATE (R135). -/
def Dev.keyState (d : Dev) (s : Nat) : Nat :=
  let x := d.slot s
  let idx : Option Key → Nat := fun k => match k with
    | some k => if hasIndex s then k.index else 0
    | none => 0
  let role := match x.next with
    | none => 0
    | some _ => if x.retiring then 2 else 1
  idx x.current * 2 ^ 30 + idx x.next * 2 ^ 28 + role * 2 ^ 26 + ofBool x.erased * 2 ^ 25 +
    ofBool x.current.isSome * 2 ^ 24 + x.switchSfc % 2 ^ 24

/-- The half that is current at superframe count `sfc` (R121, R122): the pending half from its switch count on. -/
def Dev.keyAt (d : Dev) (s sfc : Nat) : Option Key :=
  let x := d.slot s
  if x.next.isSome && !x.retiring && switchedByCount s && decide (x.switchSfc ≤ sfc) then x.next else x.current

/-- The key of a 40-byte KEY_NEXT value, and its SWITCH_SFC of 56 bits (R120). -/
def keyOf (data : Nat) : Key :=
  ⟨field data 192 128, field data 64 128, field data 56 8⟩
def switchOf (data : Nat) : Nat := field data 0 56

/-- What R120 answers to a KEY_NEXT value: BAD_VALUE checks first, then DENIED (R303). -/
def Dev.checkKeyNext (d : Dev) (s data : Nat) : Nat :=
  let idx := (keyOf data).index
  let sfc := switchOf data
  let now := d.rd .superframe 0
  if hasIndex s && !(idx == 1 || idx == 2) then 4
  else if switchedByCount s && (decide (2 ^ 51 ≤ sfc) || decide (now + 2 ^ 32 < sfc)) then 4
  else if switchedByCount s && decide (sfc < now + 2) then 2
  else if hasIndex s && (match (d.slot s).current with
    | some k => k.index == idx
    | none => false) then 2
  else 0

/-- The salt is drawn and every counter reset (R129); while the noise source fails, the old salt stays. -/
def Dev.drawSalt (d : Dev) : Dev :=
  if d.rd .entropyState 0 = 1 then d
  else
    let (v, d) := d.drawNoise
    let d := d.wr .deviceSalt 0 (v % 2 ^ 32)
    { d with mate := { d.mate with mateNext := 0 }, mgmt := { d.mgmt with mgmtNext := [], loadNext := 0 } }

/-- KEY_NEXT applied (R120, R124): the next half is replaced; a data slot's key-switch message is queued, in place of one
not yet sent; a management or load key draws a salt (R129). -/
def Dev.applyKeyNext (d : Dev) (s data : Nat) : Dev :=
  let k := keyOf data
  let d := d.modSlot s fun x => { x with
    next := some k, retiring := false,
    switchSfc := if switchedByCount s then switchOf data else x.switchSfc }
  match slotKind s with
  | .data =>
    let d := d.modTree (s / 512) fun x => { x with sequencer := x.sequencer.filter fun m => match m with
      | .keySwitch i _ _ => i != s
      | _ => true }
    d.seqMsg (s / 512) (.keySwitch s k.index (switchOf data))
  | .management =>
    ({ d with mgmt := { d.mgmt with keyChanged := d.mgmt.keyChanged ++ [s - 32832] } }).drawSalt
  | .load => d.drawSalt
  | _ => d

/-- KEY_ERASE applied at tick `n` (R27, R124): both halves go, and the working copy of each cutter that uses the slot at its next
block boundary, and no more keystream is asked for; an empty slot is left as it is. -/
def Dev.applyKeyErase (d : Dev) (n s : Nat) : Dev :=
  if (d.slot s).current.isNone && (d.slot s).next.isNone then d
  else
    let d := d.modSlot s fun x => { x with current := none, next := none, retiring := false, erased := true }
    match slotTree s with
    | none => d
    | some t =>
      let d := (d.settleBank n (quadOf t)).modTree t fun x => { x with
        keystream := x.keystream.map fun k => if k.slot = s then { k with bytes := k.asked } else k }
      d.modBank (quadOf t) fun b => b.eraseSlot n (d.blockTicks (quadOf t)) s

/-- A switch of a slot at the frame start of count `sfc` (R121). -/
def Dev.switchSlot (d : Dev) (s sfc : Nat) : Dev :=
  (d.modSlot s fun x => { x with
    current := x.next, next := x.current, retiring := x.current.isSome, erased := false,
    retireAt := sfc + d.rd .retireFrames 0 }).bump .switches s

/-- Every slot whose pending count has come switches (R121). -/
def Dev.switchKeys (d : Dev) (sfc : Nat) : Dev :=
  d.each (d.slots.filterMap fun p =>
    if switchedByCount p.1 && p.2.next.isSome && !p.2.retiring && decide (p.2.switchSfc ≤ sfc) then some p.1 else none)
    fun d s => d.switchSlot s sfc

/-- A management or load key takes effect: the next half is current (R119). -/
def Dev.takeKey (d : Dev) (s : Nat) : Dev :=
  match (d.slot s).next with
  | none => d
  | some k => (d.modSlot s fun x => { x with current := some k, next := none, erased := false }).bump .switches s

/-- KEY_RETIRE (R121): RETIRE_FRAMES after the switch the retiring key is erased, and the standby is told (R126). -/
def execKeyRetire (n s : Nat) (st : State) : Host.Outcome State Fault Refusal :=
  onElement s 32838 st fun st => st.at_ n fun n d =>
    if (d.slot s).retiring && decide ((d.slot s).retireAt ≤ d.rd .superframe 0) then
      (d.modSlot s fun x => { x with next := none, retiring := false }).durable n fun k => .keyRetired k s
    else d

/-! ### Deciphering upstream (R122, R123) -/

/-- The mode of an encapsulation port of a tree (R125). -/
def Dev.portMode (d : Dev) (t e : Nat) : Nat :=
  field (d.win 0x3400 (t * 1024 + e / 4)) (e % 4 * 2) 2

/-- Bytes in a bank's recut buffer at tick `n`. -/
def Dev.recutHeld (d : Dev) (n q : Nat) : Nat :=
  (((d.bank q).recut.filter fun p => n < p.1).map (·.2)).sum

/-- What deciphering makes of an upstream fragment (R122): poisoned, or plain, by the precomputed keystream or recut. -/
inductive Deciphered where
  | poisoned | plain | recut
  deriving DecidableEq, Repr

/-- An upstream fragment of terminal `g`, where `mapIndex` is the index of the burst's map key (0: none), and `late` tells that
its precomputed keystream is not there. With it, the tick at which it is plain: a recut is held until its P1 jobs end. -/
def Dev.decipher (d : Dev) (n g mapIndex : Nat) (late : Bool) (f : UpFrame) : Deciphered × Nat × Dev :=
  let t := treeOfTerm g
  let q := quadOf t
  let x := d.slot g
  match d.portMode t f.encPort with
  | 0 => if f.keyIndex = 0 then (.plain, n, d) else (.poisoned, n, d.bump .keyModeMismatch g)
  | 1 =>
    if f.keyIndex = 0 then (.poisoned, n, d.bump .keyModeMismatch g)
    else if x.erased then (.poisoned, n, d.bump .erasedPoison g)
    else if f.keyIndex = mapIndex then
      if late then (.poisoned, n, (d.bump .ksLate q).event n (256 + 4 * q) g) else (.plain, n, d)
    else
      let other := [x.current, x.next].any fun k => match k with
        | some k => k.index == f.keyIndex
        | none => false
      let len := f.bytes.length
      if other && decide (d.recutHeld n q + len ≤ 65536) then
        let d := (d.bump .recutJobs q).settleBank n q
        let first := (d.bank q).nextId
        let d := d.queueStream n q (.recut g) (some g) 0 0 (ceilDiv len 16)
        let fin := d.streamEnd n q first
        (.recut, fin, d.modBank q fun b => { b with recut := (b.recut.filter fun p => n < p.1) ++ [(fin, len)] })
      else (.poisoned, n, d.bump .keyMiss q)
  | _ => (.poisoned, n, d.bump .keyModeMismatch g)

/-! ### Enciphering downstream (R43, R117, R118, R125) -/

/-- The key a downstream frame uses: none unciphered, or its slot. -/
def Dev.downSlot (d : Dev) (t terminal encPort : Nat) : Option Nat :=
  match d.portMode t encPort with
  | 1 => some terminal
  | 2 => some (32768 + t)
  | _ => none

/-- Bytes of an encapsulation header (05_grants.md, before R103). -/
def encHeader : Nat := 8

/-- Ticks from a frame's entry into the payload pipeline, 8 us before its first line byte, to its keystream's deadline, 2 us
before that byte (R117, R118). -/
def pipelineTicks : Nat := 7464

/-- The keystream of `bytes` bytes at payload position `pos` is queued at the bank (R115, P1): whether it is there in time, and
fits the downstream store. -/
def Dev.downKeystream (d : Dev) (n t slot ctr bytes : Nat) : Bool × Dev :=
  let q := quadOf t
  let d := d.settleBank n q
  let first := (d.bank q).nextId
  let d := d.queueStream n q (.downstream t) (some slot) ctr 0 (ceilDiv bytes 16)
  let held := (((d.bank q).jobs.filter fun j => match j.src with
    | .downstream _ => true
    | _ => false).map fun j => 16 * j.blocks).sum
  (decide (d.streamEnd n q first ≤ n + pipelineTicks) && decide (held ≤ downstreamStore), d)

/-- `bytes` of the running frame's payload are taken. -/
def Tree.takeRoom (x : Tree) (bytes : Nat) : Tree := { x with room := x.room - bytes }

/-- DOWNSTREAM_FRAME_ENCIPHER into the payload of the frame whose superframe count is `frame`, which must be the running one (R43,
R117, R118, R125): what fits of the oldest frame of the tree's payload is enciphered and
placed, the rest waiting for the start of the next frame's payload; or the frame is dropped for want of a key or for mode 3; or,
its keystream late, an idle frame takes the position while it waits for the next. -/
def execDownstreamFrameEncipher (n t frame : Nat) (st : State) : Host.Outcome State Fault Refusal :=
  onElement t 32 st fun st => st.at_ n fun n d =>
    match (d.tree t).payload with
    | [] => d
    | f :: rest =>
      let x := d.tree t
      let gone : Dev → Dev := fun d => d.modTree t fun x => { x with payload := rest }
      let mode := d.portMode t f.encPort
      if frame ≠ d.rd .superframe 0 ∨ x.lit = false ∨ bitAt (d.rd .treeDefects t) 2 = true ∨ x.room ≤ encHeader then d
      else if mode = 3 then (gone d).bump .keyModeMismatch f.terminal |>.sampleDone f.sampled 7
      else
        let slot := d.downSlot t f.terminal f.encPort
        let key := match slot with
          | none => some 0
          | some s => (d.slot s).current.map (·.index)
        match key with
        | none => (gone d).bump .erasedDrop f.terminal |>.sampleDone f.sampled 7
        | some idx =>
          let sfc := d.rd .superframe 0
          let pos := x.payloadBytes - x.room
          let part := f.bytes.take (x.room - encHeader)
          let left := f.bytes.drop (x.room - encHeader)
          let ctr := Config.counterStart sfc pos idx
          let (ready, d) := match slot with
            | none => (true, d)
            | some s => d.downKeystream n t s ctr part.length
          let d := d.modTree t fun x => x.takeRoom (part.length + encHeader)
          if !ready then
            ((d.bump .dsLate (quadOf t)).add .idleFillBytes t (part.length + encHeader)).emit (.idleFill t (part.length + encHeader))
          else
            let d := if f.placed = 0 then d.follow f.sampled fun y => { y with outFirst := n - f.t0 } else d
            let d := d.emit (.treeFrame t f.terminal f.encPort idx sfc pos (if mode = 0 then 0 else ctr) left.isEmpty part)
            if left.isEmpty then
              ((gone d).follow f.sampled fun y => { y with outLast := n - f.t0 }).sampleDone f.sampled 0
            else d.modTree t fun x => { x with
              payload := { f with bytes := left, placed := f.placed + part.length } :: rest }

/-! ### Entropy (R129) -/

/-- ENTROPY_FAIL: the entropy fault, and the old salt is kept. -/
def execEntropyFail (n : Nat) (st : State) : Host.Outcome State Fault Refusal :=
  .next (st.at_ n fun n d => (d.wr .entropyState 0 1).raiseLevel n { source := 421 })

/-- ENTROPY_RECOVERY: healthy again. -/
def execEntropyRecovery (n : Nat) (st : State) : Host.Outcome State Fault Refusal :=
  .next (st.at_ n fun _ d => (d.wr .entropyState 0 0).dropLevel 421)

/-! ### Bulk load (R133) -/

/-- LOAD_NONCE: the salt, then the load counter. -/
def Dev.loadNonce (d : Dev) : Nat := d.rd .deviceSalt 0 * 2 ^ 64 + d.mgmt.loadNext

/-- What a load finds: a failure (code of LOAD_STATUS, record), or the (slot, body) pairs. -/
inductive LoadResult where
  | fails (code record : Nat)
  | passes (bodies : List (Nat × Nat))
  deriving DecidableEq, Repr

/-- One record checked after those of `seen` (R133): its tag, its slot, a repeat, its body. The 4-byte record header is the
additional data as it was written, reserved bytes 2-3 included, although R6 has a reserved field ignored (DESIGN CHOICE, log
row 93). -/
def Dev.checkRecord (d : Dev) (seen : List (Nat × Nat)) (i rec : Nat) : LoadResult :=
  let slot := field rec 496 16
  let sealedText := toBytes 40 (field rec 160 320) ++ toBytes 16 (field rec 0 128)
  let plain := match (d.slot 32837).current with
    | none => none
    | some k => Config.gcmOpen k.a (d.loadNonce + i) (toBytes 4 (field rec 480 32)) sealedText
  match plain with
  | none => .fails 2 i
  | some p =>
    if 32836 < slot then .fails 3 i
    else if seen.any fun x => x.1 == slot then .fails 4 i
    else if d.checkKeyNext slot (ofBytes p) ≠ 0 then .fails 5 i
    else .passes (seen ++ [(slot, ofBytes p)])

/-- Every record checked in order, up to the first that fails. -/
def Dev.checkLoad (d : Dev) : Tab Nat → List (Nat × Nat) → LoadResult
  | [], seen => .passes seen
  | (i, rec) :: rest, seen =>
    match d.checkRecord seen i rec with
    | .passes seen => Dev.checkLoad d rest seen
    | r => r

/-- LOAD_COMPLETE (R133): the load key written last is the one in use; every record is checked before any is applied;
the load counter advances by 32,838 and the written records are used up. -/
def execLoadComplete (n : Nat) (st : State) : Host.Outcome State Fault Refusal :=
  .next (st.at_ n fun n d =>
    if d.opRuns 2 then
      let d := d.takeKey 32837
      let d := match d.checkLoad d.mgmt.loadRecords [] with
        | .fails code i => d.wr .loadStatus 0 (code * 65536 + i)
        | .passes bodies =>
          (d.each bodies fun d b =>
            (d.applyKeyNext b.1 b.2).durable n fun k => .objectWrite k 0x2401 b.1 1 n (toBytes 40 b.2)).wr .loadStatus 0 65536
      ({ d with mgmt := { d.mgmt with loadRecords := [], loadNext := d.mgmt.loadNext + 32838 } }).endOp n
    else d)

end Sys2Proof.Machine
end

