-- ==== Sys2Proof/Machine/Receive.lean ====
section
/-!
DEFINITION. Upstream bursts: RXRST_T[n] (R45), the delimiter search and its outcomes (R46-R49), status reports (R90, R91),
frames (R51, R122, R123), management messages (R63, R69), discovery (R73), ranging (R74), continuous ranging (R76-R78),
the listening standby (R272).
-/
namespace Sys2Proof.Machine
open Sys2Proof

/-! ### Rates and distances -/

/-- An upstream bit in ps. -/
def bitPs (rate : Nat) : Rat := (1000000000000 : Rat) / rateBps rate

/-- TARGET_RTD in force in ns (R35): the profile's default until the host writes it. -/
def Dev.targetRtd (d : Dev) (t : Nat) : Nat :=
  if (d.tree t).targetWritten then d.rd .targetRtd t else if d.treeProfile t = 2 then 440000 else 240000

/-- Rounding a rational to the nearest integer, halves up. -/
def nearest (x : Rat) : Int := (x + 1 / 2).floor

/-- Lengths in ns of the quiet window (R71) and the ranging window (R74). -/
def Dev.quietNs (d : Dev) (t : Nat) : Nat := if d.treeProfile t = 2 then 512000 else 256000
def Dev.rangingNs (d : Dev) (t : Nat) : Nat := if d.treeProfile t = 2 then 128000 else 64000

/-- The bit that a tree slice has in SLICES_GATED (R36). -/
def Dev.gated (d : Dev) (t : Nat) : Bool := bitAt (d.rd .slicesGated (quadOf t)) (t % 4)

/-! ### Finding a burst -/

/-- The sealed map a burst belongs to. -/
def Dev.mapOf (d : Dev) (t : Nat) (b : BurstRef) : Option Map :=
  (d.tree t).maps.find? fun m => m.sfc == b.sfc && m.point == b.point

def Dev.burstOf (d : Dev) (t : Nat) (b : BurstRef) : Option MapBurst :=
  match d.mapOf t b with
  | some m => m.bursts[b.pos]?
  | none => none

/-- The line bytes before a burst's span that no other burst of its map takes, from the end of the one before it. -/
def Map.gapBefore (m : Map) (x : MapBurst) : Nat :=
  x.start - (m.bursts.map fun y =>
    if y.window.isNone ∧ y.start < x.start then y.start + y.cost else 0).foldl max 0

/-- At least 2 x ACQ_BITS of idle line lie before a burst (R272). -/
def Dev.idleBefore (d : Dev) (t : Nat) (b : BurstRef) (x : MapBurst) : Bool :=
  match d.mapOf t b with
  | some m => decide (2 * d.rd .acqBits t ≤ 8 * m.gapBefore x)
  | none => false

/-- Changing a burst of a sealed map. -/
def Dev.modBurst (d : Dev) (t : Nat) (b : BurstRef) (f : MapBurst → MapBurst) : Dev :=
  d.modTree t fun x => { x with maps := x.maps.map fun m =>
    if m.sfc = b.sfc ∧ m.point = b.point then { m with bursts := m.bursts.modify b.pos f } else m }

/-- The maps sealed after a burst's own, oldest first. -/
def mapsAfter (b : BurstRef) : List Map → List Map
  | [] => []
  | m :: rest => if m.sfc = b.sfc ∧ m.point = b.point then rest else mapsAfter b rest

/-- Bytes an allocation is granted in maps. -/
def grantedIn (ms : List Map) (a : Nat) : Nat :=
  (ms.map fun m => (m.bursts.map fun b => (b.grants.map fun g => if g.alloc = a then g.size else 0).sum).sum).sum

/-! ### RXRST (R45) -/

/-- The tick, of the picoseconds `ps` after the arrival period's reference, rounded down to a tick. -/
def Dev.refTick (d : Dev) (b : BurstRef) : Nat :=
  d.rd .frameTick 0 - (d.rd .superframe 0 - b.sfc) * frameTicks + (b.sfc - d.rd .superframe 0) * frameTicks +
    (match b.point with | .frame => 0 | .sub k => k * subTicks)

/-- S of R273: the tracked leg shift, or the host's estimate while the tree acquires. -/
def Dev.legS (d : Dev) (t : Nat) : Rat := ((if d.rd .listenState t = 2 then d.rdS .legShiftPs t else d.rdS .legDeltaPs t : Int) : Rat)

/-- The shift of the arrivals of frame `sfc` (R272, R275): the leg's while listening; after a take-over the leg's for the
frames of the former unit, then the whole shift until the terminals apply the message. -/
def Dev.arrivalShift (d : Dev) (t sfc : Nat) : Rat :=
  if d.rd .unitRole 0 = 2 then d.legS t
  else match (d.tree t).shift with
    | some (leg, whole, k, till) => if sfc < k then leg else if sfc < till then whole else 0
    | none => 0

/-- The first preamble bit of a burst in ps after its reference time, without shift: TARGET_RTD exactly, the start at the upstream
bit period (R75). -/
def Dev.unshiftedPs (d : Dev) (t : Nat) (x : MapBurst) : Rat :=
  (d.targetRtd t : Rat) * 1000 + (x.start : Rat) * 8 * bitPs (d.upRate t)

/-- The expected first preamble bit of a burst of frame `sfc`, in ps after its reference time (R75, R272). -/
def Dev.expectedPs (d : Dev) (t sfc : Nat) (x : MapBurst) : Rat := d.unshiftedPs t x + d.arrivalShift t sfc

/-- The preamble of an entry in ps. -/
def Dev.preamblePs (d : Dev) (t e : Nat) : Rat := (64 * d.rd .bpRepeat (4 * t + e) : Nat) * bitPs (d.upRate t)

/-- The length of a burst's window in ps: the quiet window of discovery, or the ranging window. -/
def Dev.windowLen (d : Dev) (t : Nat) (x : MapBurst) : Nat :=
  (if x.kind = .discovery then d.quietNs t else d.rangingNs t) * 1000

/-- The tick at which a time in ps after a burst's reference time falls, rounded down. -/
def Dev.psTick (d : Dev) (b : BurstRef) (ps : Rat) : Nat :=
  ((d.refTick b : Int) + (ps * 124416 / 100000000).floor).toNat

/-- A pulse on RXRST_T[t] (R45), RXRST_LEAD ticks before tick `at_`, RXRST_WIDTH ticks wide. A lead below the width overlaps the
preamble: the start is then open (DESIGN CHOICE, log row 3). -/
def Dev.pulse (d : Dev) (t at_ : Nat) : Dev :=
  let width := d.rd .rxrstWidth t
  if width ≤ d.rd .rxrstLead t then
    let start := at_ - d.rd .rxrstLead t
    (d.modTree t fun x => { x with rxrst := some (start, width) }).emit (.rxrst t start width)
  else
    let (v, d) := d.draw
    (d.modTree t fun x => { x with rxrst := some (v, width) }).emit (.rxrst t v width)

/-- Where a burst's pulse belongs: its expected first preamble bit, or the start of its window (R45). -/
def Dev.pulsePs (d : Dev) (t : Nat) (b : BurstRef) (x : MapBurst) : Rat :=
  match x.window with
  | some w => (w : Rat)
  | none => d.expectedPs t b.sfc x

/-- A Burst Receiver takes bursts: its slice is powered (R36), not shut (R283), not in reset, and its unit not FENCED (R264). -/
def Dev.receives (d : Dev) (t : Nat) : Bool :=
  !d.gated t && !d.treeShut t && !(d.tree t).inReset && d.rd .unitRole 0 != 3

/-- RXRST_PULSE (R45): the one pulse of a burst, or of a window before its first response. -/
def execRxrstPulse (n t : Nat) (b : BurstRef) (st : State) : Host.Outcome State Fault Refusal :=
  onElement t 32 st fun st => st.at_ n fun _ d =>
    match d.burstOf t b with
    | none => d
    | some x =>
      if x.pulsed || !d.receives t then d
      else (d.modBurst t b fun y => { y with pulsed := true }).pulse t (d.psTick b (d.pulsePs t b x))

/-! ### Arrivals and outcomes (R46, R47) -/

/-- A tick in ps. -/
def tickPs : Rat := (100000000 : Rat) / 124416

/-- A place of a delimiter search in ps after a burst's reference time: tick, bit position and recovered-clock phase (R47). -/
def Dev.placePs (d : Dev) (t : Nat) (b : BurstRef) (p : DelimPlace) : Rat :=
  (((p.tick : Int) - (d.refTick b : Int) : Int) : Rat) * tickPs + (p.bit : Rat) * bitPs (d.upRate t) + (p.phase : Rat) * 5

/-- The report of an arrival: to the nearest 5 ps (R47; DEDUCED, log row 96). -/
def reportPs (x : Rat) : Rat := 5 * (nearest (x / 5) : Rat)

/-- The outcome of a burst. -/
inductive BurstOutcome where
  | missed | unframed | framed | mismatch
  deriving DecidableEq, Repr

/-- Where a delimiter search accepts a position, in ps after the reference time (R46): within `window` bits of the expected one;
for a burst with a window, across all of it. -/
structure Search where
  low : Rat
  high : Rat
  errors : Nat
  deriving DecidableEq, Repr

/-- The first position the search accepts: within its bounds, with at most `errors` differing bits. -/
def acceptDelimiter (s : Search) (place : DelimPlace → Rat) (ps : List DelimPlace) : Option DelimPlace :=
  ps.find? fun p => decide (p.differ ≤ s.errors) && decide (s.low ≤ place p) && decide (place p ≤ s.high)

/-- The expected delimiter of a burst: the preamble of its entry after the first preamble bit (R75, R78). -/
def Dev.delimiterPs (d : Dev) (t : Nat) (b : BurstRef) (x : MapBurst) : Rat := d.expectedPs t b.sfc x + d.preamblePs t x.entry

/-- The window in force in bits: DELIM_WINDOW; while a standby acquires, ACQ_BITS for a burst with enough idle line before it
(R272). -/
def Dev.delimWindowNow (d : Dev) (t : Nat) (b : BurstRef) (x : MapBurst) : Nat :=
  if d.rd .unitRole 0 = 2 ∧ d.rd .listenState t = 1 ∧ d.idleBefore t b x = true then d.rd .acqBits t else d.rd .delimWindow t

/-- The search of a burst (R45, R46). -/
def Dev.searchOf (d : Dev) (t : Nat) (b : BurstRef) (x : MapBurst) : Search :=
  match x.window with
  | some w => ⟨(w : Rat), (w : Rat) + (d.windowLen t x : Rat), d.rd .delimErrors t⟩
  | none =>
    let half : Rat := (d.delimWindowNow t b x : Rat) * bitPs (d.upRate t)
    ⟨d.delimiterPs t b x - half, d.delimiterPs t b x + half, d.rd .delimErrors t⟩

/-- The delimiter arrival that a burst's search accepts, as reported (R47). -/
def Dev.arrivalOf (d : Dev) (t : Nat) (b : BurstRef) (x : MapBurst) (o : BurstObs) : Option Rat :=
  (acceptDelimiter (d.searchOf t b x) (d.placePs t b) o.positions).map fun p => reportPs (d.placePs t b p)

def Dev.outcomeOf (d : Dev) (t : Nat) (b : BurstRef) (x : MapBurst) (o : BurstObs) : BurstOutcome :=
  if !o.locked then .missed
  else if (d.arrivalOf t b x o).isNone then .unframed
  else if x.kind ≠ .discovery ∧ o.onuId ≠ d.rd .onuId (t * 512 + x.terminal) then .mismatch
  else .framed

/-- The report of a burst; 0 for one that has none. -/
def Dev.reportOf (d : Dev) (t : Nat) (b : BurstRef) (x : MapBurst) (o : BurstObs) : Rat := (d.arrivalOf t b x o).getD 0

/-- A framed response of a window begins and ends in it (R71, R74). -/
def Dev.insideWindow (d : Dev) (t : Nat) (b : BurstRef) (x : MapBurst) (o : BurstObs) : Bool :=
  match x.window with
  | some w =>
    let at_ := d.reportOf t b x o
    decide ((w : Rat) ≤ at_ - d.preamblePs t x.entry) &&
      decide (at_ + (64 + o.bits : Nat) * bitPs (d.upRate t) ≤ (w : Rat) + (d.windowLen t x : Rat))
  | none => true

/-! ### Judging defects (R53) -/

/-- The frame judged last is over: without a locked burst, or without a framed one, it ends the clear timing of LOS, or LOF
(R53). -/
def Tree.closeJudged (x : Tree) : Tree :=
  match x.judged with
  | some (_, locked, framed) =>
    { x with judged := none, losClr := if locked then x.losClr else none, lofClr := if framed then x.lofClr else none }
  | none => x

/-- Every granted burst of a terminal in the maps of a frame has been received, or the frame's arrival period has passed. -/
def Dev.frameOver (d : Dev) (n t sfc : Nat) : Bool :=
  ((d.tree t).maps.all fun m => m.sfc != sfc || m.bursts.all fun b => b.ended || b.kind == .discovery) ||
    decide (d.refTick ⟨sfc, .frame, 0⟩ + psToTicks (d.targetRtd t * 1000) + frameTicks ≤ n)

/-- The judged frame of a tree is closed once it is over. -/
def Dev.closeFrame (d : Dev) (n t : Nat) : Dev :=
  match (d.tree t).judged with
  | some (sfc, _, _) => if d.frameOver n t sfc then d.modTree t Tree.closeJudged else d
  | none => d

/-- A granted burst in the tree's LOS and LOF timing (R53). A missed burst neither begins nor ends the timing of LOF: it runs on
while bursts are missed (DESIGN CHOICE, log row 97). -/
def Dev.judgeTree (d : Dev) (n t sfc : Nat) (locked framed : Bool) : Dev :=
  let timed : Option Timed → Reg → Option Timed := fun x r => match x with
    | some v => some v
    | none => some ⟨n, d.rd r t⟩
  let d := d.modTree t fun x =>
    let x := match x.judged with
      | some (k, _, _) => if k = sfc then x else x.closeJudged
      | none => x
    let (l, f) := match x.judged with
      | some (_, l, f) => (l, f)
      | none => (false, false)
    { x with
      judged := some (sfc, l || locked, f || framed),
      losSet := if locked then none else timed x.losSet .defectTimersLosSet,
      losClr := if locked then timed x.losClr .defectTimersLosClear else x.losClr,
      lofSet := if framed then none else if locked then timed x.lofSet .lofSet else x.lofSet,
      lofClr := if framed then timed x.lofClr .lofClear else x.lofClr }
  let still : Nat → Bool → Bool := fun b seen => !seen && bitAt (d.rd .treeDefects t) b
  let d := (d.when (still 0 locked) fun d => d.setTreeDefect n t 0 true).when (still 1 framed) fun d => d.setTreeDefect n t 1 true
  d.closeFrame n t

/-- A granted burst in its terminal's runs (R53), those its masks allow (R54). -/
def Dev.judgeTerm (d : Dev) (t g : Nat) (o : BurstOutcome) (rdi : Bool) : Dev :=
  let los := bitAt (d.rd .treeDefects t) 0
  let lof := bitAt (d.rd .treeDefects t) 1
  let framed := o == .framed || o == .mismatch
  if los then d
  else d.modTerm g fun x =>
    let x := if o = .missed then { x with missRun := x.missRun + 1, lockRun := 0 }
      else { x with lockRun := x.lockRun + 1, missRun := 0 }
    if lof || o == .missed then x
    else
      let x := if framed then { x with framedRun := x.framedRun + 1, unframedRun := 0 }
        else { x with unframedRun := x.unframedRun + 1, framedRun := 0 }
      if o = .framed then
        (if rdi then { x with rdiRun := x.rdiRun + 1, noRdiRun := 0 }
         else { x with noRdiRun := x.noRdiRun + 1, rdiRun := 0 })
      else x

/-! ### Status reports (R90, R91) -/

/-- A report of an allocation, decoded: demand is the report less what later maps granted. A disabled allocation's is
discarded (R111); REPORT 0 keeps demand 0. -/
def Dev.takeReport (d : Dev) (t a bytes : Nat) (b : BurstRef) : Dev :=
  if d.on .allocEnable a then
    let after := grantedIn (mapsAfter b (d.tree t).maps) a
    let keep := d.on .allocReport a
    let d := (d.bump .reportsDecoded a).modAlloc a fun x => { x with
      missRun := 0, lastReport := if keep then some (bytes, b) else none }
    if keep then d.wr .allocDemand a (bytes - after) else d
  else d

/-- A requested report missed. -/
def Dev.missReport (d : Dev) (a : Nat) : Dev :=
  (d.bump .reportsMissed a).modAlloc a fun x => { x with missRun := x.missRun + 1 }

/-- The requested reports of a burst: those received, or all missed. -/
def Dev.takeReports (d : Dev) (t : Nat) (b : BurstRef) (x : MapBurst) (rs : List Report) : Dev :=
  d.each (x.grants.filter fun g => g.report) fun d g =>
    match rs.find? fun r => r.alloc == g.alloc with
    | some r => if r.checkOk && !r.marked then d.takeReport t g.alloc r.bytes b else d.missReport g.alloc
    | none => d.missReport g.alloc

/-- REPORT_MISS_LIMIT (R91): after REPORT_MISS_MAX consecutive misses demand is 0 until a report is decoded. -/
def execReportMissLimit (n a : Nat) (st : State) : Host.Outcome State Fault Refusal :=
  onElement a 65536 st fun st => st.at_ n fun _ d =>
    if d.rd .reportMissMax (treeOfAlloc a) ≤ (d.alloc a).missRun then
      (d.wr .allocDemand a 0).modAlloc a fun x => { x with lastReport := none }
    else d

/-! ### Frames (R49, R51, R52, R122, R123) -/

/-- The reassembly of a terminal's encapsulation port. -/
def Term.partOf (x : Term) (e : Nat) : Bytes := (x.reasm.find? fun p => p.1 == e).elim [] (·.2)
def Term.setPart (x : Term) (e : Nat) (b : Bytes) : Term :=
  { x with reasm := x.reasm.filter (fun p => p.1 != e) ++ (if b.isEmpty then [] else [(e, b)]) }

/-- Where the frames of a burst go: to classification, to a standby's kept frames, or nowhere. -/
inductive FrameFate where
  | classify | keep | discard
  deriving DecidableEq, Repr

/-- The descriptor of a frame that a standby keeps (R179, R275). -/
def Waiting.keptDesc (w : Waiting) (n chain : Nat) : Desc :=
  { chain := chain, length := w.length, destKind := 3, dest := 0, domain := 0, queue := 0, colour := 0, meterEn := false,
    meter := 0, entry := 0, version := 0, hash := 0, srcKind := 1, srcNum := w.srcNum, pool := treeOfTerm w.srcNum,
    copy := false, tagged := false, poison := false, sample := false, markCe := false, ipOff := 0, arrival := n % 2 ^ 48,
    action := 0, stamp := none, rxTime := 0, oneStep := false, ring := none, sampled := none, mirror := 0, ect := false }

/-- A whole upstream frame goes on (R16) at tick `at_`, when it is deciphered; `t0` is its burst's delimiter arrival (R298). It goes
on unless its bridge is down (R13). A standby keeps it or counts it (R272, R275). -/
def Dev.upstreamFrame (d : Dev) (n t0 at_ g e : Nat) (fate : FrameFate) (bytes : Bytes) : Dev :=
  let w : Waiting := { srcKind := 1, srcNum := g, encPort := e, bytes := bytes, length := bytes.length + 4, stamp := t0, rxTime := 0, at_ := at_ }
  match fate with
  | .classify => if d.bridgeUp (treeOfTerm g) then { d with treeWaiting := d.treeWaiting ++ [w] } else d
  | .keep =>
    match d.storeFrame n (treeOfTerm g) w.length bytes with
    | (none, d) => d
    | (some (chain, d), _) =>
      let (k, d) := d.addDesc (w.keptDesc n chain)
      { d with mate := { d.mate with kept := d.mate.kept ++ [(k, w)] } }
  | .discard => d.bump .listenDiscard 0

/-- What goes with the frames of one burst: the terminal, the map key's index, where its frames go, whether its entry has FEC, the
reference of the burst, the allocation of the interval, and the tick of the burst's delimiter arrival. -/
structure FrameContext where
  g : Nat
  mapIndex : Nat
  fate : FrameFate
  fec : Bool
  burst : BurstRef
  alloc : Nat
  t0 : Nat
  deriving DecidableEq, Repr

/-- One frame the Delineator took: idle (DEDUCED, log row 17), marked where its entry has FEC (R49), deciphered, and at its last
fragment checked. Without FEC a lost frame weighs for steering (R80). A recut frame stays in the recut buffer until its jobs end,
which is when it goes on (R122). -/
def Dev.takeFrame (d : Dev) (n : Nat) (k : FrameContext) (hunted : Bool) (c : Candidate) : Dev :=
  let g := k.g
  let t := treeOfTerm g
  let f := c.frame
  let e := f.encPort
  let drop : Dev → Dev := fun d => d.modTerm g fun x => x.setPart e []
  if f.bytes.isEmpty then d
  else if f.marked && k.fec then (drop d).bump .framesFecLost t
  else
    match d.decipher n g k.mapIndex (d.keystreamLate t k.burst k.alloc (4 * (c.pos + c.len))) f with
    | (.poisoned, _, d) => drop d
    | (res, at_, d) =>
      let whole := (d.term g).partOf e ++ f.bytes
      if !f.lastFragment then d.modTerm g fun x => x.setPart e whole
      else
        let good := if res = .recut then f.recutGood else f.good
        let len := whole.length + 4
        let d := drop d
        if good && decide (64 ≤ len) && decide (len ≤ d.rd .maxlen 0) then d.upstreamFrame n k.t0 at_ g e k.fate whole
        else
          let d := (d.bump .upCheckFail g).when (hunted && !d.on .delinStrict t) fun d => d.bump .framesHuntLost t
          d.modTerm g fun x => { x with secBad := true, secErr := x.secErr + (if k.fec then 0 else 64) }

/-- The intervals of a framed burst. -/
def Dev.takeIntervals (d : Dev) (n g : Nat) (b : BurstRef) (x : MapBurst) (fate : FrameFate) (t0 : Nat)
    (is : List Interval) : Dev :=
  let t := treeOfTerm g
  let fec := d.on .bpFec (4 * t + x.entry)
  d.each is fun d i =>
    let r := delineateInterval i (d.on .delinStrict t)
    let idx := ((x.grants.find? fun y => y.alloc == i.alloc).elim 0 (·.keyIndex))
    let d := ((d.add .hecCorr t r.corrected).add .hecUncorr t r.uncorrectable).add .delinLoss t r.losses
    let d := d.modTerm g fun y => { y with
      secErr := y.secErr + (if fec then 0 else r.corrected),
      secBad := y.secBad || decide (0 < r.uncorrectable + r.losses),
      pm := { y.pm with err := y.pm.err || decide (0 < r.uncorrectable + r.losses) } }
    let d := d.modTree t fun y => { y with
      pm := { y.pm with err := y.pm.err || decide (0 < r.uncorrectable + r.losses) } }
    d.each r.frames fun d c => d.takeFrame n ⟨g, idx, fate, fec, b, i.alloc, t0⟩ c.2 c.1

/-! ### Management messages (R63, R69) -/

/-- An upstream message sent cut-through on the tree's Overhead Serial Port (R63): LENGTH from its own length field, the bytes as
they come, then the CRC, or the ABORT marker where the burst is lost, the length differs, or a check fails. An OMCI message
unchecked is flagged. -/
def Dev.takeMessage (d : Dev) (n g : Nat) (m : MgmtMessage) : Dev :=
  let t := treeOfTerm g
  let p := d.rd .ospPort t
  let checked := !m.omci || d.on .omciMicCheck t
  let type := if m.omci then 2 else 1
  let flags := if checked then 0 else 2
  let head := ospHead type flags g (d.rd .superframe 0 % 2 ^ 32) m.length (m.payload.take m.length)
  let d := d.when checked fun d => d.integrityJob n t m.payload.length
  if m.payload.length ≠ m.length then d.ospTransmit n p g head (some 2)
  else if checked && !m.micGood then (d.ospTransmit n p g head (some 1)).bump .ospAbortMic g
  else
    let d := d.ospSend n p g (head ++ toBytes 4 (crc32 head))
    let d := if m.omci then d else d.modTerm g fun x => { x with awaitPloam := false }
    if m.kind = .powerRequest then (d.bump .powerReqRefused g).seqMsg t (.powerRefusal (d.rd .onuId g)) else d

/-! ### Discovery (R73) -/

/-- The entry of the discovery list that a serial number goes to: its own; a free one, the lowest; or, the list full, the oldest,
which is the one refreshed longest ago, the lowest on a tie (DESIGN CHOICE, log row 99). -/
def Dev.listSlot (d : Dev) (t sn : Nat) : Nat :=
  let ks := (List.range 32).map (t * 32 + ·)
  let at_ : Nat → Nat := fun k => ((d.tree t).listRefresh.find? fun p => p.1 == k).elim 0 (·.2)
  match ks.find? fun k => d.on .listValid k && d.rd .listSn k == sn with
  | some k => k
  | none =>
    match ks.find? fun k => !d.on .listValid k with
    | some k => k
    | none => ks.foldl (fun b k => if at_ k < at_ b then k else b) (t * 32)

/-- A serial number enters or refreshes the list. -/
def Dev.listSerial (d : Dev) (n t sn coarseNs : Nat) : Dev :=
  let k := d.listSlot t sn
  let d := ((d.wr .listSn k sn).wr .coarseRtd k coarseNs).wr .listValid k 1
  let d := d.modTree t fun x => { x with listRefresh := x.listRefresh.filter (fun p => p.1 != k) ++ [(k, n)] }
  d.wr .discListCount t ((List.range 32).filter fun j => d.on .listValid (t * 32 + j)).length

/-- A captured serial number (R73) whose response's first preamble bit arrived `arrival` ps after the grant's reference time:
ranging of a provisioned EMPTY index, a duplicate, or the list. The ranging window begins at COARSE_RTD - RANDOM_DELAY_MAX
(R74), which may lie before the reference time. -/
def Dev.captureSerial (d : Dev) (n t sn : Nat) (arrival : Rat) : Dev :=
  let hits := if sn = 0 then [] else (termsOfTree t).filter fun g => d.rd .snProvision g == sn
  let free := hits.filter fun g => d.inState g 0 && decide (g % 512 < activatedIndices (d.treeProfile t))
  match free with
  | g :: _ =>
    let d := d.seqMsg t (.assignId sn (d.rd .onuId g))
    d.toRanging n g (nearest arrival - (d.rd .randomDelayMax t * 1000 : Nat))
  | [] =>
    if hits.any fun g => !d.inState g 0 then d.bump .snDuplicate t
    else d.listSerial n t sn (arrival / 1000).floor.toNat

/-- A response in a discovery window: at most 16 are captured, of those that lie in the quiet window (R71), from their
serial-number messages that are whole and pass the integrity check (R63). These have no terminal number yet, and none is sent to
the host (DESIGN CHOICE, log row 100). -/
def Dev.takeDiscovery (d : Dev) (n t : Nat) (b : BurstRef) (x : MapBurst) (o : BurstObs) (r : BurstOutcome) : Dev :=
  match r with
  | .unframed => d.bump .discCollide t
  | .framed =>
    if 16 ≤ (d.tree t).captures || !d.insideWindow t b x o then d
    else
      let d := d.each (o.messages.filter fun m => !m.omci) fun d m => d.integrityJob n t m.payload.length
      match (o.messages.filter fun m => !m.omci && m.micGood && m.payload.length == m.length).findSome? fun m => match m.kind with
        | .serialNumber sn => some sn
        | _ => none with
      | some sn =>
        let d := (d.bump .snCaptured t).modTree t fun x => { x with captures := x.captures + 1 }
        d.captureSerial n t sn (d.reportOf t b x o - d.preamblePs t x.entry)
      | none => d
  | _ => d

/-! ### Ranging (R68, R74, R77, R81) -/

/-- The entry nearest to `e` within a terminal's bounds that is allowed, the lower on a tie; 0 if there is none (R81). A
STEER_LOW above STEER_HIGH leaves the entry open. -/
def Dev.nearestEntry (d : Dev) (g e : Nat) : Nat :=
  let t := treeOfTerm g
  let lo := d.rd .steerLow g
  let hi := d.rd .steerHigh g
  let ok := (List.range 4).filter fun k => decide (lo ≤ k) && decide (k ≤ hi) && d.entryUsable t k
  let dist : Nat → Nat := fun k => if k < e then e - k else k - e
  if hi < lo then Config.steerOpen g d.free % 4
  else match ok with
  | [] => 0
  | k :: ks => ks.foldl (fun b k => if dist k < dist b then k else b) k

/-- The terminal's entry as it must be now (R81): STEER_LOW without steering, else its own, or the nearest allowed. -/
def Dev.currentEntry (d : Dev) (g : Nat) : Nat :=
  let want := if d.on .steerEnable (treeOfTerm g) then d.rd .bpEntry g else d.rd .steerLow g
  d.nearestEntry g want

/-- The Ranging Engine no longer wants grants for a terminal. -/
def Dev.orphanRanging (d : Dev) (g : Nat) : Dev :=
  d.modTree (treeOfTerm g) fun x => { x with rangeWanted := x.rangeWanted.filter (· != g) }

/-- RANGING to OPERATION (R68, R81). -/
def Dev.operate (d : Dev) (n g : Nat) : Dev :=
  let d := d.modTerm g fun x => { x with
    rangeAt := none, eqdSent := none, filter := 0, jumpRun := 0, goodSeconds := 0 }
  let d := d.orphanRanging g
  (d.wr .bpEntry g (d.nearestEntry g (d.rd .steerLow g))).setTermState n g 2

/-- The start of a ranging window centred on the expected position of a burst (R77). -/
def Dev.centredWindow (d : Dev) (t : Nat) : Int := (d.targetRtd t * 1000 : Nat) - (d.rangingNs t * 500 : Nat)

/-- A framed ranging burst before the delay is sent (R74): the delimiter arrival less the preamble of entry 0 gives RTD, and the
delay is sent or out of reach; the terminal is granted again at its new delay. -/
def Dev.measureRange (d : Dev) (n g : Nat) (report : Rat) : Dev :=
  let t := treeOfTerm g
  let bit := bitPs (d.upRate t)
  let rtd : Rat := report - d.preamblePs t 0 - (d.rd .eqdBits g : Rat) * bit
  let eqd : Rat := (d.targetRtd t : Rat) * 1000 - rtd
  let d := d.wr .rtdPs g (nearest rtd).toNat
  if eqd < 0 ∨ (Config.eqdMax (d.upRate t) : Rat) < eqd then (d.bump .outOfReach t).toEmpty n g true
  else
    let bits := (nearest (eqd / bit)).toNat
    let d := (d.wr .eqdBits g bits).modTerm g fun x => { x with
      eqdSent := some bits, tryFrame := d.rd .superframe 0, windowPs := d.centredWindow t }
    (d.rangeMsg t (.eqDelay (d.rd .onuId g) bits)).mirrorTerm n g

/-- A framed ranging burst of a terminal in RANGING: its messages go to the host (R63). Without a window, where the delay just sent
expects it, it ends the ranging (R68); in its window it measures (R74). -/
def Dev.takeRanging (d : Dev) (n t : Nat) (b : BurstRef) (x : MapBurst) (o : BurstObs) : Dev :=
  let g := t * 512 + x.terminal
  if d.rd .termState g = 1 ∧ d.insideWindow t b x o = true then
    let d := d.each o.messages fun d m => d.takeMessage n g m
    match (d.term g).eqdSent with
    | some _ => if x.window.isNone then d.operate n g else d
    | none => d.measureRange n g (d.reportOf t b x o)
  else d

/-! ### Continuous ranging (R76-R78) -/

/-- An arrival error filtered, and an update queued at the threshold (R76). -/
def Dev.filterDrift (d : Dev) (n g : Nat) (err : Rat) : Dev :=
  let t := treeOfTerm g
  let bit := bitPs (d.upRate t)
  let f := (d.term g).filter + (err - (d.term g).filter) / (d.rd .driftAvg t : Rat)
  let d := d.modTerm g fun x => { x with filter := f, jumpRun := 0 }
  if (d.term g).update.isSome ∨ |f| < (d.rd .driftThresh t : Rat) * bit then d
  else
    let new : Int := (d.rd .eqdBits g : Int) - nearest (f / bit)
    if new < 0 ∨ (Config.eqdMax (d.upRate t) : Rat) < (new : Rat) * bit then
      d.toRanging n g (d.centredWindow t)
    else
      let d := (d.bump .eqdUpdates g).modTerm g fun x => { x with filter := 0, update := some (new.toNat, none) }
      d.rangeMsg t (.eqDelayUpdate (d.rd .onuId g) new.toNat 0)

/-- The round-trip delay a framed burst shows, with arrival error `err` against its expectation (R74, R75). -/
def Dev.measureRtd (d : Dev) (g : Nat) (err : Rat) : Dev :=
  let t := treeOfTerm g
  let rtd : Rat := (d.targetRtd t : Rat) * 1000 + err - (d.rd .eqdBits g : Rat) * bitPs (d.upRate t)
  d.wr .rtdPs g (nearest rtd).toNat

/-- A framed burst of a terminal in OPERATION is a measurement (R76, R77): `err` is the delimiter arrival less its expected
position. Samples before a named frame are discarded. -/
def Dev.takeDrift (d : Dev) (n g sfc : Nat) (err : Rat) : Dev :=
  let t := treeOfTerm g
  let bit := bitPs (d.upRate t)
  let early := match (d.term g).update with
    | some (_, some k) => decide (sfc < k)
    | some (_, none) => true
    | none => false
  if early then d
  else
    let d := (d.modTerm g fun x => { x with update := none }).measureRtd g err
    if (d.rd .delimWindow t : Rat) / 2 * bit < |err| then
      (d.bump .jumps g).modTerm g fun x => { x with jumpRun := x.jumpRun + 1 }
    else d.filterDrift n g err

/-! ### The listening standby (R272) -/

/-- The mean shift of the listed terminals in OPERATION. -/
def Dev.legMean (d : Dev) (l : List (Nat × Rat)) : Rat :=
  let v := (l.filter fun p => d.inState p.1 2).map (·.2)
  if v.isEmpty then 0 else v.sum / (v.length : Rat)

/-- A framed burst overheard: the tree tracks, and its leg shift is filtered per terminal and averaged. `err` is the arrival less
the expectation without the shift. -/
def Dev.takeLeg (d : Dev) (t g : Nat) (err : Rat) : Dev :=
  let old := ((d.tree t).legTerms.find? fun p => p.1 == g).elim err (·.2)
  let new := old + (err - old) / (d.rd .driftAvg t : Rat)
  let l := (d.tree t).legTerms.filter (fun p => p.1 != g) ++ [(g, new)]
  let d := (d.wr .listenState t 2).modTree t fun x => { x with legTerms := l }
  d.wrS .legShiftPs t (nearest (d.legMean l))

/-! ### BURST_RECEIVE -/

/-- Codewords of a burst whose delimiter was found, on entry `e` (R49, R57): the tree counts them all, whoever sent them. -/
def Dev.countFec (d : Dev) (t e : Nat) (o : BurstObs) : Dev :=
  if d.on .bpFec (4 * t + e) then
    (d.add .treePmFecUncorr t o.uncorrectable).modTree t fun y => { y with pm := { y.pm with
      codewords := y.pm.codewords + o.codewords, uncorr := y.pm.uncorr + o.uncorrectable,
      err := y.pm.err || decide (0 < o.uncorrectable) } }
  else d

/-- The counts every granted burst of a terminal makes (R46, R49, R57, R80). -/
def Dev.countBurst (d : Dev) (t g : Nat) (x : MapBurst) (o : BurstObs) (r : BurstOutcome) : Dev :=
  let fec := d.on .bpFec (4 * t + x.entry)
  let bad := if fec then o.uncorrectable else 0
  let d := d.bump (match r with
    | .missed => .burstsMissed
    | .unframed => .burstsUnframed
    | _ => .burstsFramed) g
  let d := if r = .unframed then d.modTerm g fun y => { y with secBad := true } else d
  let d := if r = .mismatch then d.bump .idMismatch g else d
  if r = .framed then
    (d.modTree t fun y => { y with burstSeen := true }).modTerm g fun y => { y with
      pm := { y.pm with
        codewords := y.pm.codewords + (if fec then o.codewords else 0), uncorr := y.pm.uncorr + bad,
        err := y.pm.err || decide (0 < bad) },
      lastEntry := x.entry, secBits := y.secBits + o.bits,
      secErr := y.secErr + (if fec then o.correctedBits else 0), secBad := y.secBad || decide (0 < bad) }
  else d

/-- A burst in the defects of its tree and of its terminal (R53); a standby judges none. -/
def Dev.judgeBurst (d : Dev) (n t : Nat) (b : BurstRef) (x : MapBurst) (o : BurstObs) (r : BurstOutcome) : Dev :=
  if d.rd .unitRole 0 = 2 then d
  else (d.judgeTree n t b.sfc (r != .missed) (r == .framed || r == .mismatch)).judgeTerm t (t * 512 + x.terminal) r o.rdi

/-- A framed burst of a terminal: its arrival goes to the Ranging Engine, or, on a standby, to the leg shift and the terminal's
round-trip delay (R47, R76, R241, R272). -/
def Dev.measureBurst (d : Dev) (n t : Nat) (b : BurstRef) (x : MapBurst) (o : BurstObs) : Dev :=
  let g := t * 512 + x.terminal
  if d.rd .unitRole 0 = 2 then
    let err := d.reportOf t b x o - d.unshiftedPs t x - d.preamblePs t x.entry
    let d := d.takeLeg t g err
    d.measureRtd g (err - d.legS t)
  else if d.inState g 3 ∧ (d.term g).treeLos = true ∧ bitAt (d.rd .treeDefects t) 0 = false then d.fromLost n g
  else if d.inState g 2 then d.takeDrift n g b.sfc (d.reportOf t b x o - d.delimiterPs t b x)
  else d

/-- A burst of a terminal's allocations. -/
def Dev.takeData (d : Dev) (n t : Nat) (b : BurstRef) (x : MapBurst) (o : BurstObs) (r : BurstOutcome) : Dev :=
  let g := t * 512 + x.terminal
  let role := d.rd .unitRole 0
  let fate := if role = 2 then (if d.mate.keeping then FrameFate.keep else FrameFate.discard) else FrameFate.classify
  if x.orphan then
    let lost := fun (i : Interval) =>
      ((delineateInterval i (d.on .delinStrict t)).frames.filter fun c => !c.1.frame.bytes.isEmpty).length
    if r = .framed then d.add .grantOrphan t (o.intervals.map lost).sum
    else d
  else
    let d := (d.countBurst t g x o r).judgeBurst n t b x o r
    if r = .framed then
      let d := d.takeReports t b x o.reports
      let d := d.each o.messages fun d m => if role = 2 then d else d.takeMessage n g m
      let t0 := d.psTick b (d.reportOf t b x o)
      (d.measureBurst n t b x o).takeIntervals n g b x fate t0 o.intervals
    else d.takeReports t b x []

/-- A standby's receiver frames a burst, or sees signal, that no mirrored map places (R274). Frames with a mirror gap and
trees under a profile change are not considered. -/
def Dev.unplaced (d : Dev) (n t : Nat) (b : BurstRef) (o : BurstObs) : Dev :=
  if d.rd .unitRole 0 = 2 ∧ (o.signal || o.locked) = true ∧ d.mate.gaps.contains b.sfc = false ∧
      (d.quad (quadOf t)).change = 0 then
    { d with mate := { d.mate with unplacedAt := some n } }
  else d

/-- The pulse after a burst that locked within its window (R45). -/
def Dev.pulseAgain (d : Dev) (n t : Nat) (o : BurstObs) : Dev :=
  if o.locked then
    let width := d.rd .rxrstWidth t
    (d.modTree t fun x => { x with rxrst := some (n, width) }).emit (.rxrst t n width)
  else d

/-- The Gnomon stamps a framed burst of a map it has accepted, over a bridge that is up (R22, R24, R47). -/
def Dev.stampBurst (d : Dev) (t : Nat) (b : BurstRef) (x : MapBurst) (o : BurstObs) (r : BurstOutcome) : Dev :=
  let taken := match d.mapOf t b with
    | some m => !m.late.contains .gnomon
    | none => false
  if r = .framed ∧ taken = true ∧ d.bridgeUp t = true then
    let ps := (d.reportOf t b x o).floor
    d.modBurst t b fun y => { y with stamp := some ps }
  else d

/-- A response in a terminal's ranging window, or a ranging burst where its delay expects it. The window stays open after a burst
that locks, for a further response; where nothing has locked in it, it ends as a missed burst (R45, R53). -/
def Dev.takeRangingBurst (d : Dev) (n t : Nat) (b : BurstRef) (x : MapBurst) (o : BurstObs) (r : BurstOutcome) : Dev :=
  let g := t * 512 + x.terminal
  let open_ := x.window.isSome && o.locked
  let d := d.modBurst t b fun y => { y with ended := !open_, heard := y.heard || o.locked }
  if r = .missed ∧ x.heard = true then d
  else
    let d := d.countBurst t g x o r
    let d := if x.orphan then d else d.judgeBurst n t b x o r
    let d := if x.window.isSome then d.pulseAgain n t o else d
    if x.orphan || r != .framed then d
    else if d.rd .unitRole 0 = 2 then (if x.window.isNone then d.measureBurst n t b x o else d)
    else d.takeRanging n t b x o

/-- BURST_RECEIVE (R46): the burst `b` of tree `t` as the receiver saw it. A burst of no sealed map, one that has ended, or
one of a slice that does not receive (R36, R283) is not received. A discovery or ranging window takes many responses. A STANDBY
unit only overhears (R272). The keystream of a burst goes when the burst has ended (R118). -/
def execBurstReceive (n t : Nat) (b : BurstRef) (o : BurstObs) (st : State) : Host.Outcome State Fault Refusal :=
  onElement t 32 st fun st => st.at_ n fun n d =>
    match d.burstOf t b with
    | none => if d.receives t then d.unplaced n t b o else d
    | some x =>
      if x.ended || !d.receives t then d
      else
        let r := d.outcomeOf t b x o
        let d := d.stampBurst t b x o r
        let d := if r = .framed ∨ r = .mismatch then d.countFec t x.entry o else d
        match x.kind with
        | .discovery =>
          let d := d.pulseAgain n t o
          if d.rd .unitRole 0 = 2 then d else d.takeDiscovery n t b x o r
        | .ranging => d.takeRangingBurst n t b x o r
        | .data =>
          let d := d.settleBank n (quadOf t)
          ((d.modBurst t b fun x => { x with ended := true }).takeData n t b x o r).dropKeystream n t b

end Sys2Proof.Machine
end

