-- ==== Sys2Proof/Machine/TreeLine.lean ====
section
/-!
DEFINITION. Defects declared and cleared (R53-R56), performance seconds and burst-profile steering (R57, R58, R80), the
repetition of uplink indications (R59), messages from the host on the Overhead Serial Ports (R61, R62, R65).
-/
namespace Sys2Proof.Machine
open Sys2Proof

/-! ### Tree defects -/

/-- A timing has run its time at tick `n`. -/
def Timed.ripe (x : Option Timed) (n : Nat) : Bool :=
  match x with
  | some v => decide (v.since + msTicks v.ms ≤ n)
  | none => false

/-- Bits of TREE_DEFECTS. -/
def defectBit : Defect → Nat
  | .los => 0 | .lof => 1 | .ais => 2 | .rdi => 3

def Dev.treeDefect (d : Dev) (t : Nat) (x : Defect) : Bool := bitAt (d.rd .treeDefects t) (defectBit x)

/-- TREE_DEFECT_DECLARE (R53, R54): a defect whose condition has held for its declaration time, and whose mask is off. -/
def execTreeDefectDeclare (n t : Nat) (x : Defect) (s : State) : Host.Outcome State Fault Refusal :=
  onElement t 32 s fun s => s.at_ n fun n d =>
    match x with
    | .los => if Timed.ripe (d.tree t).losSet n && !d.treeDefect t .los then d.declareLos n t else d
    | .lof =>
      if Timed.ripe (d.tree t).lofSet n && !d.treeDefect t .los && !d.treeDefect t .lof then d.declareLof n t else d
    | .ais =>
      if !(d.tree t).feed && decide (d.rd .aisFrames t ≤ (d.tree t).feedRun) then d.setTreeDefect n t 2 true else d
    | .rdi => d.judgeRdi n t

/-- TREE_DEFECT_CLEAR (R53): a defect whose clear condition has held for its clear time, up to the last frame with grants that is
over; its timings start afresh. -/
def execTreeDefectClear (n t : Nat) (x : Defect) (s : State) : Host.Outcome State Fault Refusal :=
  onElement t 32 s fun s => s.at_ n fun n d =>
    match x with
    | .los =>
      let d := d.closeFrame n t
      if Timed.ripe (d.tree t).losClr n && d.treeDefect t .los then
        (d.setTreeDefect n t 0 false).modTree t fun x => { x with
          losSet := none, losClr := none, lofSet := none, lofClr := none, judged := none }
      else d
    | .lof =>
      let d := d.closeFrame n t
      if Timed.ripe (d.tree t).lofClr n && d.treeDefect t .lof then
        (d.setTreeDefect n t 1 false).modTree t fun x => { x with lofSet := none, lofClr := none, judged := none }
      else d
    | .ais =>
      if (d.tree t).feed && decide (d.rd .aisFrames t ≤ (d.tree t).feedRun) then d.setTreeDefect n t 2 false else d
    | .rdi => d.judgeRdi n t

/-! ### Terminal defects -/

/-- Bits of TERM_DEFECTS. -/
def termDefectBit : TermDefect → Nat
  | .losi => 0 | .lofi => 1 | .rdii => 3

/-- No mask of R54 is on for a terminal's defect. -/
def Dev.unmasked (d : Dev) (t : Nat) (x : TermDefect) : Bool :=
  !d.treeDefect t .los && (x == .losi || !d.treeDefect t .lof)

/-- The bursts a terminal's defect takes (R53). -/
def Dev.burstLimit (d : Dev) (t : Nat) : TermDefect → Nat
  | .losi => d.rd .losiBursts t
  | .lofi => d.rd .lofiBursts t
  | .rdii => d.rd .rdiBursts t

/-- The runs toward and away from a terminal's defect. -/
def Term.runs (x : Term) : TermDefect → Nat × Nat
  | .losi => (x.missRun, x.lockRun)
  | .lofi => (x.unframedRun, x.framedRun)
  | .rdii => (x.rdiRun, x.noRdiRun)

/-- TERMINAL_DEFECT_DECLARE (R53, R55, R68). -/
def execTerminalDefectDeclare (n g : Nat) (x : TermDefect) (s : State) : Host.Outcome State Fault Refusal :=
  onElement g 16384 s fun s => s.at_ n fun n d =>
    let t := treeOfTerm g
    if d.unmasked t x && decide (d.burstLimit t x ≤ ((d.term g).runs x).1) then d.setTermDefect n g (termDefectBit x) true else d

/-- TERMINAL_DEFECT_CLEAR (R53, R55, R68). -/
def execTerminalDefectClear (n g : Nat) (x : TermDefect) (s : State) : Host.Outcome State Fault Refusal :=
  onElement g 16384 s fun s => s.at_ n fun n d =>
    let t := treeOfTerm g
    if d.unmasked t x && decide (d.burstLimit t x ≤ ((d.term g).runs x).2) then d.setTermDefect n g (termDefectBit x) false else d

/-! ### Mate-link defects -/

def Dev.mateDefect (d : Dev) (x : Defect) : Bool := bitAt (d.rd .mateDefects 0) (defectBit x)

/-- A mate-link defect changes state: its bit, its fault source 388-391, its mark on the running second. -/
def Dev.setMateDefect (d : Dev) (n : Nat) (x : Defect) (on : Bool) : Dev :=
  if d.mateDefect x = on then d
  else
    let d := d.wr .mateDefects 0 (setBit (d.rd .mateDefects 0) (defectBit x) on)
    if on then
      ({ d with mate := { d.mate with pm := d.mate.pm.mark (defectBit x) } }).raiseLevel n { source := 388 + defectBit x }
    else d.dropLevel (388 + defectBit x)

/-- The periods of R53 for the bits of the mate header. -/
def Mate.clearRuns (m : Mate) : Mate :=
  { m with aisBit := none, rdiBit := none, aisRun := 0, noAisRun := 0, rdiRun := 0, noRdiRun := 0 }

/-- MATE_DEFECT_DECLARE (R53, R54): mate LOS masks the other three. -/
def execMateDefectDeclare (n : Nat) (x : Defect) (s : State) : Host.Outcome State Fault Refusal :=
  .next (s.at_ n fun n d =>
    let free := !d.mateDefect .los
    match x with
    | .los =>
      if Timed.ripe d.mate.losSet n then
        let d := (((d.setMateDefect n .los true).setMateDefect n .lof false).setMateDefect n .ais false).setMateDefect n
          .rdi false
        { d with mate := { d.mate.clearRuns with losSet := none, losClr := none } }
      else d
    | .lof => if free && d.mate.hunt && decide (d.mate.huntSince + frameTicks ≤ n) then d.setMateDefect n .lof true else d
    | .ais => if free && decide (2 ≤ d.mate.aisRun) then d.setMateDefect n .ais true else d
    | .rdi => if free && decide (2 ≤ d.mate.rdiRun) then d.setMateDefect n .rdi true else d)

/-- MATE_DEFECT_CLEAR (R53). The time of a running hunt counts afresh from the clear of LOS. -/
def execMateDefectClear (n : Nat) (x : Defect) (s : State) : Host.Outcome State Fault Refusal :=
  .next (s.at_ n fun n d =>
    match x with
    | .los =>
      if Timed.ripe d.mate.losClr n then
        let d := d.setMateDefect n .los false
        { d with mate := { d.mate.clearRuns with losClr := none, huntSince := if d.mate.hunt then n else d.mate.huntSince } }
      else d
    | .lof =>
      if !d.mate.hunt && decide (d.mate.huntSince + frameTicks ≤ n) then d.setMateDefect n .lof false else d
    | .ais => if 2 ≤ d.mate.noAisRun then d.setMateDefect n .ais false else d
    | .rdi => if 2 ≤ d.mate.noRdiRun then d.setMateDefect n .rdi false else d)

/-! ### Uplink indications -/

/-- INDICATION_REPEAT (R59): the frame is repeated while an enabled defect stays declared. -/
def execIndicationRepeat (n t : Nat) (s : State) : Host.Outcome State Fault Refusal :=
  onElement t 32 s fun s => s.at_ n fun n d =>
    let ms := d.rd .repeatMs t
    let on := (List.range 4).any fun b => bitAt (d.rd .treeDefects t) b && bitAt (d.rd .enableMask t) b
    if ms ≠ 0 && on && decide ((d.tree t).indAt + msTicks ms ≤ n) then d.indicate n t (d.tree t).indEvent else d

/-! ### Performance seconds (R57, R58) -/

/-- The class of a second: its marks, and whether a defect other than RDI, or RDI, is declared at its end. Without a codeword
received only a declared defect makes it errored. -/
def Pm.classify (p : Pm) (defect rdi : Bool) (ppm : Nat) : SecClass :=
  if p.defect || defect || (decide (0 < p.codewords) && decide (ppm * p.codewords ≤ p.uncorr * 1000000)) then .severe
  else if p.rdi || rdi || (p.err && decide (0 < p.codewords)) then .errored
  else .clean

/-- A second of class `c` joins those that wait, of which there were `waiting`; a scope that lists none has only clean
ones waiting. The next second begins with the defects declared now. -/
def Pm.endSecond (p : Pm) (waiting : Nat) (c : SecClass) (defect rdi : Bool) : Pm :=
  { rdi := rdi, defect := defect, codewords := 0, uncorr := 0, unavailable := p.unavailable,
    waiting := if p.waiting.isEmpty && c == .clean then []
      else (if p.waiting.isEmpty then List.replicate waiting .clean else p.waiting) ++ [c] }

/-- The oldest second committed: whether it counts in ES, in SES, in UAS, and what stays. -/
def Pm.commitSecond (p : Pm) : (Bool × Bool × Bool) × Pm :=
  let ten := p.waiting.take 10
  let down := if p.unavailable then ten.any fun c => c == .severe
    else ten.length == 10 && ten.all fun c => c == .severe
  let c := p.waiting.headD .clean
  let rest := p.waiting.tail
  ((!down && c != .clean, !down && c == .severe, down),
   { p with unavailable := down, waiting := if rest.all fun c => c == .clean then [] else rest })

/-- The terminals with anything to account for at a second's end. -/
def Dev.busyTerms (d : Dev) : List Nat :=
  (Tab.keys d.terms ++ d.instances .termState ++ d.instances .termDefects).dedup

/-! ### Steering (R80) -/

/-- The entries a terminal may move to. -/
def Dev.steerable (d : Dev) (g : Nat) : List Nat :=
  (List.range 4).filter fun k =>
    decide (d.rd .steerLow g ≤ k) && decide (k ≤ d.rd .steerHigh g) && d.on .bpValid (4 * treeOfTerm g + k) &&
      d.entryAllowed (treeOfTerm g) k

/-- A terminal in OPERATION rated at a second's end. The rate of a second without received bits is open (DESIGN CHOICE, log
row 3). -/
def Dev.steer (d : Dev) (n g : Nat) : Dev :=
  let t := treeOfTerm g
  let x := d.term g
  let (v, d) := if x.secBits = 0 then d.draw else (0, d)
  let errs := if x.secBits = 0 then v else x.secErr * 1000000
  let bits := max 1 x.secBits
  let e := d.rd .bpEntry g
  let bad := x.secBad || decide (d.rd .steerUpPpm t * bits < errs)
  let good := !x.secBad && decide (errs ≤ d.rd .steerDownPpm t * bits)
  let run := if good then x.goodSeconds + 1 else 0
  let lower := ((d.steerable g).filter fun k => decide (k < e)).getLast?
  let higher := (d.steerable g).find? fun k => decide (e < k)
  let go : Nat → Dev → Dev := fun k d => ((d.wr .bpEntry g k).modTerm g fun x => { x with goodSeconds := 0 }).mirrorTerm n g
  if bad then
    match lower with
    | some k => go k d
    | none => d.modTerm g fun x => { x with goodSeconds := 0 }
  else if decide (d.rd .steerDownS t ≤ run) then
    match higher with
    | some k => go k d
    | none => d.modTerm g fun x => { x with goodSeconds := run }
  else d.modTerm g fun x => { x with goodSeconds := run }

/-- A terminal's second ends: it is steered and classified, and its counts begin afresh. -/
def Dev.endTermSecond (d : Dev) (n waiting g : Nat) : Dev :=
  let t := treeOfTerm g
  let d := if d.inState g 2 && d.on .steerEnable t then d.steer n g else d
  let bits := d.rd .termDefects g
  let defect := bits % 4 != 0
  let rdi := bitAt bits 3
  d.modTerm g fun x => { x with
    secErr := 0, secBits := 0, secBad := false,
    pm := x.pm.endSecond waiting (x.pm.classify defect rdi (d.rd .sesPpm t)) defect rdi }

def Dev.endTreeSecond (d : Dev) (waiting t : Nat) : Dev :=
  let bits := d.rd .treeDefects t
  let defect := bits % 8 != 0
  let rdi := bitAt bits 3
  d.modTree t fun x => { x with
    pm := x.pm.endSecond waiting (x.pm.classify defect rdi (d.rd .sesPpm t)) defect rdi }

/-- The mate link has no SES_PPM object: the default of R57 holds (DEDUCED, log row 16). -/
def Dev.endMateSecond (d : Dev) (waiting : Nat) : Dev :=
  let bits := d.rd .mateDefects 0
  let defect := bits % 8 != 0
  let rdi := bitAt bits 3
  let p := d.mate.pm
  { d with mate := { d.mate with pm := p.endSecond waiting (p.classify defect rdi 1000) defect rdi } }

/-- PM_SECOND_END (R57, R80): once the superframe count has left second `pmSecond`. -/
def execPmSecondEnd (n : Nat) (s : State) : Host.Outcome State Fault Refusal :=
  .next (s.at_ n fun n d =>
    let now := d.rd .superframe 0 / 8000
    if now = d.pmSecond then d
    else
      let k := d.pmEnds.length
      let d := d.each allTrees fun d t => d.endTreeSecond k t
      let d := d.each d.busyTerms fun d g => d.endTermSecond n k g
      { d.endMateSecond k with pmSecond := now, pmEnds := d.pmEnds ++ [now * 8000] })

/-- The three counters of a scope advanced. -/
def Dev.countSecond (d : Dev) (es ses uas : Reg) (i : Nat) (r : Bool × Bool × Bool) : Dev :=
  ((d.when r.1 (·.bump es i)).when r.2.1 (·.bump ses i)).when r.2.2 (·.bump uas i)

/-- PM_SECOND_COMMIT (R58): the oldest second that waits, 80,000 frames after its end. -/
def execPmSecondCommit (n : Nat) (s : State) : Host.Outcome State Fault Refusal :=
  .next (s.at_ n fun _ d =>
    match d.pmEnds with
    | [] => d
    | e :: rest =>
      if d.rd .superframe 0 < e + 80000 then d
      else
        let d := d.each allTrees fun d t =>
          let r := (d.tree t).pm.commitSecond
          (d.modTree t fun x => { x with pm := r.2 }).countSecond .treePmEs .treePmSes .treePmUas t r.1
        let d := d.each (Tab.keys d.terms) fun d g =>
          let r := (d.term g).pm.commitSecond
          (d.modTerm g fun x => { x with pm := r.2 }).countSecond .termPmEs .termPmSes .termPmUas g r.1
        let r := d.mate.pm.commitSecond
        let d := { d with mate := { d.mate with pm := r.2 }, pmEnds := rest }
        d.countSecond .mateLineEs .mateLineSes .mateLineUas 0 r.1)

/-! ### Messages from the host (R61, R62, R65) -/

/-- The bytes of a message between its flags, escapes undone; none where an ABORT marker or a line error ends it (R62). -/
def ospUnescape : Bytes → Option Bytes
  | [] => some []
  | 0x7D :: b :: rest =>
    if b = 0x5E then (ospUnescape rest).map (0x7E :: ·)
    else if b = 0x5D then (ospUnescape rest).map (0x7D :: ·)
    else none
  | b :: rest => if b = 0x7D ∨ b = 0x7E then none else (ospUnescape rest).map (b :: ·)

/-- A host message that passes the checks of R65: type (1 PLOAM, 2 OMCI), broadcast, terminal, payload. A PLOAM payload is
48 bytes (R61). -/
def Dev.hostMessage (d : Dev) (wire : Bytes) : Option (Nat × Bool × Nat × Bytes) :=
  match ospUnescape wire with
  | none => none
  | some b =>
    let len := ofBytes ((b.drop 4).take 2)
    let type := b.headD 0
    let g := ofBytes ((b.drop 2).take 2) % 16384
    let payload := (b.drop 10).take len
    if decide (b.length = len + 14) && decide (1 ≤ len) && decide (len ≤ 2048) &&
        (type == 2 || (type == 1 && len == 48)) && crc32 (b.take (len + 10)) == ofBytes (b.drop (len + 10)) &&
        d.on .treeEnable (treeOfTerm g) then
      some (type, bitAt (b.getD 1 0) 0, g, payload)
    else none

/-- A host message on port `p`, as its bytes between the flags. -/
def Dev.ospHost (d : Dev) (n p : Nat) (wire : Bytes) : Dev :=
  match d.hostMessage wire with
  | none => d.bump .rxDiscarded p
  | some (type, broadcast, g, payload) =>
    let t := treeOfTerm g
    if type = 1 then
      if 64 ≤ (d.tree t).hostMsgs.length then d.bump .rxDiscarded p
      else (d.bump .rxMessages p).modTree t fun x => { x with
        hostMsgs := x.hostMsgs ++ [.host broadcast g payload], creditDue := true }
    else
      let (port, d) := (d.bump .rxMessages p).draw
      (d.queueDevice n 32 1 (g * 4096 + port % 4096) (d.rd .omccQueue t) (d.rd .mgmtDomain 0) payload false none).2

/-- OSP_HOST_MESSAGE (R42, R65). The port's clock stands until the dictionary answers (R350). -/
def execOspHostMessage (n p : Nat) (wire : Bytes) (s : State) : Host.Outcome State Fault Refusal :=
  onElement p 2 s fun s => s.at_ n fun n d => if d.chip.phase = .up then d.ospHost n p wire else d

/-- OSP_CREDIT (R65): after a change of the free slots, at most once a frame. -/
def execOspCredit (n t : Nat) (s : State) : Host.Outcome State Fault Refusal :=
  onElement t 32 s fun s => s.at_ n fun n d =>
    let sfc := d.rd .superframe 0
    if d.chip.phase = .up && (d.tree t).creditDue && decide ((d.tree t).creditSent ≠ some sfc) then
      let d := d.modTree t fun x => { x with creditDue := false, creditSent := some sfc }
      d.ospSend n (d.rd .ospPort t) (t * 512) (ospFrame 3 0 (t * 512) sfc [64 - (d.tree t).hostMsgs.length])
    else d

end Sys2Proof.Machine
end

