-- ==== Sys2Proof/Machine/Activation.lean ====
section
/-!
DEFINITION. The Activation Sequencer: discovery windows (R70, R73), slice gating (R36), ranging retries and timeouts (R68,
R77), the host's terminal commands (R68, R69, R83), rogue light (R82).
-/
namespace Sys2Proof.Machine
open Sys2Proof

/-! ### Discovery -/

/-- Frames of a discovery period (R70). -/
def Dev.discPeriod (d : Dev) (t : Nat) : Nat := if d.treeProfile t = 2 then 32000 else 8000

/-- Frames from superframe count `c` to the next one, `c` included, in which tree `t` opens its window. -/
def Dev.framesToWindow (d : Dev) (t c : Nat) : Nat :=
  let p := d.discPeriod t
  (d.rd .discPhase t * p / 32 + p - c % p) % p

/-- Tree `t` opens its discovery window in the frame of count `c` (R70). -/
def Dev.windowIn (d : Dev) (t c : Nat) : Bool := d.on .discEnable t && d.framesToWindow t c == 0

/-- DISCOVERY_WINDOW_OPEN (R50, R70, R73): in the frame of its phase a lit tree announces its valid entries again, and with
DISC_ENABLE 1 begins capturing. -/
def execDiscoveryWindowOpen (n t : Nat) (s : State) : Host.Outcome State Fault Refusal :=
  onElement t 32 s fun s => s.at_ n fun _ d =>
    let c := d.rd .superframe 0
    if (d.tree t).lit && d.framesToWindow t c == 0 && decide ((d.tree t).announcedIn ≠ some c) then
      let d := d.modTree t fun x => { x with announcedIn := some c }
      let d := d.when (d.windowIn t c) fun d => d.modTree t fun x => { x with windowFrame := some c, captures := 0 }
      d.each ((List.range 4).filter fun e => d.on .bpValid (4 * t + e)) fun d e => d.seqMsg t (.profileAnnounce e)
    else d

/-- DISC_LIST_AGE_OUT (R73): 60 s after its last refresh entry `i` leaves its tree's list. -/
def execDiscListAgeOut (n i : Nat) (s : State) : Host.Outcome State Fault Refusal :=
  onElement i 1024 s fun s => s.at_ n fun n d =>
    let t := i / 32
    match (d.tree t).listRefresh.find? fun p => p.1 == i with
    | none => d
    | some (_, at_) =>
      if n < at_ + msTicks 60000 then d
      else
        let d := ((d.wr .listSn i 0).wr .coarseRtd i 0).wr .listValid i 0
        let d := d.modTree t fun x => { x with listRefresh := x.listRefresh.filter fun p => p.1 != i }
        d.wr .discListCount t ((List.range 32).filter fun j => d.on .listValid (t * 32 + j)).length

/-! ### Slice gating (R36) -/

def Dev.setGated (d : Dev) (t : Nat) (on : Bool) : Dev :=
  d.wr .slicesGated (quadOf t) (setBit (d.rd .slicesGated (quadOf t)) (t % 4) on)

/-- Tick `n` lies in the 2 ms before tree `t` opens a discovery window: its slice is awake (R36). -/
def Dev.wakeDue (d : Dev) (n t : Nat) : Bool :=
  d.on .discEnable t &&
    decide (d.rd .frameTick 0 + d.framesToWindow t (d.rd .superframe 0) * frameTicks ≤ n + msTicks 2)

/-- SLICE_WAKE (R36): 2 ms before a discovery window. -/
def execSliceWake (n t : Nat) (s : State) : Host.Outcome State Fault Refusal :=
  onElement t 32 s fun s => s.at_ n fun n d =>
    if d.gated t && d.wakeDue n t then d.setGated t false else d

/-- The tick at which the quiet window of the frame of count `c` has passed at the head-end (R71). -/
def Dev.quietEnd (d : Dev) (t c : Nat) : Nat :=
  d.refTick ⟨c, .frame, 0⟩ + psToTicks ((d.rd .minRtd t + d.quietNs t) * 1000)

/-- SLICE_GATE (R36): after a window that captured nothing, a slice with no terminal past capture, until it wakes for the
next. -/
def execSliceGate (n t : Nat) (s : State) : Host.Outcome State Fault Refusal :=
  onElement t 32 s fun s => s.at_ n fun n d =>
    match (d.tree t).windowFrame with
    | none => d
    | some c =>
      if d.treeProfile t == 3 && !d.anyCaptured t && (d.tree t).captures == 0 && decide (d.quietEnd t c ≤ n) &&
          !(d.wakeDue n t && decide (c ≠ d.rd .superframe 0)) then
        d.setGated t true
      else d

/-! ### Ranging -/

/-- RANGE_RETRY (R68): 16 frames after the ranging grant, or the delay, without a framed burst. -/
def execRangeRetry (n g : Nat) (s : State) : Host.Outcome State Fault Refusal :=
  onElement g 16384 s fun s => s.at_ n fun n d =>
    let t := treeOfTerm g
    let x := d.term g
    if d.inState g 1 && !(d.tree t).rangeWanted.contains g && decide (x.tryFrame + 16 ≤ d.rd .superframe 0) then
      if x.triesLeft ≤ 1 then (d.bump .rangeFail t).toEmpty n g true
      else
        let d := d.modTerm g fun x => { x with
          triesLeft := x.triesLeft - 1, eqdSent := none, tryFrame := d.rd .superframe 0 }
        d.modTree t fun x => { x with rangeWanted := x.rangeWanted ++ [g] }
    else d

/-- RANGE_TIMEOUT (R68). -/
def execRangeTimeout (n g : Nat) (s : State) : Host.Outcome State Fault Refusal :=
  onElement g 16384 s fun s => s.at_ n fun n d =>
    match (d.term g).rangeAt with
    | none => d
    | some at_ =>
      if d.inState g 1 && decide (at_ + (d.term g).lostTicks ≤ n) then
        (d.bump .rangeFail (treeOfTerm g)).toEmpty n g true
      else d

/-- LOST_TIMEOUT (R68). -/
def execLostTimeout (n g : Nat) (s : State) : Host.Outcome State Fault Refusal :=
  onElement g 16384 s fun s => s.at_ n fun n d =>
    match (d.term g).lostAt with
    | none => d
    | some at_ =>
      if d.inState g 3 && decide (at_ + (d.term g).lostTicks ≤ n) then (d.bump .lostEvents g).toEmpty n g true else d

/-- JUMP_RERANGE (R77): eight consecutive jumped samples. -/
def execJumpRerange (n g : Nat) (s : State) : Host.Outcome State Fault Refusal :=
  onElement g 16384 s fun s => s.at_ n fun n d =>
    if d.inState g 2 && decide (8 ≤ (d.term g).jumpRun) then d.toRanging n g (d.centredWindow (treeOfTerm g)) else d

/-! ### The host's commands (R68, R69, R83) -/

/-- COMMAND 1 deactivate, 2 quarantine, 3 release. A transition absent from the table changes nothing. A dark tree sends
nothing (R361). -/
def Dev.termCommand (d : Dev) (n g v : Nat) : Dev :=
  let lit := (d.tree (treeOfTerm g)).lit
  if v = 1 then (if d.inState g 0 then d else d.toEmpty n g lit)
  else if v = 2 then (if d.inState g 4 then d else d.toQuarantine n g)
  else if d.inState g 4 then
    let d := d.toEmpty n g false
    d.when lit fun d => d.seqMsg (treeOfTerm g) (.enable (d.rd .snProvision g))
  else d

/-! ### Rogue light (R82) -/

/-- ROGUE_STATE after a watched frame, from the last eight frames' (lit, signal throughout), the newest last. -/
def rogueNext (count : Nat) (hist : List (Bool × Bool)) (old : Nat) : Nat :=
  let full := hist.length == 8
  if full && hist.all (·.2) then 2
  else if count ≤ (hist.filter (·.1)).length then 1
  else if full && hist.all (fun x => !x.1) then 0
  else old

/-- The idle slots of frame `sfc` that map sealing handed the detector (R22, R82), as (reference time, start, end), in line bytes:
those of each map it has accepted (R24). -/
def Dev.watchedSlots (d : Dev) (t sfc : Nat) : List (BurstRef × Nat × Nat) :=
  ((d.tree t).maps.filter fun m => m.sfc == sfc && !m.late.contains .rogue).flatMap fun m =>
    m.idle.map fun x => (⟨m.sfc, m.point, 0⟩, x.1, x.2)

/-- The tick at which a line byte of an arrival period comes (R75). -/
def Dev.byteTick (d : Dev) (t : Nat) (b : BurstRef) (byte : Nat) : Nat :=
  d.psTick b ((d.targetRtd t : Rat) * 1000 + (byte : Rat) * 8 * bitPs (d.upRate t))

/-- A watched slot: the pulse at its start, and with RSSI_ENABLE 1 the RSSI trigger at its middle (R82). -/
def Dev.watchSlot (d : Dev) (t : Nat) (x : (BurstRef × Nat × Nat) × RogueSlot) : Dev :=
  let (b, lo, hi) := x.1
  let d := d.emit (.rxrst t (d.byteTick t b lo) (d.rd .rxrstWidth t))
  d.when (d.on .rssiEnable t) fun d =>
    ((d.emit (.rssiTrigger t (d.byteTick t b ((lo + hi) / 2)))).bump .rssiTriggers t).wr .rssiRaw t x.2.rssi

/-- A slot in which nothing was seen. -/
def darkSlot : RogueSlot := ⟨false, false, false, 0⟩

/-- The watched slots of a frame with what the detector saw in each: nothing, where it reports nothing. -/
def Dev.watched (d : Dev) (t : Nat) (o : RogueObs) : List ((BurstRef × Nat × Nat) × RogueSlot) :=
  let slots := d.watchedSlots t o.sfc
  slots.zip (o.slots ++ List.replicate slots.length darkSlot)

/-- ROGUE_WATCH: the watched slots of one frame judged, once; a frame that has none is not watched, nor is a tree whose
receiver does not receive, or whose sideband chain is in error (R345). -/
def execRogueWatch (n t : Nat) (o : RogueObs) (s : State) : Host.Outcome State Fault Refusal :=
  onElement t 32 s fun s => s.at_ n fun n d =>
    let seen := d.watched t o
    if seen.isEmpty || !(d.tree t).lit || !d.receives t || decide (o.sfc < (d.tree t).watchedTo) ||
        d.rd .sbState (quadOf t) == 2 then d
    else
      let lit := seen.any fun x => x.2.lock || x.2.signal
      let hist := ((d.tree t).rogueHist ++ [(lit, seen.all fun x => x.2.holds)])
      let hist := hist.drop (hist.length - 8)
      let d := (d.each seen fun d x => d.watchSlot t x).modTree t fun x => { x with rogueHist := hist, watchedTo := o.sfc + 1 }
      let st := rogueNext (d.rd .rogueCount t) hist (d.rd .rogueState t)
      let d := d.wr .rogueState t st
      let d := if st = 0 then d.dropLevel (8 * t + 6) else d.raiseLevel n { source := 8 * t + 6, index := t }
      if lit then
        let d := d.bump .idleLit t
        match o.named with
        | some i =>
          let g := t * 512 + i
          if i < 512 ∧ d.inState g 0 = false then
            let d := d.wr .rogueSuspect t g
            if d.on .rogueAuto t && !d.inState g 4 then d.toQuarantine n g else d
          else d.wr .rogueSuspect t 0xFFFF
        | none => d.wr .rogueSuspect t 0xFFFF
      else d

/-! ### The tree's enable, rate and entries -/

/-- TREE_ENABLE written (R66, R67, R360): 1 lights the tree, 0 darkens it, whether it was lit or not. -/
def Dev.setTreeEnable (d : Dev) (n t v : Nat) : Dev :=
  let old := d.on .treeEnable t
  let d := d.wr .treeEnable t v
  if v = 1 then (if !old && d.mayLight t then d.lightTree t else d)
  else d.darken n t false

/-- LINE_MODE written on an inactive tree (R66, R79): the tree's rate and the BP_RATE of its entries. -/
def Dev.setLineMode (d : Dev) (t v : Nat) : Dev :=
  let d := d.wr .lineMode t v
  d.each (List.range 4) fun d e => d.wr .bpRate (4 * t + e) (d.upRate t)

/-- A sealed map whose period is not over at tick `n` names an entry: the frame that carries it, or the sub-period (R50). -/
def Dev.entryNamed (d : Dev) (n t e : Nat) : Bool :=
  (d.tree t).maps.any fun m =>
    decide (n < d.refTick ⟨m.sfc, m.point, 0⟩ + (if m.point = .frame then frameTicks else subTicks)) &&
      m.bursts.any fun b => b.entry == e

/-- BP_VALID written (R50): an entry is announced on an active tree, or withdrawn. -/
def Dev.setBpValid (d : Dev) (i v : Nat) : Dev :=
  let t := i / 4
  let e := i % 4
  let old := d.rd .bpValid i
  let d := d.wr .bpValid i v
  if v = old then d
  else
    let d := d.modTree t fun x => { x with announced := x.announced.filter (· != e) }
    if (d.tree t).lit then d.seqMsg t (if v = 1 then .profileAnnounce e else .profileWithdraw e) else d

end Sys2Proof.Machine
end

