-- ==== Sys2Proof/Machine/BufferOps.lean ====
section
/-!
DEFINITION. The Leak Auditor (R189, R190), free-store modes (R186), ends of holds (R193-R195), aggregation groups (R196-R198).
-/
namespace Sys2Proof.Machine
open Sys2Proof

/-! ### The free store -/

/-- Cells of bank `b` that its ring does not hold. -/
def Ring.used (r : Ring) (b : Nat) : List Nat :=
  ((List.range r.fresh ++ r.skip.filter fun k => decide (r.fresh ≤ k)).map fun k => k * 32 + b).filter fun c => !r.back.contains c

/-- Cells that the free store does not hold. -/
def Dev.usedCells (d : Dev) : List Nat :=
  if d.rd .freeMode 0 = 0 then (d.buf.rings.map fun p => p.2.used p.1).flatten else d.buf.taken

/-- The free store holds cell `c`. -/
def Dev.cellFree (d : Dev) (c : Nat) : Bool :=
  if d.rd .freeMode 0 = 0 then
    let r := d.ring (c % 32)
    r.back.contains c || (decide (r.fresh ≤ c / 32) && !r.skip.contains (c / 32))
  else !d.buf.taken.contains c

/-- Cell `c` is removed from the free store. -/
def Dev.removeFree (d : Dev) (c : Nat) : Dev :=
  let d :=
    if d.rd .freeMode 0 = 0 then
      let r := d.ring (c % 32)
      d.setRing (c % 32) { r with back := r.back.filter (· != c), skip := if r.fresh ≤ c / 32 then c / 32 :: r.skip else r.skip }
    else { d with buf := { d.buf with taken := c :: d.buf.taken } }
  (d.wr .cellsFree 0 (d.rd .cellsFree 0 - 1)).bump .bankCellsUsed (c % 32)

/-- The free store rebuilt in mode `v` (R186): in ring mode every bank's free cells in ascending order. -/
def Dev.rebuildStore (d : Dev) (v : Nat) : Dev :=
  let used := d.usedCells
  let d := d.wr .freeMode 0 v
  if v = 0 then
    let d := { d with buf := { d.buf with rings := [], taken := [] } }
    d.each (List.range 32) fun d b =>
      d.setRing b { skip := used.filterMap fun c => if c % 32 = b then some (c / 32) else none }
  else { d with buf := { d.buf with rings := [], taken := used } }

/-! ### The Leak Auditor -/

/-- Chains that a descriptor names. -/
def Dev.ownedChains (d : Dev) : Tab Chain := d.buf.chains.filter fun p => d.buf.descs.any fun x => x.2.chain == p.1

/-- Cells that valid descriptors' chains name. -/
def Dev.ownedCells (d : Dev) : List Nat := (d.ownedChains.map fun p => p.2.cells).flatten

/-- The cells that two chains name. -/
def sharedCells (l : Tab Chain) : List Nat :=
  ((l.map fun p => p.2.cells.filter fun c => l.any fun q => q.1 != p.1 && q.2.cells.contains c).flatten).dedup

/-- A cell that is owned and free. -/
def Dev.fixDoubleOwned (d : Dev) (n c : Nat) : Dev := ((d.removeFree c).bump .doubleOwned 0).event n 418 c

/-- The chains that name cell `c`. -/
def Dev.chainsOf (d : Dev) (c : Nat) : List Nat := (d.ownedChains.filter fun p => p.2.cells.contains c).map (·.1)

/-- A cell that two chains name: their frames are poisoned. -/
def Dev.fixCrossOwned (d : Dev) (n c : Nat) : Dev :=
  let l := d.chainsOf c
  let d := { d with buf := { d.buf with descs := d.buf.descs.map fun (p : Nat × Desc) =>
    (p.1, if l.contains p.2.chain then { p.2 with poison := true } else p.2) } }
  (d.bump .crossOwned 0).event n 418 c

/-- A leaked cell found by two consecutive sweeps returns. -/
def Dev.reclaim (d : Dev) (n c : Nat) : Dev := ((d.freeCell n c).bump .leakReclaimed 0).event n 419 c

/-- Pool accounting as the chains have it. -/
def Dev.repairPools (d : Dev) : Dev :=
  d.each (List.range 35) fun d k =>
    d.wr .poolUsed k ((d.buf.chains.filter fun p => p.2.pool == k).map fun p => p.2.cells.length).sum

/-- The frames of every chain that names cell `c` are poisoned: it has been found before. -/
def Dev.cellPoisoned (d : Dev) (c : Nat) : Bool :=
  let l := d.chainsOf c
  (d.buf.descs.filter fun p => l.contains p.2.chain).all fun p => p.2.poison

/-- One sweep of R189. -/
def Dev.sweep (d : Dev) (n : Nat) : Dev :=
  let d := d.settleSends n
  let owned := d.ownedCells
  let leaked := d.usedCells.filter fun c => !owned.contains c
  let again := leaked.filter d.buf.noted.contains
  let d := d.each (owned.dedup.filter d.cellFree) fun d c => d.fixDoubleOwned n c
  let d := d.each ((sharedCells d.ownedChains).filter fun c => !d.cellPoisoned c) fun d c => d.fixCrossOwned n c
  let d := if again.isEmpty then d
    else
      let kept := d.ownedChains
      let d := { d with buf := { d.buf with chains := kept } }
      (d.each again fun d c => d.reclaim n c).repairPools
  ({ d with buf := { d.buf with noted := leaked.filter fun c => !again.contains c } }).bump .sweeps 0

/-- LEAK_SWEEP (R189): the periodic sweep, which pauses while an audit runs. -/
def execLeakSweep (n : Nat) (s : State) : Host.Outcome State Fault Refusal :=
  .next (s.at_ n fun n d => if d.opRuns 5 then d else d.sweep n)

/-- What the sweeps have reclaimed, removed or poisoned. -/
def Dev.repairs (d : Dev) : Nat := d.rd .leakReclaimed 0 + d.rd .doubleOwned 0 + d.rd .crossOwned 0

/-- AUDIT_DONE (R190): two sweeps, and AUDIT_STATUS. -/
def execAuditDone (n : Nat) (s : State) : Host.Outcome State Fault Refusal :=
  .next (s.at_ n fun n d =>
    if d.opRuns 5 then
      let e := (d.sweep n).sweep n
      (e.wr .auditStatus 0 (if e.repairs = d.repairs then 1 else 2)).endOp n
    else d)

/-! ### Holds -/

/-- PORT_HOLD_EXPIRY (R193). -/
def execPortHoldExpiry (n p : Nat) (s : State) : Host.Outcome State Fault Refusal :=
  onElement p 16 s fun s => s.at_ n fun n d =>
    d.settlePortHold n p

/-- TERM_HOLD_EXPIRY (R194). -/
def execTermHoldExpiry (n g : Nat) (s : State) : Host.Outcome State Fault Refusal :=
  onElement g 16384 s fun s => s.at_ n fun n d =>
    d.settleTermHold n g

/-! ### Aggregation groups -/

/-- LAG_REVERT (R198): a member that has been up for REVERT_MS takes its buckets back. -/
def execLagRevert (n a p : Nat) (s : State) : Host.Outcome State Fault Refusal :=
  if a < 8 ∧ p < 16 then
    .next (s.at_ n fun n d =>
      match (d.port p).revertAt with
      | some due =>
        if due ≤ n ∧ d.groupOfPort p = some a then (d.modPort p fun x => { x with revertAt := none }).revertBuckets p else d
      | none => d)
  else .fault .noSuchElement

/-- A LAG_BUCKETS record written by the host (R197, R198). -/
def Dev.writeBucket (d : Dev) (k v : Nat) : Dev := (d.setWin 0x3701 k v).forgetBuckets [k]

/-- MEMBERS written (R196, R197). -/
def Dev.setMembers (d : Dev) (a v : Nat) : Dev := (d.wr .lagMembers a (v % 65536)).refillGroup a

end Sys2Proof.Machine
end

