-- ==== Sys2Proof/Machine/Parser.lean ====
section
/-!
DEFINITION. The Parse Graph: nodes, transitions, the walk over a frame's headers, the rule key (R138-R146).
-/
namespace Sys2Proof.Machine
open Sys2Proof

/-! ### Fields of a frame -/

/-- Byte `i` of a frame; zero past its end. -/
def byteAt (b : Bytes) (i : Nat) : Nat := b.getD i 0 % 256

/-- The number that `n` bytes from byte `i` spell. -/
def numAt (b : Bytes) (i n : Nat) : Nat := ofBytes ((List.range n).map fun k => byteAt b (i + k))

/-! ### Nodes and transitions -/

/-- The kinds of node (R138). -/
inductive NodeKind where
  | generic | eth | vlan | mpls | ipv4 | ipv6 | ipv6Ext | ipv6Frag | tcp | udp | l4Other | tunnel
  deriving DecidableEq, Repr

def nodeKind (w : Nat) : NodeKind :=
  match field w 124 4 with
  | 1 => .eth | 2 => .vlan | 3 => .mpls | 4 => .ipv4 | 5 => .ipv6 | 6 => .ipv6Ext | 7 => .ipv6Frag | 8 => .tcp
  | 9 => .udp | 10 => .l4Other | 11 => .tunnel | _ => .generic

/-- The next node for a selector, of the transitions of node word `w` (R139). -/
def nextNode (trs : Tab Nat) (w sel : Nat) : Nat :=
  let base := field w 76 10
  let hit := ((List.range (field w 72 4)).map fun k => Tab.get 0 trs ((base + k) % 1024)).find? fun x =>
    sel &&& field x 32 16 == field x 48 16 &&& field x 32 16
  match hit with
  | some x => field x 24 8
  | none => field w 64 8

/-- The header length that node word `w` gives a header at byte `off` (R138). -/
def headerLength (b : Bytes) (w off : Nat) : Nat :=
  let v := byteAt b (off + field w 108 6)
  match field w 122 2 with
  | 0 => field w 114 8
  | 1 => v % 16 * 4
  | 2 => (v + 1) * 8
  | _ => v / 16 * 4

/-! ### The walk -/

/-- What the walk has filled so far: the fields of R146, and what R144, R145 and R151 need. -/
structure Parsed where
  nodes : Nat := 0
  deep : Bool := false
  conflict : Bool := false
  frag : Bool := false
  fragFirst : Bool := false
  moreFrags : Bool := false
  fragId : Nat := 0
  portsParsed : Bool := false
  options : Bool := false
  csumBad : Bool := false
  unknown : Bool := false
  tags3 : Bool := false
  tunnel : Bool := false
  ethSeen : Bool := false
  firstEth : Bool := false
  tagged : Bool := false
  tags : Nat := 0
  mplsSeen : Bool := false
  dmac : Nat := 0
  smac : Nat := 0
  outer : Nat := 0
  inner : Nat := 0
  ethertype : Nat := 0
  mpls : Nat := 0
  ipVer : Nat := 0
  dscp : Nat := 0
  proto : Nat := 0
  ttl : Nat := 0
  flow : Nat := 0
  src : Nat := 0
  dst : Nat := 0
  l4src : Nat := 0
  l4dst : Nat := 0
  tcpFlags : Nat := 0
  user : Nat := 0
  ipOff : Nat := 0
  ipEnd : Option Nat := none
  deriving DecidableEq, Repr

/-- The one's complement sum of the 16-bit words of a header of `words` words at byte `off`. -/
def onesSum (b : Bytes) (off words : Nat) : Nat :=
  ((List.range words).map fun k => numAt b (off + 2 * k) 2).foldl
    (fun a x => (a + x) % 65536 + (a + x) / 65536) 0

/-- An IPv4 header at `off`. -/
def Parsed.ipv4 (x : Parsed) (b : Bytes) (off : Nat) : Parsed :=
  let len := byteAt b off % 16 * 4
  let total := numAt b (off + 2) 2
  let fo := numAt b (off + 6) 2
  let isFrag := decide (fo % 16384 ≠ 0)
  let x := { x with
    ipVer := 4, dscp := byteAt b (off + 1), proto := byteAt b (off + 9), ttl := byteAt b (off + 8),
    src := numAt b (off + 12) 4, dst := numAt b (off + 16) 4, ipOff := off, ipEnd := some (off + total),
    options := x.options || decide (20 < len),
    csumBad := x.csumBad || onesSum b off (len / 2) != 65535,
    conflict := x.conflict || decide (len < 20) || decide (total < len) || decide (b.length < off + total) }
  if isFrag then { x with
    frag := true, fragFirst := fo % 8192 == 0, moreFrags := bitAt fo 13, fragId := numAt b (off + 4) 2, portsParsed := false }
  else x

/-- An IPv6 header at `off`. -/
def Parsed.ipv6 (x : Parsed) (b : Bytes) (off : Nat) : Parsed :=
  let plen := numAt b (off + 4) 2
  let w := numAt b off 4
  { x with
    ipVer := 6, dscp := field w 20 8, flow := field w 0 20, proto := byteAt b (off + 6), ttl := byteAt b (off + 7),
    src := numAt b (off + 8) 16, dst := numAt b (off + 24) 16, ipOff := off, ipEnd := some (off + 40 + plen),
    conflict := x.conflict || decide (b.length < off + 40 + plen) }

/-- An IPv6 fragment header at `off`. -/
def Parsed.ipv6Frag (x : Parsed) (b : Bytes) (off : Nat) : Parsed :=
  let fo := numAt b (off + 2) 2
  { x with
    proto := byteAt b off, frag := true, fragFirst := fo / 8 == 0, moreFrags := bitAt fo 0,
    fragId := numAt b (off + 4) 4, portsParsed := false }

/-- A UDP header at `off` (R144). -/
def Parsed.udp (x : Parsed) (b : Bytes) (off : Nat) : Parsed :=
  let len := numAt b (off + 4) 2
  let long := match x.ipEnd with
    | some e => decide (e < off + len)
    | none => false
  { x with
    l4src := numAt b off 2, l4dst := numAt b (off + 2) 2, portsParsed := true,
    conflict := x.conflict || decide (len < 8) || (!x.frag && long) }

/-- A VLAN tag at `off`: the first is outer, the second inner. -/
def Parsed.vlan (x : Parsed) (b : Bytes) (off sel : Nat) : Parsed :=
  let tag := numAt b off 2
  let x := { x with ethertype := sel, tags := x.tags + 1 }
  match x.tags with
  | 1 => { x with outer := tag }
  | 2 => { x with inner := tag }
  | _ => { x with tags3 := true }

/-- The fixed fields of a node's kind (R140, R146). -/
def Parsed.fixed (x : Parsed) (k : NodeKind) (b : Bytes) (off sel : Nat) : Parsed :=
  match k with
  | .generic => x
  | .eth => { x with ethSeen := true, dmac := numAt b off 6, smac := numAt b (off + 6) 6, ethertype := sel }
  | .vlan => x.vlan b off sel
  | .mpls => if x.mplsSeen then x else { x with mplsSeen := true, mpls := numAt b off 3 }
  | .ipv4 => x.ipv4 b off
  | .ipv6 => x.ipv6 b off
  | .ipv6Ext => { x with proto := byteAt b off, options := true }
  | .ipv6Frag => x.ipv6Frag b off
  | .tcp => { x with l4src := numAt b off 2, l4dst := numAt b (off + 2) 2, tcpFlags := byteAt b (off + 13), portsParsed := true }
  | .udp => x.udp b off
  | .l4Other => { x with l4src := numAt b off 2, portsParsed := true }
  | .tunnel => { x with tunnel := true, tags := 0, mplsSeen := false }

/-- An extraction (R138): bytes of the header at `off` into USER; what would land past byte 7 is discarded. -/
def Parsed.extract (x : Parsed) (e : Nat) (b : Bytes) (off : Nat) : Parsed :=
  if bitAt e 31 then
    { x with user := (List.range (field e 21 4 + 1)).foldl (fun u i =>
        let at_ := field e 17 4 + i
        if at_ ≤ 7 then setField u (56 - 8 * at_) 8 (byteAt b (off + field e 25 6 + i)) else u) x.user }
  else x

/-- A header that ends the walk whatever its transitions say (R140). -/
def Parsed.endsWalk (x : Parsed) (k : NodeKind) : Bool := (k == .ipv4 || k == .ipv6Frag) && x.frag && !x.fragFirst

/-- The walk from node `node` at byte `off` (R140, R141). -/
def walk (nodes trs : Tab Nat) (b : Bytes) : Nat → Nat → Nat → Parsed → Parsed
  | 0, _, _, x => { x with deep := true }
  | fuel + 1, node, off, x =>
    if node = 0xFF then x
    else if node = 0xFE then { x with unknown := true }
    else if 12 ≤ x.nodes then { x with deep := true }
    else
      let w := Tab.get 0 nodes node
      let len := headerLength b w off
      if 64 < off + len then { x with deep := true }
      else if (len = 0 ∧ field w 122 2 ≠ 0) ∨ b.length < off + len then { x with conflict := true }
      else
        let k := nodeKind w
        let sel := numAt b (off + field w 102 6) 2 &&& field w 86 16
        let x := { x with
          nodes := x.nodes + 1, firstEth := if x.nodes = 0 then k == NodeKind.eth else x.firstEth,
          tagged := if x.nodes = 1 then x.firstEth && k == NodeKind.vlan else x.tagged }
        let x := ((x.fixed k b off sel).extract (field w 32 32) b off).extract (field w 0 32) b off
        if x.endsWalk k then x else walk nodes trs b fuel (nextNode trs w sel) (off + len) x

/-- The parse of a frame from node `start`, byte 0 first. -/
def parseFrame (v : Tables) (start : Nat) (b : Bytes) : Parsed :=
  walk v.nodes v.transitions b 13 start 0 {}

/-! ### Flags and the key (R143, R146) -/

/-- FLAGS of the key; `fragMiss` comes from the Fragment Table. -/
def Parsed.flags (x : Parsed) (fragMiss : Bool) : Nat :=
  let bcast := x.ethSeen && x.dmac == 2 ^ 48 - 1
  let mcast := x.ethSeen && !bcast && bitAt x.dmac 40
  let smacBad := x.ethSeen && (x.smac == 0 || bitAt x.smac 40)
  ofBool x.deep * 2 ^ 15 + ofBool x.conflict * 2 ^ 14 + ofBool x.frag * 2 ^ 13 + ofBool x.fragFirst * 2 ^ 12 +
    ofBool fragMiss * 2 ^ 11 + ofBool x.options * 2 ^ 10 + ofBool x.csumBad * 2 ^ 9 + ofBool x.unknown * 2 ^ 8 +
    ofBool x.tags3 * 2 ^ 7 + ofBool (x.ipVer != 0 && decide (x.ttl ≤ 1)) * 2 ^ 6 + ofBool bcast * 2 ^ 5 +
    ofBool mcast * 2 ^ 4 + ofBool smacBad * 2 ^ 3 + ofBool x.tunnel * 2 ^ 2

/-- The 640-bit key (R146). -/
def Parsed.key (x : Parsed) (srcKind srcNum encPort srcMeta flags : Nat) : Nat :=
  srcKind * 2 ^ 638 + srcNum * 2 ^ 624 + encPort * 2 ^ 612 + x.nodes * 2 ^ 608 + flags * 2 ^ 592 + srcMeta * 2 ^ 576 +
    x.dmac * 2 ^ 528 + x.smac * 2 ^ 480 + x.outer * 2 ^ 464 + x.inner * 2 ^ 448 + x.ethertype * 2 ^ 432 +
    x.mpls * 2 ^ 408 + x.ipVer * 2 ^ 404 + x.dscp * 2 ^ 396 + x.proto * 2 ^ 388 + x.ttl * 2 ^ 380 + x.flow * 2 ^ 360 +
    x.src * 2 ^ 232 + x.dst * 2 ^ 104 + x.l4src * 2 ^ 88 + x.l4dst * 2 ^ 72 + x.tcpFlags * 2 ^ 64 + x.user

end Sys2Proof.Machine
end

