-- ==== Sys2Proof/Machine/Classify.lean ====
section
/-!
DEFINITION. Classification: the Fragment Table (R145), Rule Memory (R147-R149), the Address Table and Prefix Memory searches
(R164, R165, R168), destinations (R150), the flow hash (R152), learning requests (R170), sampling (R297), the buffer write.
-/
namespace Sys2Proof.Machine
open Sys2Proof

/-! ### The Fragment Table (R145) -/

/-- An entry is the one of a fragment. -/
def Frag.isOf (f : Frag) (x : Parsed) : Bool :=
  f.ipVer == x.ipVer && f.src == x.src && f.dst == x.dst && f.proto == x.proto && f.ident == x.fragId

def Dev.setFrags (d : Dev) (l : List Frag) : Dev := { d with frags := l }.wr .fragEntries 0 l.length

/-- An entry has not been refreshed for FRAG_AGE ms: it is free. -/
def Dev.fragOld (d : Dev) (n : Nat) (f : Frag) : Bool := decide (f.refreshed + msTicks (d.rd .fragAge 0) ≤ n)

/-- What the table does with a parsed frame: the fields with the datagram's ports, whether it is a miss. -/
def Dev.fragment (d : Dev) (n : Nat) (x : Parsed) : Parsed × Bool × Dev :=
  if !x.frag then (x, false, d)
  else
    let d := d.setFrags (d.frags.filter fun f => !d.fragOld n f)
    let rest := d.frags.filter fun f => !f.isOf x
    let hit := d.frags.find? fun f => f.isOf x
    if x.fragFirst then
      let new : Frag := ⟨x.ipVer, x.src, x.dst, x.proto, x.fragId, x.l4src, x.l4dst, n⟩
      if !x.portsParsed then (x, false, d)
      else if hit.isSome then (x, false, d.setFrags (rest ++ [new]))
      else if 8192 ≤ d.frags.length then (x, false, d.bump .fragFull 0)
      else (x, false, d.setFrags (rest ++ [new]))
    else match hit with
      | none => (x, true, d)
      | some f =>
        ({ x with l4src := f.sport, l4dst := f.dport }, false,
         d.setFrags (if x.moreFrags then rest ++ [{ f with refreshed := n }] else rest))

/-- FRAG_AGE_OUT (R145): entry `k` of the table, not refreshed for FRAG_AGE ms. -/
def execFragAgeOut (n k : Nat) (s : State) : Host.Outcome State Fault Refusal :=
  onElement k 8192 s fun s => s.at_ n fun n d =>
    match d.frags[k]? with
    | none => d
    | some f => if d.fragOld n f then d.setFrags (d.frags.eraseIdx k) else d

/-! ### Rule Memory (R147) -/

/-- The RULES record `w` matches a key (R158). -/
def ruleMatches (w key : Nat) : Bool :=
  bitAt w 56 && (key &&& field w 192 640 == field w 832 640 &&& field w 192 640)

/-- The lowest matching entry and its action. -/
def matchRule : Tab Nat → Nat → Option (Nat × Nat)
  | [], _ => none
  | (e, w) :: r, key => if ruleMatches w key then some (e, field w 64 128) else matchRule r key

/-- The fields of an ACTION (R149). -/
structure Action where
  verdict : Nat
  mode : Nat
  kind : Nat
  dest : Nat
  domain : Nat
  queue : Nat
  colour : Nat
  meterEn : Bool
  meter : Nat
  learn : Bool
  sample : Bool
  deriving DecidableEq, Repr

def actionOf (w : Nat) : Action :=
  { verdict := field w 126 2, mode := field w 124 2, kind := field w 122 2, dest := field w 96 26, domain := field w 84 12,
    queue := field w 81 3, colour := field w 79 2, meterEn := bitAt w 78, meter := field w 62 16, learn := bitAt w 43,
    sample := bitAt w 42 }

/-! ### Searches -/

/-- A SERVICE_DOMAINS record as an unlisted one reads: ENABLE 1, LEARN 1 (R157). -/
def domainDefault : Nat := 2 ^ 31 + 2 ^ 30

def Dev.domainWord (d : Dev) (k : Nat) : Nat := Tab.get domainDefault d.active.domains k

/-- A prefix record matches an address of `bits` bits in a domain (R162, R164). -/
def prefixMatches (w bits domain addr : Nat) : Bool :=
  let len := field w 56 8
  bitAt w 55 && (bitAt w 54 || field w 32 12 == domain) && decide (len ≤ bits) &&
    addr / 2 ^ (bits - len) == field w 64 128 / 2 ^ (bits - len)

/-- The order of R164 between rows (handle, record): the better of two, `a` of the lower handle. -/
def betterPrefix (a b : Nat × Nat) : Nat × Nat :=
  let rank : Nat → Nat := fun w => field w 56 8 * 2 + (if bitAt w 54 then 0 else 1)
  if rank a.2 < rank b.2 then b else a

/-- The longest match: DEST_KIND and DEST. -/
def Dev.prefixSearch (d : Dev) (x : Parsed) (domain : Nat) : Option (Nat × Nat) :=
  let hits := if x.ipVer = 4 then d.active.prefix4.filter fun p => prefixMatches p.2 32 domain x.dst
    else if x.ipVer = 6 then d.active.prefix6.filter fun p => prefixMatches p.2 128 domain x.dst
    else []
  match hits with
  | [] => none
  | h :: r =>
    let w := (r.foldl betterPrefix h).2
    some (field w 30 2, field w 0 26)

/-- The record number of a key in the Address Table. -/
def Dev.addrFind (d : Dev) (domain mac : Nat) : Option (Nat × AddrEntry) :=
  d.addr.entries.find? fun p => p.2.domain == domain && p.2.mac == mac

def Dev.setAddr (d : Dev) (k : Nat) (e : AddrEntry) : Dev :=
  { d with addr := { d.addr with entries := Tab.insert d.addr.entries k e } }

/-! ### The flow hash (R152) -/

/-- The 40-byte input. -/
def hashInput (x : Parsed) (domain : Nat) : Bytes :=
  if x.ipVer = 4 ∨ x.ipVer = 6 then
    let sp := if x.frag then 0 else x.l4src
    let dp := if x.frag then 0 else x.l4dst
    let small := decide (x.src < x.dst) || (x.src == x.dst && decide (sp ≤ dp))
    let p := if small then (x.src, sp) else (x.dst, dp)
    let q := if small then (x.dst, dp) else (x.src, sp)
    toBytes 2 domain ++ [x.proto, x.ipVer] ++ toBytes 16 p.1 ++ toBytes 16 q.1 ++ toBytes 2 p.2 ++ toBytes 2 q.2
  else
    toBytes 2 domain ++ toBytes 2 x.ethertype ++ toBytes 6 (min x.dmac x.smac) ++ toBytes 6 (max x.dmac x.smac) ++
      toBytes 24 0

/-- HASH. For a fragment the ports count as zero; they are compared as the rule lookup saw them. -/
def Dev.flowHash (d : Dev) (x : Parsed) (domain : Nat) : Nat := crc32c (d.rd .hashSeed 0) (hashInput x domain)

/-! ### Destinations (R150, R165, R168) -/

/-- Where a forwarded frame goes, before the choice of a group's member: a destination, or a drop and its counter. -/
inductive Target where
  | to (kind dest : Nat)
  | drop (r : Reg)
  deriving DecidableEq, Repr

/-- Resolving DEST_KIND and DEST (R150). -/
def Dev.resolve (d : Dev) (srcKind kind dest : Nat) : Target :=
  match kind with
  | 0 => if dest % 16 < d.portCount then .to 0 (dest % 16) else .drop .destInvalid
  | 1 => if srcKind = 1 then .drop .dirDrop else .to 1 dest
  | 2 => if d.groupExists (dest % 16) then .to 2 (dest % 16) else .drop .destInvalid
  | _ => .drop .destInvalid

/-- A hit that leads back to the frame's arrival port, or to the group that contains it (R168). -/
def Dev.samePort (d : Dev) (srcKind srcNum kind dest : Nat) : Bool :=
  srcKind == 0 && ((kind == 0 && dest % 16 == srcNum) || (kind == 2 && d.groupOfPort srcNum == some (dest % 16)))

/-- The destination of verdict forward, with the misses counted (R149, R165, R168). -/
def Dev.target (d : Dev) (srcKind srcNum : Nat) (a : Action) (x : Parsed) : Target × Dev :=
  match a.mode with
  | 0 => (d.resolve srcKind a.kind a.dest, d)
  | 1 =>
    match d.addrFind a.domain x.dmac with
    | none => (d.resolve srcKind a.kind a.dest, d.bump .addrMiss 0)
    | some (_, e) =>
      if d.samePort srcKind srcNum e.kind e.dest then (.drop .samePortDrop, d) else (d.resolve srcKind e.kind e.dest, d)
  | 2 =>
    match d.prefixSearch x a.domain with
    | none => (d.resolve srcKind a.kind a.dest, d.bump .pfxMiss 0)
    | some (k, e) => (d.resolve srcKind k e, d)
  | _ => (.drop .destInvalid, d)

/-! ### Learning requests (R170, R171) -/

/-- The source location of a frame, coded as R149. -/
def Dev.location (d : Dev) (srcKind srcNum encPort : Nat) : Nat × Nat :=
  if srcKind = 1 then (1, srcNum * 4096 + encPort)
  else match d.groupOfPort srcNum with
    | some a => (2, a)
    | none => (0, srcNum)

/-- A learning request: the source is searched, which sets HIT on its own location (R161, R168), and the request joins the
queue of 4,096. -/
def Dev.learnRequest (d : Dev) (domain mac : Nat) (loc : Nat × Nat) : Dev :=
  let d := match d.addrFind domain mac with
    | some (k, e) => if (e.kind, e.dest) = loc then d.setAddr k { e with hit := true } else d
    | none => d
  if 4096 ≤ (d.addr.queue.filter fun i => match i with
    | .learn _ _ _ _ => true
    | _ => false).length then d.bump .learnDrop 0
  else { d with addr := { d.addr with queue := d.addr.queue ++ [.learn domain mac loc.1 loc.2] } }

/-! ### The Latency Sampler's choice (R297) -/

/-- Whether an eligible frame is selected, with its entry begun: the identifier of the entry. -/
def Dev.sampleSelect (d : Dev) (n t0 cipher hash version entry : Nat) (w : Waiting) (a : Action) : Option Nat × Dev :=
  if !a.sample || !d.on .samplerRun 0 then (none, d)
  else
    let k := d.sampler.eligible + 1
    let d := { d with sampler := { d.sampler with eligible := k } }
    let byCount := k % max 1 (d.rd .sampleEvery 0) == 0
    let mask := d.rd .sampleHashMask 0
    let byHash := hash &&& mask == d.rd .sampleHash 0 &&& mask
    let chosen := match d.rd .sampleMode 0 with
      | 1 => byCount
      | 2 => byHash
      | _ => byCount && byHash
    if !chosen then (none, d)
    else if 256 ≤ d.sampler.followed.length then (none, d.bump .sampleSkipped 0)
    else
      let no := 2 ^ 32 - 1
      let f : Followed :=
        { id := d.sampler.nextId, seq := d.sampler.nextSeq, hash := hash, domain := a.domain,
          source := w.srcKind * 2 ^ 14 + w.srcNum, dest := 0, length := w.length, marks := version * 4, entry := entry,
          desc := 0, t0 := t0, cipher := cipher, classified := n - t0, written := no, dequeued := no, outFirst := no,
          outLast := no }
      (some f.id, { d with sampler := { d.sampler with
        nextId := f.id + 1, nextSeq := (f.seq + 1) % 2 ^ 32, followed := d.sampler.followed ++ [f] } })

/-! ### The buffer write -/

/-- What a frame's classification gives its descriptor. -/
structure Classed where
  action : Nat
  entry : Nat
  version : Nat
  hash : Nat
  sampled : Option Nat
  deriving DecidableEq, Repr

/-- The pool of a frame (R180). -/
def poolOf (srcKind srcNum destKind : Nat) : Nat :=
  if srcKind = 1 then srcNum / 512 else if destKind = 1 then 32 else if destKind = 0 then 33 else 34

/-- The member of group `a` for a hash (R197, R198): none while no member is up. -/
def Dev.member (d : Dev) (a hash : Nat) : Option Nat :=
  if (d.groupMembers a).any d.portUp then some (d.win 0x3701 (a * 256 + hash % 256) % 16) else none

/-- Writing a classified frame and queueing it: `kind` 0 port, 1 terminal, 2 host (DEST 0 the host queue, 1 the Dictionary
Engine). Its mirror copies are made when it is queued. -/
def Dev.writeFrame (d : Dev) (n : Nat) (w : Waiting) (c : Classed) (x : Parsed) (kind dest queue : Nat) : Dev :=
  let a := actionOf c.action
  let pool := poolOf w.srcKind w.srcNum kind
  match d.storeFrame n pool w.length w.bytes with
  | (none, d) => d.sampleDone c.sampled 2
  | (some (chain, d), _) =>
    let colour := if a.colour = 3 then (if bitAt x.outer 12 then 1 else 0) else a.colour
    let y : Desc :=
      { chain := chain, length := w.length, destKind := kind, dest := dest, domain := a.domain, queue := queue,
        colour := colour, meterEn := a.meterEn, meter := a.meter, entry := c.entry, version := c.version, hash := c.hash,
        srcKind := w.srcKind, srcNum := w.srcNum, pool := pool, copy := false, tagged := x.tagged, poison := false,
        sample := a.sample, markCe := false, ipOff := x.ipOff, arrival := n % 2 ^ 48, action := c.action,
        stamp := if w.srcKind = 0 then some w.stamp else none, sub := w.sub, rxTime := w.rxTime, oneStep := false, ring := none,
        sampled := c.sampled, mirror := 0, ect := x.ipVer != 0 && (x.dscp % 4 == 1 || x.dscp % 4 == 2) }
    let (k, d) := (d.bump .verInflight c.version).addDesc y
    let d := d.follow c.sampled fun f => { f with
      desc := k, written := n - f.t0, dest := kind * 2 ^ 30 + queue * 2 ^ 27 + dest % 2 ^ 26, marks := f.marks + colour }
    if kind = 2 ∧ dest = 1 then
      if d.mgmt.rxWaiting + d.mgmt.inband.length < 64 then
        ({ d with mgmt := { d.mgmt with inband := d.mgmt.inband ++ [k] } }).mirrorQueued n k
      else (d.bump .rxQueueDrop 0).dropDesc n k 1
    else
      let (queued, d) := d.enqueue n k
      if queued then d.mirrorQueued n k else d

/-! ### Classification of one frame -/

/-- A frame whose verdict is forward. -/
def Dev.forward (d : Dev) (n : Nat) (w : Waiting) (c : Classed) (x : Parsed) : Bool × Dev :=
  let a := actionOf c.action
  match d.target w.srcKind w.srcNum a x with
  | (.drop r, d) => (r != .samePortDrop, (d.bump r 0).sampleDone c.sampled 1)
  | (.to kind dest, d) =>
    if !bitAt (d.domainWord a.domain) 31 then (true, (d.bump .domainOff 0).sampleDone c.sampled 1)
    else if kind = 2 then
      match d.member dest c.hash with
      | none => (false, (d.bump .lagDownDrop dest).sampleDone c.sampled 6)
      | some p => (false, d.writeFrame n w c x 0 p a.queue)
    else (false, d.writeFrame n w c x kind dest a.queue)

/-- A frame of each verdict: whether R150 dropped it, and the device. A standby or fenced unit forwards nothing (R264). -/
def Dev.applyVerdict (d : Dev) (n : Nat) (w : Waiting) (c : Classed) (x : Parsed) : Bool × Dev :=
  let a := actionOf c.action
  let off := !bitAt (d.domainWord a.domain) 31
  match a.verdict with
  | 0 => if 2 ≤ d.rd .unitRole 0 then (false, d.sampleDone c.sampled 1) else d.forward n w c x
  | 1 => (false, d.sampleDone c.sampled 1)
  | 2 => if off then (true, (d.bump .domainOff 0).sampleDone c.sampled 1) else (false, d.writeFrame n w c x 2 0 0)
  | _ =>
    if off then (true, (d.bump .domainOff 0).sampleDone c.sampled 1)
    else if w.srcKind = 0 ∧ bitAt (d.rd .inbandEnable 0) w.srcNum = true then (false, d.writeFrame n w c x 2 1 0)
    else (true, (d.bump .inbandRefused 0).sampleDone c.sampled 1)

/-- A frame through a search pipe (R136-R152, R170). -/
def Dev.classifyFrame (d : Dev) (n : Nat) (w : Waiting) : Dev :=
  let tree := w.srcKind == 1
  let start := d.rd (if tree then .startTree else .startUplink) 0
  let (x, miss, d) := d.fragment n (parseFrame d.active start w.bytes)
  let d := (d.when x.deep fun d => d.bump .parseDeepSeen 0).when miss fun d => d.bump .fragMissSeen 0
  if x.conflict && d.rd .lenConflictAction 0 == 0 then d.bump .lenConflictDrop 0
  else
    let srcMeta := if tree then d.rd .termClassSrcMeta w.srcNum else d.rd .portClassSrcMeta w.srcNum
    let key := x.key w.srcKind w.srcNum w.encPort srcMeta (x.flags miss)
    let (entry, action, d) : Nat × Nat × Dev := match matchRule d.active.rules key with
      | some (e, act) => (e, act, d.bump .ruleHits e)
      | none => if tree then (65537, d.active.defTree, d.bump .defaultHitsTree 0)
        else (65536, d.active.defUplink, d.bump .defaultHitsUplink 0)
    let a := actionOf action
    let version := d.rd .activeVersion 0
    let hash := d.flowHash x a.domain
    let cipher := if tree then w.at_ - w.stamp else 2 ^ 32 - 1
    let (sampled, d) := d.sampleSelect n w.stamp cipher hash version entry w a
    let (dropped, d) := d.applyVerdict n w ⟨action, entry, version, hash, sampled⟩ x
    let smacBad := bitAt (x.flags miss) 3
    if a.learn && bitAt (d.domainWord a.domain) 30 && !smacBad && !dropped then
      d.learnRequest a.domain x.smac (d.location w.srcKind w.srcNum w.encPort)
    else d

/-- The tree frame a pipe takes at tick `n`: of those deciphered the first one ready, in ascending source number where several
became ready at once (R210). -/
def nextTreeFrame (n : Nat) (l : List Waiting) : Option Waiting :=
  (l.filter fun w => decide (w.at_ ≤ n)).foldl (fun b w => match b with
    | none => some w
    | some x => if w.at_ < x.at_ ∨ (w.at_ = x.at_ ∧ w.srcNum < x.srcNum) then some w else some x) none

/-- Within one cycle the ports' frames are taken in ascending number (R210). -/
def Dev.portInTurn (d : Dev) (n p : Nat) : Bool := d.sched.taken.all fun x => x.1 != n || decide (x.2 ≤ p)

/-- CLASSIFY (R137, R147, R210): a search pipe takes a tree frame if one waits, else the head of port `p`'s receive store. -/
def execClassify (n p : Nat) (s : State) : Host.Outcome State Fault Refusal :=
  onElement p 16 s fun s => s.at_ n fun n d =>
    let d := d.settleSends n
    match nextTreeFrame n d.treeWaiting with
    | some w => { d with treeWaiting := d.treeWaiting.erase w }.classifyFrame n w
    | none =>
      match (d.port p).store with
      | w :: rest =>
        if d.portInTurn n p then
          let d := { d with sched := { d.sched with taken := some (n, p) } }
          (d.modPort p fun x => { x with store := rest }).classifyFrame n w
        else d
      | [] => d

end Sys2Proof.Machine
end

