-- ==== Sys2Proof/Machine/Learning.lean ====
section
/-!
DEFINITION. The Learning Engine and the ager (R161, R166-R175), the background compare (R176).
-/
namespace Sys2Proof.Machine
open Sys2Proof

/-! ### Records and buckets (R166, R167) -/

/-- An entry as a record of ADDR_TABLE. -/
def AddrEntry.record (e : AddrEntry) : Nat :=
  e.mac * 2 ^ 80 + e.domain * 2 ^ 68 + e.kind * 2 ^ 66 + e.dest * 2 ^ 40 + 2 ^ 39 + ofBool e.static * 2 ^ 38 +
    ofBool e.hit * 2 ^ 37 + e.age * 2 ^ 34 + ofBool e.hold * 2 ^ 33 + e.learnMs * 2 ^ 17

/-- The entry that a record of an operation names: only MAC, DOMAIN, DEST_KIND and DEST are read (R174). -/
def entryOf (rec : Nat) (static : Bool) : AddrEntry :=
  { mac := field rec 80 48, domain := field rec 68 12, kind := field rec 66 2, dest := field rec 40 26, static := static,
    hit := false, age := 0, hold := false, learnMs := 0 }

/-- The bucket of a key under a seed. -/
def bucketOf (seed domain mac : Nat) : Nat := crc32c seed (toBytes 2 domain ++ toBytes 6 mac) % 2 ^ 17

def Dev.bucket0 (d : Dev) (e : AddrEntry) : Nat := bucketOf (d.rd .addrSeed0 0) e.domain e.mac
def Dev.bucket1 (d : Dev) (e : AddrEntry) : Nat := bucketOf (d.rd .addrSeed1 0) e.domain e.mac

/-- The other candidate bucket of an entry in bucket `b`. -/
def Dev.otherBucket (d : Dev) (e : AddrEntry) (b : Nat) : Nat := if d.bucket0 e = b then d.bucket1 e else d.bucket0 e

/-- The lowest free way of a bucket, as a record number. -/
def Dev.freeWay (d : Dev) (b : Nat) : Option Nat :=
  ((List.range 4).map (b * 4 + ·)).find? fun k => (Tab.find d.addr.entries k).isNone

/-- The lowest free stash slot, as a record number. -/
def Dev.freeStash (d : Dev) : Option Nat :=
  ((List.range 64).map (524288 + ·)).find? fun k => (Tab.find d.addr.entries k).isNone

def Dev.eraseAddr (d : Dev) (k : Nat) : Dev := { d with addr := { d.addr with entries := Tab.erase d.addr.entries k } }

/-! ### Insertion (R169) -/

/-- Step 3: the entry held in stash slot `k` takes the way of a victim of bucket `b`, which moves to a free way of its other
bucket. The victim, and its other bucket, are given where that one is full. The victim's way is taken in turn either way. -/
def Dev.moveVictim (d : Dev) (k b : Nat) : Option (Nat × AddrEntry) × Dev :=
  let at_ := b * 4 + d.addr.victim % 4
  match Tab.find d.addr.entries k, Tab.find d.addr.entries at_ with
  | some held, some v =>
    let d := { d with addr := { d.addr with victim := (d.addr.victim + 1) % 4 } }
    match d.freeWay (d.otherBucket v b) with
    | some j => (none, ((d.setAddr j v).setAddr at_ held).eraseAddr k)
    | none => (some (at_, v), d)
  | _, _ => (none, d)

/-- Steps 3 and 4: the entry held in stash slot `k` displaces a way of bucket `b`, and so on for at most `moves` relocations.
What is left without a place stays in the slot. -/
def Dev.relocate (d : Dev) (k b : Nat) : Nat → Dev
  | 0 => d
  | moves + 1 =>
    match d.moveVictim k b with
    | (none, d) => d
    | (some (at_, v), d) =>
      match Tab.find d.addr.entries k with
      | none => d
      | some held => ((d.setAddr at_ held).setAddr k v).relocate k (d.otherBucket v b) moves

/-- Step 1: a free way of a candidate bucket. -/
def Dev.freeCandidate (d : Dev) (e : AddrEntry) : Option Nat := (d.freeWay (d.bucket0 e)).or (d.freeWay (d.bucket1 e))

/-- An insertion: whether a place was found. -/
def Dev.insertAddr (d : Dev) (e : AddrEntry) : Bool × Dev :=
  match d.freeCandidate e with
  | some k => (true, d.setAddr k e)
  | none =>
    match d.freeStash with
    | none => (false, d.bump .learnFull 0)
    | some k => (true, (d.setAddr k e).relocate k (d.bucket0 e) (d.rd .moveLimit 0))

/-! ### Requests (R171, R172) -/

/-- The ms of a tick, mod 65,536. -/
def msOf (n : Nat) : Nat := n / 1244160 % 65536

/-- HOLD's time has passed. -/
def Dev.holdPassed (d : Dev) (n : Nat) (e : AddrEntry) : Bool :=
  decide (d.rd .moveHoldMs 0 ≤ (msOf n + 65536 - e.learnMs) % 65536)

/-- A learning request is decided. -/
def Dev.learn (d : Dev) (n domain mac kind dest : Nat) : Dev :=
  match d.addrFind domain mac with
  | none =>
    let r := d.insertAddr ⟨mac, domain, kind, dest, false, true, 0, true, msOf n⟩
    if r.1 then r.2.bump .learned 0 else r.2
  | some (k, e) =>
    let e := if e.hold && d.holdPassed n e then { e with hold := false } else e
    let d := d.setAddr k e
    if e.kind = kind ∧ e.dest = dest then d.setAddr k { e with hit := true }
    else if e.static then d.bump .staticConflict 0
    else if e.hold then d.bump .flaps 0
    else (d.setAddr k { e with kind := kind, dest := dest, hit := true, age := 0, hold := true, learnMs := msOf n }).bump .moves 0

/-- A host operation (R174): 1 insert static, 2 insert dynamic, 3 delete. Static entries are mirrored (R175). -/
def Dev.addrOperation (d : Dev) (n code rec : Nat) : Dev :=
  let e := entryOf rec (code == 1)
  let mirror : Bool → Dev → Dev := fun ins d => d.durable n fun k => .staticAddress k ins rec
  match d.addrFind e.domain e.mac with
  | none =>
    if code = 3 then d.wr .addrOpStatus 0 4
    else
      let r := d.insertAddr e
      if r.1 then (r.2.wr .addrOpStatus 0 1).when (code == 1) (mirror true) else r.2.wr .addrOpStatus 0 2
  | some (k, old) =>
    if code = 3 then ((d.eraseAddr k).wr .addrOpStatus 0 1).when old.static (mirror false)
    else if code = 2 ∧ old.static = true then d.wr .addrOpStatus 0 3
    else ((d.setAddr k e).wr .addrOpStatus 0 1).when (code == 1) (mirror true)

/-! ### Flushes (R174) -/

/-- What a flush selects: 0 all, 1 by domain, 2 by destination, 3 by both. -/
def AddrFlush.selects (f : AddrFlush) (e : AddrEntry) : Bool :=
  (f.kind % 2 == 0 || e.domain == f.domain) &&
    (f.kind / 2 % 2 == 0 || (e.kind == field f.dest 30 2 && e.dest == field f.dest 0 26))

/-- The running flush has gone over the records below `pos`: what it selects there is gone, but for keys learned behind it. -/
def Dev.flushTo (d : Dev) (pos : Nat) : Dev :=
  match d.addr.flushes with
  | [] => d
  | f :: rest =>
    let f := { f with pos := max f.pos pos }
    ({ d with addr := { d.addr with flushes := f :: rest } }).removeAddrs fun e =>
      decide (e.1 < f.pos) && f.selects e.2 && !f.spared.contains (e.2.domain, e.2.mac)

/-- The running flush moves on by a number of records the manual leaves open (DESIGN CHOICE, log row 108). -/
def Dev.flushOn (d : Dev) : Dev :=
  match d.addr.flushes with
  | [] => d
  | f :: _ => let (k, d) := d.draw; d.flushTo (min 524352 (f.pos + k))

/-- A key has been learned: behind the running flush's position it is spared. -/
def Dev.flushSpares (d : Dev) (domain mac : Nat) : Dev :=
  match d.addr.flushes, d.addrFind domain mac with
  | f :: rest, some (k, _) =>
    if k < f.pos then { d with addr := { d.addr with flushes := { f with spared := (domain, mac) :: f.spared } :: rest } } else d
  | _, _ => d

/-- ADDR_FLUSH_DONE: the running flush has gone over the table. -/
def execAddrFlushDone (n : Nat) (s : State) : Host.Outcome State Fault Refusal :=
  .next (s.at_ n fun _ d =>
    if d.addr.flushes.isEmpty || d.addrLocked then d
    else
      let d := d.flushTo 524352
      { d with addr := { d.addr with flushes := d.addr.flushes.tail } })

/-! ### The engine's queue -/

/-- One item of the queue. An entry that a relocation moves behind a running flush does not escape it. -/
def Dev.learnItem (d : Dev) (n : Nat) (i : LearnItem) : Dev :=
  let d := d.flushOn
  let d := match i with
    | .learn domain mac kind dest => (d.learn n domain mac kind dest).flushSpares domain mac
    | .op code rec => (d.addrOperation n code rec).flushSpares (field rec 68 12) (field rec 80 48)
    | .aged domain mac =>
      match d.addrFind domain mac with
      | some (k, e) => if e.static then d else (d.eraseAddr k).bump .aged 0
      | none => d
    | .terminal g => d.flushAddrs g
  d.flushTo 0

/-- LEARN_REQUEST (R171): the engine takes the head of its queue, unless ADDR_TABLE is locked. -/
def execLearnRequest (n : Nat) (s : State) : Host.Outcome State Fault Refusal :=
  .next (s.at_ n fun n d =>
    match d.addr.queue with
    | [] => d
    | i :: rest => if d.addrLocked then d else ({ d with addr := { d.addr with queue := rest } }).learnItem n i)

/-- STASH_RETRY (R169): with the queue empty, each stash entry by steps 1 and 3. -/
def execStashRetry (n : Nat) (s : State) : Host.Outcome State Fault Refusal :=
  .next (s.at_ n fun _ d =>
    if !d.addr.queue.isEmpty || d.addrLocked then d
    else
      let d := d.flushOn
      (d.each ((Tab.keys d.addr.entries).filter (524288 ≤ ·)) fun d k =>
        match Tab.find d.addr.entries k with
        | none => d
        | some e =>
          match d.freeCandidate e with
          | some j => (d.setAddr j e).eraseAddr k
          | none => (d.moveVictim k (d.bucket0 e)).2).flushTo 0)

/-- HOLD_SWEEP (R172). -/
def execHoldSweep (n : Nat) (s : State) : Host.Outcome State Fault Refusal :=
  .next (s.at_ n fun n d =>
    if d.addrLocked then d
    else { d with addr := { d.addr with entries := d.addr.entries.map fun p =>
      (p.1, if p.2.hold && d.holdPassed n p.2 then { p.2 with hold := false } else p.2) } })

/-- Ticks between two visits of the ager: AGE_TIME / 8 (R173). -/
def Dev.agePeriod (d : Dev) : Nat := d.rd .ageTime 0 * 155520000

/-- A visit of record `rec`, which holds a dynamic entry. A removal is queued behind the requests that wait. -/
def Dev.ageVisit (d : Dev) (n rec : Nat) (e : AddrEntry) : Dev :=
  let d := { d with addr := { d.addr with visited := Tab.set 0 d.addr.visited rec n } }
  if e.hit then d.setAddr rec { e with hit := false, age := 0 }
  else if e.age < 7 then d.setAddr rec { e with age := e.age + 1 }
  else { d with addr := { d.addr with queue := d.addr.queue ++ [.aged e.domain e.mac] } }

/-- AGER_VISIT (R173): the ager comes to record `rec`; it visits a dynamic entry once per AGE_TIME / 8. -/
def execAgerVisit (n rec : Nat) (s : State) : Host.Outcome State Fault Refusal :=
  onElement rec 524352 s fun s => s.at_ n fun n d =>
    match Tab.find d.addr.entries rec with
    | none => d
    | some e =>
      if e.static || d.rd .ageTime 0 == 0 || d.addrLocked || decide (n < Tab.get 0 d.addr.visited rec + d.agePeriod) then d
      else d.ageVisit n rec e

/-! ### The background compare (R176) -/

/-- The tables compared: instance base, blocks, window, records, record bytes. -/
def sweptTables : List (Nat × Nat × Nat × Nat × Nat) :=
  [(0, 64, 0x3502, 65536, 184), (1024, 128, 0x3600, 131072, 24), (2048, 32, 0x3601, 32768, 24), (3072, 4, 0x3503, 4096, 4),
   (4096, 1, 0x3500, 256, 16), (5120, 1, 0x3501, 1024, 8), (6144, 513, 0x3602, 524352, 16)]

/-- The table of a SIGNATURE instance and its block. -/
def sweptBlock (b : Nat) : Option ((Nat × Nat × Nat × Nat × Nat) × Nat) :=
  (sweptTables.find? fun t => decide (t.1 ≤ b) && decide (b < t.1 + t.2.1)).map fun t => (t, b - t.1)

/-- The sweep of SWEEP_PERIOD_MS comes to a block once (R176). -/
def Dev.sweepDue (d : Dev) (n b : Nat) : Bool := decide (Tab.get 0 d.swept b + msTicks (d.rd .sweepPeriodMs 0) ≤ n)

/-- TABLE_SWEEP (R176): block `b`, as an instance of SIGNATURE, is compared after `restarts` restarts; `differs` says whether
its reading differs from its write signature. -/
def execTableSweep (n b : Nat) (differs : Bool) (restarts : Nat) (s : State) : Host.Outcome State Fault Refusal :=
  match sweptBlock b with
  | none => .fault .noSuchElement
  | some (t, block) =>
    .next (s.at_ n fun n d =>
      if !d.sweepDue n b then d
      else
      let d := { d with swept := Tab.set 0 d.swept b n }
      if 3 ≤ restarts then d.bump .sweepSkipped 0
      else if differs then (d.bump .compareFail 0).raise n { source := 416, access := 7, index := t.2.2.1, aux := block }
      else d)

end Sys2Proof.Machine
end

