-- ==== Sys2Proof/Machine/Staging.lean ====
section
/-!
DEFINITION. Staging and versions of the rules, prefixes, service domains and graph (R153-R156, R162, R163).
-/
namespace Sys2Proof.Machine
open Sys2Proof

/-! ### Spare rows (R153, R163) -/

/-- A RULES record as an unlisted one reads: VALID 0, and VERDICT 1 in its ACTION (R149, R157). -/
def ruleDefault : Nat := 2 ^ 190

/-- The records in which two tables differ. -/
def Tab.diff (d : Nat → Nat) (a b : Tab Nat) : List Nat :=
  (Tab.keys a ++ Tab.keys b).dedup.filter fun k => Tab.get (d k) a k ≠ Tab.get (d k) b k

/-- Rows of the Prefix Memory that `k` differing records of a window take where either is valid. -/
def prefixRows (weight : Nat) (a b : Tab Nat) : Nat :=
  weight * ((Tab.diff (fun _ => 0) a b).filter fun k => bitAt (Tab.get 0 a k) 55 || bitAt (Tab.get 0 b k) 55).length

/-- The versions kept, oldest first, staging last. -/
def Dev.versions (d : Dev) : List Tables := d.older.map (·.2) ++ [d.active, d.staging]

/-- A measure of the differences between successive versions, summed. -/
def chainSum (f : Tables → Tables → Nat) : List Tables → Nat
  | a :: b :: r => f a b + chainSum f (b :: r)
  | _ => 0

/-- Spare rows of the Rule Memory in use, and of the Prefix Memory. -/
def Dev.spareRules (d : Dev) : Nat := chainSum (fun a b => (Tab.diff (fun _ => ruleDefault) a.rules b.rules).length) d.versions
def Dev.sparePrefixes (d : Dev) : Nat :=
  chainSum (fun a b => prefixRows 1 a.prefix4 b.prefix4 + prefixRows 4 a.prefix6 b.prefix6) d.versions

/-- Rows that the valid prefixes of a version take. -/
def Tables.prefixRows (v : Tables) : Nat :=
  (v.prefix4.filter fun p => bitAt p.2 55).length + 4 * (v.prefix6.filter fun p => bitAt p.2 55).length

/-- Staging fits the memories. -/
def Dev.stagingFits (d : Dev) : Bool :=
  decide (d.spareRules ≤ 16384) && decide (d.sparePrefixes ≤ 16384) && decide (d.staging.prefixRows ≤ 131072)

/-- A prefix record as stored: address bits below LENGTH are zero (R162). -/
def prefixStored (bits w : Nat) : Nat :=
  let low := bits - field w 56 8
  setField w 64 128 (field w 64 128 / 2 ^ low * 2 ^ low)

/-- A staged window record: RULES, SERVICE_DOMAINS, PARSE_NODES, PARSE_TRANSITIONS, PREFIX_V4, PREFIX_V6. -/
def Tables.record (v : Tables) (w r : Nat) : Nat :=
  match w with
  | 0x3500 => Tab.get 0 v.nodes r
  | 0x3501 => Tab.get 0 v.transitions r
  | 0x3502 => Tab.get ruleDefault v.rules r
  | 0x3503 => Tab.get domainDefault v.domains r
  | 0x3600 => Tab.get 0 v.prefix4 r
  | _ => Tab.get 0 v.prefix6 r

def Tables.setRecord (v : Tables) (w r x : Nat) : Tables :=
  match w with
  | 0x3500 => { v with nodes := Tab.set 0 v.nodes r x }
  | 0x3501 => { v with transitions := Tab.set 0 v.transitions r x }
  | 0x3502 => { v with rules := Tab.set ruleDefault v.rules r x }
  | 0x3503 => { v with domains := Tab.set domainDefault v.domains r x }
  | 0x3600 => { v with prefix4 := Tab.set 0 v.prefix4 r (prefixStored 32 x) }
  | _ => { v with prefix6 := Tab.set 0 v.prefix6 r (prefixStored 128 x) }

/-- A staging write: whether it fits; one that does not changes nothing but STAGE_FULL (R153). -/
def Dev.stage (d : Dev) (w r x : Nat) : Bool × Dev :=
  let e := { d with staging := d.staging.setRecord w r x }
  if e.stagingFits then (true, e) else (false, d.bump .stageFull 0)

/-! ### Commits (R154) -/

/-- Staging becomes the active version; the former one is kept while frames are in flight in it (R155). -/
def Dev.swapTables (d : Dev) : Dev :=
  let v := d.rd .activeVersion 0
  let older := if d.rd .verInflight v = 0 then d.older else d.older ++ [(v, d.active)]
  ({ d with older := older, active := d.staging }.wr .activeVersion 0 ((v + 1) % 4)).wr .commitStatus 0 1

/-- Step 1 of operation `o` ended within its 4 ms. -/
def Dev.commitInTime (d : Dev) (o : LongOp) : Bool := d.mgmt.commitReady.any fun k => decide (k ≤ o.start + o.maxTicks)

/-- COMMIT_SWAP (R154): the commit under way swaps once the next number is free; it is mirrored (R267). -/
def execCommitSwap (n : Nat) (s : State) : Host.Outcome State Fault Refusal :=
  .next (s.at_ n fun n d =>
    match d.mgmt.longOp with
    | none => d
    | some o => if o.code = 1 ∧ d.commitInTime o = true then (d.swapTables.durable n fun k => .commit k).endOp n else d)

/-- COMMIT_TIMEOUT (R154): a commit whose number was still held 4 ms after its start ends with nothing changed. -/
def execCommitTimeout (n : Nat) (s : State) : Host.Outcome State Fault Refusal :=
  .next (s.at_ n fun n d =>
    match d.mgmt.longOp with
    | none => d
    | some o =>
      if o.code = 1 ∧ d.commitInTime o = false ∧ o.start + o.maxTicks ≤ n then (d.wr .commitStatus 0 2).endOp n else d)

/-- Staging returns to the active version (DISCARD, R153). -/
def Dev.discardStaging (d : Dev) : Dev := { d with staging := d.active }

/-- The default graph is staged (GRAPH_DEFAULT, R142). -/
def Dev.stageGraph (d : Dev) : Dev :=
  { d with staging := { d.staging with nodes := defaultNodes, transitions := defaultTransitions } }

end Sys2Proof.Machine
end

