-- ==== Sys2Proof/Machine/Time.lean ====
section
/-!
DEFINITION. The Gnomon's events and the host's corrections (R224-R228, R233), time of day for the terminals (R234-R236), PPS
(R237, R238), the recovered clock (R239).
-/
namespace Sys2Proof.Machine
open Sys2Proof

/-! ### Corrections (R224-R228) -/

/-- The least lead of a change tick: 250 us (R226). -/
def changeLead : Nat := 311040

/-- The tick at which a change named `c1` takes effect when applied at tick `n`. -/
def changeTick (n c1 : Nat) : Nat := if c1 = 0 then n + changeLead else c1

/-- A change tick that is too early (R226), or a unit that follows its mate (R227), is DENIED. A warm reset keeps TIME_STATE
(R229) of a unit that no longer follows. -/
def Dev.checkChange (d : Dev) (n c1 : Nat) : Nat :=
  if (d.rd .timeState 0 = 3 ∧ d.rd .unitRole 0 = 2) ∨ changeTick n c1 < n + changeLead then 2 else 0

/-- What RATE_SET answers (R222, R226). -/
def Dev.checkRate (d : Dev) (n inc c1 : Nat) : Nat :=
  if inc < 883296257686 ∨ 884179995812 < inc then 4 else d.checkChange n c1

/-- What STEP_SET answers (R225, R226): a subtraction is judged with the changes pending then. -/
def Dev.checkStep (d : Dev) (n mode value c1 : Nat) : Nat :=
  let left := { d with gnomon := { d.gnomon with step := none } }
  let c := changeTick n c1
  if 3 ≤ mode ∨ 1000000000 ≤ field value 16 32 then 4
  else if mode = 1 ∧ (left.clockAhead c).time c < timeUnits value then 4
  else d.checkChange n c1

/-- The host has steered at tick `n` (R228); `first` tells a RATE_SET or STEP_SET from SERVO_ALIVE. -/
def Dev.servo (d : Dev) (n : Nat) (first : Bool) : Dev :=
  let st := d.rd .timeState 0
  let d := if st = 2 ∨ (first = true ∧ st ≠ 1) then (d.wr .timeState 0 1).dropLevel 422 else d
  { d with gnomon := { d.gnomon with servoAt := n } }

/-! ### Time of day (R234-R236) -/

/-- The start tick of the frame of superframe count `k`. -/
def Dev.frameStart (d : Dev) (k : Nat) : Nat :=
  d.rd .frameTick 0 + (k - d.rd .superframe 0) * frameTicks - (d.rd .superframe 0 - k) * frameTicks

/-- L_dn in ps. -/
def Dev.downLatency (d : Dev) (t : Nat) : Nat := d.rd .psyncLatPs t + d.rd .opticsDnPs t

/-- TOD_REF written for superframe `k`. -/
def Dev.setTod (d : Dev) (t k : Nat) : Dev :=
  let c := d.frameStart k
  let u := (d.clockAhead c).time c + d.downLatency t * 65536 / 1000
  (d.wr .todRef t (k * 2 ^ 96 + unitsTime u)).modTree t fun x => { x with todN := some k }

/-- A change of the model whose tick falls before frame start N recomputes TOD_REF and advances TOD_GEN (R236). -/
def Dev.retimeTod (d : Dev) (c : Nat) : Dev :=
  d.each allTrees fun d t =>
    match (d.tree t).todN with
    | some k => if d.on .todEnable t && decide (c < d.frameStart k) then (d.setTod t k).bump .todGen t else d
    | none => d

/-- The correction c of a terminal in ps (R235). -/
def Dev.todCorrection (d : Dev) (g : Nat) : Rat :=
  let t := treeOfTerm g
  let f : Rat := (d.rd .rtdPs g : Rat) - d.rd .trespPs t - d.downLatency t - (d.rd .burstLatPs t + d.rd .opticsUpPs t : Nat)
  let share : Nat → Nat → Rat := fun a b => (a : Rat) / ((a + b : Nat) : Rat)
  f * share (d.rd .nDn t) (d.rd .nUp t) + (d.rdS .asymPs g : Rat) - f * share (d.rd .mDn t) (d.rd .mUp t)

/-- TOD_CORR_PS, to the nearest ps, and TOD_TERM; both 0 unless the terminal is in OPERATION. -/
def Dev.todCorrPs (d : Dev) (g : Nat) : Nat :=
  if d.inState g 2 then ofSigned 32 (d.todCorrection g + 1 / 2).floor else 0
def Dev.todTerm (d : Dev) (g : Nat) : Nat :=
  match (d.tree (treeOfTerm g)).todN with
  | some _ =>
    if d.inState g 2 then
      unitsTime ((timeUnits (d.rd .todRef (treeOfTerm g) % 2 ^ 96) : Rat) + d.todCorrection g * 65536 / 1000).floor.toNat
    else 0
  | none => 0

/-- TOD_UPDATE (R234, R236): the period of a tree has passed, and the Gnomon accepted the frame's map. -/
def execTodUpdate (n t : Nat) (s : State) : Host.Outcome State Fault Refusal :=
  onElement t 32 s fun s => s.at_ n fun n d =>
    let sfc := d.rd .superframe 0
    let due := (d.tree t).todN.isNone || decide ((d.tree t).todAt + msTicks (d.rd .todPeriodMs t) ≤ n)
    let refused := (d.tree t).maps.any fun m => m.sfc == sfc && m.late.contains .gnomon
    if d.on .todEnable t && due && !refused then
      (d.setTod t (sfc + d.rd .todLead t)).modTree t fun x => { x with todAt := n }
    else d

/-! ### Changes take effect -/

/-- A change that names a counter value of at most `n` is due. -/
def changeDue (n : Nat) : Option Nat → Bool
  | some c => decide (c ≤ n)
  | none => false

/-- Every pending change whose tick has come is made, in the order of R227. -/
def Dev.advanceClock (d : Dev) (n : Nat) : Dev :=
  let m := d.clockAhead n
  let rateAt := d.gnomon.rate.map fun x => x.2
  let stepAt := d.gnomon.step.map fun x => x.2.2
  if changeDue n rateAt = true ∨ changeDue n stepAt = true then
    let c := max (if changeDue n rateAt = true then rateAt.getD 0 else 0)
      (if changeDue n stepAt = true then stepAt.getD 0 else 0)
    let rate := if changeDue n rateAt = true then none else d.gnomon.rate
    let step := if changeDue n stepAt = true then none else d.gnomon.step
    let d := d.setClock m
    { d with gnomon := { d.gnomon with rate := rate, step := step } }.retimeTod c
  else d

/-- RATE_CHANGE_APPLY (R224, R227). -/
def execRateChangeApply (n : Nat) (s : State) : Host.Outcome State Fault Refusal :=
  .next (s.at_ n fun n d =>
    match d.gnomon.rate with
    | some (_, c) => if c ≤ n then d.advanceClock n else d
    | none => d)

/-- STEP_APPLY (R225, R227). -/
def execStepApply (n : Nat) (s : State) : Host.Outcome State Fault Refusal :=
  .next (s.at_ n fun n d =>
    match d.gnomon.step with
    | some (_, _, c) => if c ≤ n then d.advanceClock n else d
    | none => d)

/-- RATE_SET applied at tick `n` (R224, R226). -/
def Dev.applyRate (d : Dev) (n inc c1 : Nat) : Dev :=
  let c := changeTick n c1
  let d := { d with gnomon := { d.gnomon with rate := some (inc, c) } }
  ((d.servo n true).durable n fun k => .rate k inc c).retimeTod c

/-- STEP_SET applied at tick `n` (R225, R226). -/
def Dev.applyStep (d : Dev) (n mode value c1 : Nat) : Dev :=
  let c := changeTick n c1
  let d := { d with gnomon := { d.gnomon with step := some (mode, value, c) } }
  ((d.servo n true).durable n fun k => .step k mode value c).retimeTod c

/-- TIME_HOLDOVER (R228): a steered clock without the host for KEEPALIVE_MS. -/
def execTimeHoldover (n : Nat) (s : State) : Host.Outcome State Fault Refusal :=
  .next (s.at_ n fun n d =>
    let ms := d.rd .keepaliveMs 0
    if ms ≠ 0 ∧ d.rd .timeState 0 = 1 ∧ d.gnomon.servoAt + msTicks ms ≤ n then
      ((d.wr .timeState 0 2).bump .holdoverEvents 0).raiseLevel n { source := 422 }
    else d)

/-- CAPTURE: counter and time latched at one tick. -/
def Dev.captureTime (d : Dev) (n : Nat) : Dev := (d.wr .captTick 0 n).wr .captTime 0 (d.timeAt n)

/-! ### PTP_TX (R233) -/

/-- What PTP_TX answers to its 260 bytes. -/
def Dev.checkPtpTx (d : Dev) (data : Bytes) : Nat :=
  let len := ofBytes ((data.drop 2).take 2)
  if d.portCount ≤ data.headD 0 ∨ len < 60 ∨ 256 < len then 4 else 0

/-- The host's message is queued; with STAMP 1 it takes the next sequence number. -/
def Dev.applyPtpTx (d : Dev) (n : Nat) (data : Bytes) : Dev :=
  let b := data.getD 1 0
  let len := ofBytes ((data.drop 2).take 2)
  let seq := d.rd .txNextSeq 0
  let d := if bitAt b 6 then d.wr .txNextSeq 0 ((seq + 1) % 65536) else d
  (d.queueDevice n 33 0 (data.headD 0) (b % 8) (d.rd .mgmtDomain 0) ((data.drop 4).take len) (bitAt b 7)
    (if bitAt b 6 then some seq else none)).2

/-! ### PPS -/

/-- PPS_OUT is driven: enabled, and by a standby only when told to; a fenced unit is held to the same (R237). It is low until the
dictionary answers (R350). -/
def Dev.ppsDriven (d : Dev) : Bool :=
  d.chip.phase == .up && d.on .ppsOutEnable 0 && (decide (d.rd .unitRole 0 ≤ 1) || d.on .ppsStandbyDrive 0)

/-- The level of the PPS_OUT pin at tick `n`. -/
def Dev.ppsLevel (d : Dev) (n : Nat) : Bool := d.ppsDriven && decide (n < d.gnomon.ppsHighUntil)

/-- The time passes a whole second plus PPS_OUT_DELAY_PS within the tick before `n`. -/
def Dev.ppsCrosses (d : Dev) (n : Nat) : Bool :=
  let m := d.clockAhead n
  let sec : Nat → Int := fun c => ((m.time c : Int) - psUnits (d.rdS .ppsOutDelayPs 0)) / (1000000000 * 65536)
  decide (0 < n) && decide (sec (n - 1) < sec n)

/-- PPS_OUT_EDGE (R237). -/
def execPpsOutEdge (n : Nat) (s : State) : Host.Outcome State Fault Refusal :=
  .next (s.at_ n fun n d =>
    if d.ppsDriven && d.ppsCrosses n then
      (({ d with gnomon := { d.gnomon with ppsHighUntil := n + usTicks100 (d.rd .ppsWidthUs 0) / 100 } }).bump .ppsEdges 0).emit
        (.ppsEdge n)
    else d)

/-- PPS_IN_EDGE (R238): a rising edge `ps` after tick `n`, stamped to 100 ps. -/
def execPpsInEdge (n ps : Nat) (s : State) : Host.Outcome State Fault Refusal :=
  .next (s.at_ n fun n d =>
    if !d.on .ppsInEnable 0 then d
    else
      let near := match d.gnomon.ppsInLast with
        | some l => decide (n ≤ l + 622080000)
        | none => false
      if near then d.bump .ppsInIgnored 0
      else
        let d := { d with gnomon := { d.gnomon with ppsInLast := some n } }
        let at_ : Int := ((ps / 100 * 100 : Nat) : Int) - d.rdS .ppsInDelayPs 0
        (d.wr .ppsInStamp 0 (d.stampTime n at_)).bump .ppsInSeq 0)

/-! ### The recovered clock (R239) -/

/-- RCLK_SRC written: a change squelches for 10 ms once the lane has lock, which stage 5 tells. -/
def Dev.setRclkSrc (d : Dev) (n v : Nat) : Dev :=
  let old := d.rd .rclkSrc 0
  let d := d.wr .rclkSrc 0 v
  if v = old then d
  else
    let d := d.dropLevel 423
    if v = 255 then { (d.wr .rclkState 0 0) with gnomon := { d.gnomon with rclkUntil := none } }
    else
      let until_ := if d.rd .laneState v = 5 then some (n + msTicks 10) else none
      { (d.wr .rclkState 0 2) with gnomon := { d.gnomon with rclkUntil := until_ } }

/-- RCLK_RESTORE (R239): the clock returns. -/
def execRclkRestore (n : Nat) (s : State) : Host.Outcome State Fault Refusal :=
  .next (s.at_ n fun n d =>
    match d.gnomon.rclkUntil with
    | some u =>
      if u ≤ n ∧ d.rd .rclkState 0 = 2 then
        (({ d with gnomon := { d.gnomon with rclkUntil := none } }).wr .rclkState 0 1).dropLevel 423
      else d
    | none => d)

end Sys2Proof.Machine
end

