-- ==== Sys2Proof/Machine/Views.lean ====
section
/-!
DEFINITION. What the dictionary reads: the values of objects (R301, R319), the records of every window (R159, R179, R287,
R288), counter groups and snapshots (R292-R295), the directory (R321, R322), group windows (R323), instance views (R324).
-/
namespace Sys2Proof.Machine
open Sys2Proof

/-! ### Faults as read -/

/-- A capture record as 256 bits (R287). -/
def Capture.word (c : Capture) : Nat :=
  c.source * 2 ^ 247 + c.master % 8 * 2 ^ 244 + c.access % 16 * 2 ^ 240 + c.session % 256 * 2 ^ 232 +
    c.detail % 256 * 2 ^ 224 + c.index % 2 ^ 64 * 2 ^ 160 + c.aux % 2 ^ 64 * 2 ^ 96 + c.tick % 2 ^ 64 * 2 ^ 32 +
    c.count % 2 ^ 32

/-- FIRST_FAULT (R288). -/
def Dev.firstFaultWord (d : Dev) : Nat :=
  match d.faults.first with
  | none => d.faults.overflow * 2 ^ 96
  | some f =>
    f.capture.word * 2 ^ 160 + f.severity * 2 ^ 152 + (1 + 2 * ofBool f.refilled) * 2 ^ 144 + f.sameCycle % 65536 * 2 ^ 128 +
      d.faults.overflow * 2 ^ 96 + f.capture.time

/-- The number of sticky bits set at a recorded severity. -/
def Dev.stickyCount (d : Dev) (sev : Nat) : Nat := (d.stickySevs.filter (· == sev)).length

/-- SHUT_TREES: a tree that is shut by itself, its quad or its die (R283). -/
def Dev.shutTrees (d : Dev) : Nat := (allTrees.filter d.treeShut).foldl (fun m t => m + 2 ^ t) 0

/-- SHUT_PORTS: bit p a port, bit 16 the mate link. -/
def Dev.shutPorts (d : Dev) : Nat :=
  (allPorts.filter d.portShut).foldl (fun m p => m + 2 ^ p) (ofBool d.mateShut * 2 ^ 16)

/-! ### Instances (R317, R319) -/

/-- A register has an instance: within its range, and for SIGNATURE a base in use (R176, R324). -/
def Reg.hasInstance (r : Reg) (i : Nat) : Bool :=
  decide (r.row.first ≤ i) && decide (i < r.row.first + r.row.count) && (r != .sigReg || (sweptBlock i).isSome)

/-! ### Write signatures (R176) -/

/-- A record of a swept table as the signature takes it: the active version's, RO status fields zero. -/
def Dev.signedRecord (d : Dev) (w r : Nat) : Nat :=
  if w = 0x3602 then
    match Tab.find d.addr.entries r with
    | some e => ({ e with hit := false, age := 0, hold := false, learnMs := 0 } : AddrEntry).record
    | none => 0
  else d.active.record w r

/-- SIG of an instance. -/
def Dev.signature (d : Dev) (b : Nat) : Nat :=
  match sweptBlock b with
  | none => 0
  | some ((_, _, w, records, bytes), block) =>
    let count := min 1024 (records - block * 1024)
    crc32c 0xFFFFFFFF ((List.range count).map fun k => toBytes bytes (d.signedRecord w (block * 1024 + k))).flatten

/-! ### Values of objects -/

/-- The next counter of management key `k` (R129). -/
def Dev.mgmtCounter (d : Dev) (k : Nat) : Nat := Tab.get 0 d.mgmt.mgmtNext k

/-- The seconds since the last refresh of discovery-list entry `i` (R73, R85). -/
def Dev.listAge (d : Dev) (n i : Nat) : Nat :=
  match (d.tree (i / 32)).listRefresh.find? fun p => p.1 == i with
  | some (_, at_) => (n - at_) / 1244160000
  | none => 0

/-- The value that instance `i` of a register reads at tick `n`. What the device computes is computed here. -/
def Dev.live (d : Dev) (n : Nat) (r : Reg) (i : Nat) : Nat :=
  match r with
  | .tickNow => n
  | .timeNow => d.timeAt n
  | .clkPending => d.pendingBits
  | .firstFault => d.firstFaultWord
  | .shutTrees => d.shutTrees
  | .shutPorts => d.shutPorts
  | .deviceAction => d.faults.device
  | .stickyS0 => d.stickyCount 0
  | .stickyS1 => d.stickyCount 1
  | .stickyS2 => d.stickyCount 2
  | .stickyS3 => d.stickyCount 3
  | .pinLevels => ofBool d.chip.faultL + 2 * ofBool d.chip.alertL
  | .ploamFree => 64 - (d.tree i).hostMsgs.length
  | .targetRtd => d.targetRtd i
  | .listAge => d.listAge n i
  | .assuredTokens => (d.alloc i).assured / 512
  | .rateTokens => (d.alloc i).rate / 512
  | .keyState => d.keyState i
  | .nonceCounter => d.mgmtCounter i
  | .loadNonce => d.loadNonce
  | .cuttersBusy => (d.bank i).running.length
  | .suspInUse => (d.bank i).suspended.length
  | .defaultUplink => d.staging.defUplink
  | .defaultTree => d.staging.defTree
  | .spareRowsUsed => d.spareRules
  | .fragEntries => d.frags.length
  | .addrEntries => d.addr.entries.length
  | .stashUsed => (d.addr.entries.filter fun p => decide (524288 ≤ p.1)).length
  | .sigReg => d.signature i
  | .domainKhz => d.domainKhzNow i
  | .lagActive => d.activeMask i
  | .todCorrPs => d.todCorrPs i
  | .todTerm => d.todTerm i
  | _ => d.rd r i

/-! ### Counter groups (R294) -/

/-- The group of a counter object's instance: the first row of R294's table that covers it. -/
def Reg.group (r : Reg) (i : Nat) : Nat :=
  let o := r.row
  let x := o.index
  if x = 0x2401 then (slotTree i).getD 63
  else if x = 0x2701 then (if i < 32 then i else 57)
  else if o.scope = .tree then i / (o.count / 32)
  else if x = 0x2400 then 32 + i
  else if x = 0x2A01 then (if i < 16 then 40 + i else 63)
  else if o.scope = .port ∧ o.count = 16 then 40 + i
  else if 0x2500 ≤ x ∧ x ≤ 0x26FF then 56
  else if 0x2700 ≤ x ∧ x ≤ 0x27FF then 57
  else if 0x2800 ≤ x ∧ x ≤ 0x28FF then 58
  else if 0x2900 ≤ x ∧ x ≤ 0x29FF then 59
  else if [0x2108, 0x2405, 0x2A04].contains x || (decide (0x2B00 ≤ x) && decide (x ≤ 0x2BFF)) then 60
  else if [0x2109, 0x2404, 0x2A05].contains x || (decide (0x1100 ≤ x) && decide (x ≤ 0x11FF)) then 61
  else if 0x1300 ≤ x ∧ x ≤ 0x13FF then 62
  else 63

/-- The group of a queue's statistics. -/
def queueGroup (q : Nat) : Nat := if q < 131072 then q / 4096 else 58

/-- The four words and the isolation count of a queue (R219): field `f` from 1. -/
def queueField (x : QStat) (depth f : Nat) : Nat :=
  match f with
  | 1 => depth
  | 2 => x.peak
  | 3 => x.delayLast
  | 4 => x.delayMax
  | _ => x.isolation

/-- The three counts of a meter: field `f` from 1. -/
def meterField (x : Nat × Nat × Nat) (f : Nat) : Nat := match f with | 1 => x.1 | 2 => x.2.1 | _ => x.2.2

/-! ### Snapshots (R295) -/

/-- The master reads latched values. -/
def Dev.snapViewOf (d : Dev) : Master → Bool
  | .session k => (Tab.get {} d.mgmt.sessions k).snapView
  | .serial => d.mgmt.dspSnapView

/-- A group is latched, for a master that looks at the snapshot. -/
def Dev.latched (d : Dev) (m : Master) (g : Nat) : Bool := d.snapViewOf m && d.rd .snapState 0 != 0 && bitAt d.snap.mask g

/-- The 64-bit value of a counter object as the master reads it. -/
def Dev.counter (d : Dev) (n : Nat) (m : Master) (r : Reg) (i : Nat) : Nat :=
  if d.latched m (r.group i) then Tab.get (r.dflt i) d.snap.regs (regKey r i) else d.live n r i

/-- The statistics of a queue as the master reads them. -/
def Dev.queueStat (d : Dev) (m : Master) (q f : Nat) : Nat :=
  if d.latched m (queueGroup q) then queueField (Tab.get {} d.snap.stats q) (Tab.get 0 d.snap.depths q) f
  else queueField (d.stat q) (d.depth q) f

/-- The counts of a meter as the master reads them. -/
def Dev.meterCount (d : Dev) (m : Master) (k f : Nat) : Nat :=
  meterField (if d.latched m 58 then Tab.get (0, 0, 0) d.snap.counts k else Tab.get (0, 0, 0) d.sched.counts k) f

/-- The value an object reads, within its size (R292, R300). -/
def Dev.value (d : Dev) (n : Nat) (m : Master) (r : Reg) (i : Nat) : Nat :=
  if r = .snapView then ofBool (d.snapViewOf m)
  else if r.row.flags.counter then d.counter n m r i % 256 ^ r.size
  else d.live n r i % 256 ^ r.size

/-! ### The windows (R318, R159) -/

/-- A window: record bytes, records, access of DATA, ADMIN for writes, instances, scope. -/
structure WinRow where
  size : Nat
  records : Nat
  acc : Acc
  admin : Bool
  count : Nat
  scope : Scope
  deriving DecidableEq, Repr

/-- The indices with an instance view, in the order of R324. -/
def viewed : List Nat :=
  [0x1001, 0x1101, 0x1102, 0x1201, 0x1202, 0x1203, 0x1205, 0x1206, 0x1208, 0x1209, 0x120A, 0x1301, 0x2000, 0x2100,
   0x2101, 0x2102, 0x2103, 0x2104, 0x2105, 0x2106, 0x2107, 0x2109, 0x210A, 0x210B, 0x2200, 0x2201, 0x2202, 0x2203,
   0x2204, 0x2205, 0x2300, 0x2301, 0x2302] ++
  [0x2303, 0x2304, 0x2305, 0x2400, 0x2401, 0x2402, 0x2404, 0x2407, 0x2502, 0x2503, 0x2505, 0x2506, 0x2604, 0x2701,
   0x2703, 0x2704, 0x2705, 0x2706, 0x2708, 0x2709, 0x270A, 0x2800, 0x2801, 0x2803, 0x2901, 0x2903, 0x2904, 0x2905,
   0x2A01, 0x2A02, 0x2A03, 0x2A06, 0x2B01]

/-- The registers of an index, in ascending sub-index. -/
def regsOf (index : Nat) : List Reg := (objRows.filter fun p => p.2.index == index).map (·.1)

/-- The registers of an index that a view shows: WO and CMD are left out. -/
def viewRegs (index : Nat) : List Reg := (regsOf index).filter fun r => r.row.acc == .ro || r.row.acc == .rw

/-- The record bytes and records of an instance view. -/
def viewRow (index : Nat) : WinRow :=
  let o := ((regsOf index).headD .vendor).row
  ⟨((viewRegs index).map Reg.size).sum, o.first + o.count, .ro, false, 1, o.scope⟩

/-! ### Group windows (R323) -/

/-- A run of a group window: an index, consecutive instances, and its counters as (sub-index, field). -/
structure GroupBlock where
  index : Nat
  first : Nat
  count : Nat
  fields : List (Nat × Nat)
  deriving DecidableEq, Repr

def GroupBlock.records (b : GroupBlock) : Nat := b.count * b.fields.length

/-- The runs of instances of an index whose counters belong to group `g`, ascending: what `Reg.group` sends to `g`. -/
def groupRuns (o : ObjRow) (g : Nat) : List (Nat × Nat) :=
  if o.index = 0x2401 then
    (if g < 32 then [(g * 512, 512), (16384 + g * 512, 512), (32768 + g, 1), (32800 + g, 1)]
     else if g = 63 then [(32832, 6)] else [])
  else if o.index = 0x2701 then (if g < 32 then [(g, 1)] else if g = 57 then [(32, 3)] else [])
  else if o.scope = .tree then (if g < 32 then [(g * (o.count / 32), o.count / 32)] else [])
  else if o.index = 0x2400 then (if 32 ≤ g ∧ g < 40 then [(g - 32, 1)] else [])
  else if o.index = 0x2A01 then (if 40 ≤ g ∧ g < 56 then [(g - 40, 1)] else if g = 63 then [(16, 4)] else [])
  else if o.scope = .port ∧ o.count = 16 then (if 40 ≤ g ∧ g < 56 then [(g - 40, 1)] else [])
  else []

/-- The runs of an index, its counters being `r` and the rest of `rs`. -/
def indexBlocks (g index : Nat) : List GroupBlock :=
  let rs := (regsOf index).filter fun r => r.row.flags.counter
  match rs with
  | [] => []
  | r :: _ =>
    let o := r.row
    let subs := rs.map fun r => (r.row.sub, 0)
    let split := [0x2401, 0x2701, 0x2400, 0x2A01].contains index || o.scope == .tree || (o.scope == .port && o.count == 16)
    let runs := if split then groupRuns o g else if r.group o.first = g then [(o.first, o.count)] else []
    runs.map fun x => ⟨index, x.1, x.2, subs⟩

/-- The indices with registers, ascending. -/
def regIndices : List Nat := (objRows.map fun p => p.2.index).dedup

/-- The runs of group `g`, in ascending index; METER_COUNTS and QUEUE_STATS last. -/
def groupBlocks (g : Nat) : List GroupBlock :=
  (regIndices.map (indexBlocks g)).flatten ++
    (if g = 58 then [⟨0x3804, 0, 65536, [(1, 1), (1, 2), (1, 3)]⟩] else []) ++
    (if g < 32 then [⟨0x3805, g * 4096, 4096, [(1, 1), (1, 2), (1, 3), (1, 4), (1, 5)]⟩]
     else if g = 58 then [⟨0x3805, 131072, 129, [(1, 1), (1, 2), (1, 3), (1, 4), (1, 5)]⟩] else [])

def groupRecords (g : Nat) : Nat := ((groupBlocks g).map GroupBlock.records).sum

/-- Record `k` of some runs: index, sub-index, field, instance. -/
def blockRecord : List GroupBlock → Nat → Option (Nat × Nat × Nat × Nat)
  | [], _ => none
  | b :: r, k =>
    if k < b.records then
      let f := b.fields.getD (k % b.fields.length) (0, 0)
      some (b.index, f.1, f.2, b.first + k / b.fields.length)
    else blockRecord r (k - b.records)

/-! ### The directory (R321, R322) -/

/-- The windows of the chapters. -/
def chapterWindow : Nat → Option WinRow
  | 0x3000 => some ⟨16, 731, .ro, false, 1, .device⟩
  | 0x3300 => some ⟨1, 448, .rw, true, 1, .device⟩
  | 0x3301 => some ⟨1, 448, .rw, false, 1, .device⟩
  | 0x3302 => some ⟨32, 448, .ro, false, 1, .device⟩
  | 0x3303 => some ⟨64, 4096, .ro, false, 1, .device⟩
  | 0x3400 => some ⟨1, 1024, .rw, false, 32, .tree⟩
  | 0x3401 => some ⟨64, 32838, .wo, true, 1, .device⟩
  | 0x3500 => some ⟨16, 256, .rw, false, 1, .device⟩
  | 0x3501 => some ⟨8, 1024, .rw, false, 1, .device⟩
  | 0x3502 => some ⟨184, 65536, .rw, false, 1, .device⟩
  | 0x3503 => some ⟨4, 4096, .rw, false, 1, .device⟩
  | 0x3600 => some ⟨24, 131072, .rw, false, 1, .device⟩
  | 0x3601 => some ⟨24, 32768, .rw, false, 1, .device⟩
  | 0x3602 => some ⟨16, 524352, .ro, false, 1, .device⟩
  | 0x3700 => some ⟨4, 131201, .rw, false, 1, .device⟩
  | 0x3701 => some ⟨1, 2048, .rw, false, 1, .device⟩
  | 0x3702 => some ⟨32, 786432, .ro, false, 1, .device⟩
  | 0x3800 => some ⟨8, 131201, .rw, false, 1, .device⟩
  | 0x3801 => some ⟨16, 16384, .rw, false, 1, .tree⟩
  | 0x3802 => some ⟨512, 1024, .rw, false, 1, .device⟩
  | 0x3803 => some ⟨32, 65536, .rw, false, 1, .device⟩
  | 0x3804 => some ⟨24, 65536, .ro, false, 1, .device⟩
  | 0x3805 => some ⟨24, 131201, .ro, false, 1, .device⟩
  | _ => none

/-- The window at an index: none where the index is none (R317). -/
def winRow (w : Nat) : Option WinRow :=
  if 0x3100 ≤ w ∧ w < 0x3140 then
    some ⟨16, groupRecords (w - 0x3100), .ro, false, 1,
      if w < 0x3120 then .tree else if w < 0x3128 then .quad else if w < 0x3138 then .port else .device⟩
  else if 0x3C00 ≤ w ∧ w < 0x3C42 then some (viewRow (viewed.getD (w - 0x3C00) 0x1001))
  else chapterWindow w

/-- Windows whose writes are staged (R153). -/
def isStaged (w : Nat) : Bool := [0x3500, 0x3501, 0x3502, 0x3503, 0x3600, 0x3601].contains w

/-- The window indices, ascending. -/
def windowIndices : List Nat :=
  [0x3000] ++ (List.range 64).map (0x3100 + ·) ++
  [0x3300, 0x3301, 0x3302, 0x3303, 0x3400, 0x3401, 0x3500, 0x3501, 0x3502, 0x3503, 0x3600, 0x3601, 0x3602, 0x3700, 0x3701,
   0x3702, 0x3800, 0x3801, 0x3802, 0x3803, 0x3804, 0x3805] ++ (List.range 66).map (0x3C00 + ·)

/-- TYPE, ACCESS and SCOPE codes of R322. -/
def Ty.code : Ty → Nat
  | .bool => 0 | .u8 => 1 | .u16 => 2 | .u32 => 3 | .s32 => 4 | .u64 => 5 | .s64 => 6 | .enum8 => 7 | .bits32 => 8
  | .octets => 9
def Acc.code : Acc → Nat
  | .ro => 0 | .rw => 1 | .wo => 2 | .cmd => 4
def Scope.code : Scope → Nat
  | .tree => 0 | .quad => 1 | .port => 2 | .device => 3 | .byInstance => 4

/-- PRIV of a register: 0 for counters and what an OBSERVER may write, 2 for what ADMIN alone writes (R302). A readable
object's PRIV is that of the reads, a WO or CMD object's that of its writes (DEDUCED, log row 117). -/
def Reg.privCode (r : Reg) : Nat :=
  let o := r.row
  if o.flags.counter || r == .snapView || r == .snapGo then 0
  else if o.flags.admin && (o.acc == .wo || o.acc == .cmd) then 2 else 1

/-- GROUP of a register: 0xFF where it is no counter, 0xFE where its group follows the instance. -/
def Reg.groupCode (r : Reg) : Nat :=
  let o := r.row
  if !o.flags.counter then 0xFF
  else if [0x2401, 0x2701, 0x2400, 0x2A01].contains o.index || o.scope == .tree || (o.scope == .port && o.count == 16) then 0xFE
  else r.group o.first

/-- The bytes of a DIRECTORY record. -/
def directoryBytes (index sub ty acc priv scope flags insts size grp : Nat) : Bytes :=
  toBytes 2 index ++ [sub, ty, acc, priv, scope, flags] ++ toBytes 4 insts ++ toBytes 2 size ++ [grp, 0]

def Flags.code (f : Flags) : Nat :=
  ofBool f.counter + 2 * ofBool f.mirrored + 4 * ofBool f.frozen + 8 * ofBool f.longOp + 16 * ofBool f.unchecked

/-- Unit-local windows (R266): the fault windows and every read-only one; LOCK is local always. -/
def windowMirrored (w : Nat) : Bool :=
  match winRow w with
  | some o => o.acc != .ro && (decide (w < 0x3300) || decide (0x3303 < w))
  | none => false

/-- Record `k` of the directory (R321, R322). FAULT_STATUS tells RW1C, the access of the one bit that can be written (DEDUCED,
log row 117). -/
def directoryRecord (k : Nat) : Bytes :=
  if k < objRows.length then
    let r := (objRows.getD k (.vendor, Reg.row .vendor)).1
    let o := r.row
    directoryBytes o.index o.sub o.ty.code o.acc.code r.privCode o.scope.code o.flags.code (o.first + o.count) o.size
      r.groupCode
  else
    let w := windowIndices.getD (k - objRows.length) 0x3000
    match winRow w with
    | none => toBytes 16 0
    | some o =>
      let counts := w == 0x3804 || w == 0x3805
      directoryBytes w 1 10 (if w = 0x3301 then 3 else o.acc.code)
        (if 0x3100 ≤ w ∧ w < 0x3140 then 0 else if o.acc = .wo then 2 else 1) o.scope.code
        (ofBool counts + 2 * ofBool (windowMirrored w)) o.count o.size
        (if w = 0x3804 then 58 else if w = 0x3805 then 0xFE else 0xFF)

/-! ### Records of windows -/

/-- A DESCRIPTORS record (R179). -/
def Dev.descWord (d : Dev) (k : Nat) : Nat :=
  match d.desc k with
  | none => 0
  | some x =>
    (d.chainOf x).cells.headD 0 * 256 * 2 ^ 229 + x.length * 2 ^ 215 + x.destKind * 2 ^ 213 + x.dest * 2 ^ 187 +
      x.domain * 2 ^ 175 + x.queue * 2 ^ 172 + x.colour * 2 ^ 170 + ofBool x.meterEn * 2 ^ 169 + x.meter * 2 ^ 153 +
      x.entry * 2 ^ 136 + x.version * 2 ^ 134 + x.hash * 2 ^ 102 + x.srcKind * 2 ^ 100 + x.srcNum * 2 ^ 86 +
      x.pool * 2 ^ 80 + ofBool x.copy * 2 ^ 79 + ofBool x.tagged * 2 ^ 76 + ofBool x.poison * 2 ^ 75 +
      ofBool x.sample * 2 ^ 74 + ofBool x.markCe * 2 ^ 73 + 2 ^ 72 + x.ipOff * 2 ^ 66 + x.arrival % 2 ^ 48

/-- FAULT_STATUS of a source (R285, R299). -/
def Dev.faultStatus (d : Dev) (s : Nat) : Nat :=
  let x := d.source s
  ofBool x.sticky * 128 + x.severity * 32 + ofBool x.level * 16

/-- A record of a group window (R323). -/
def Dev.groupRecord (d : Dev) (n : Nat) (m : Master) (g k : Nat) : Bytes :=
  match blockRecord (groupBlocks g) k with
  | none => toBytes 16 0
  | some (index, sub, f, i) =>
    let v :=
      if index = 0x3804 then d.meterCount m i f
      else if index = 0x3805 then d.queueStat m i f
      else match Reg.ofAddr index sub with
        | some r => d.counter n m r i
        | none => 0
    toBytes 2 index ++ [sub, f] ++ toBytes 4 i ++ toBytes 8 v

/-- A record of an instance view (R324): zero for an instance that does not exist. -/
def Dev.viewRecord (d : Dev) (n : Nat) (m : Master) (index i : Nat) : Bytes :=
  ((viewRegs index).map fun r => toBytes r.size (if r.hasInstance i then d.value n m r i else 0)).flatten

/-- Record `r` of instance `inst` of window `w` as the master reads it. -/
def Dev.winRecord (d : Dev) (n : Nat) (m : Master) (w inst r : Nat) : Bytes :=
  if 0x3100 ≤ w ∧ w < 0x3140 then d.groupRecord n m (w - 0x3100) r
  else if 0x3C00 ≤ w then d.viewRecord n m (viewed.getD (w - 0x3C00) 0x1001) r
  else if isStaged w then toBytes (((winRow w).map (·.size)).getD 0) (d.staging.record w r)
  else match w with
    | 0x3000 => directoryRecord r
    | 0x3301 => [d.faultStatus r]
    | 0x3302 => toBytes 32 (((d.source r).capture.map Capture.word).getD 0)
    | 0x3303 => toBytes 64 (Tab.get 0 d.sampler.ring r)
    | 0x3400 => [d.win 0x3400 (inst * 1024 + r)]
    | 0x3602 => toBytes 16 (((Tab.find d.addr.entries r).map AddrEntry.record).getD 0)
    | 0x3702 => toBytes 32 (d.descWord r)
    | 0x3804 => toBytes 8 (d.meterCount m r 1) ++ toBytes 8 (d.meterCount m r 2) ++ toBytes 8 (d.meterCount m r 3)
    | 0x3805 => ((List.range 5).map fun f => toBytes 4 (d.queueStat m r (f + 1))).flatten ++ toBytes 4 0
    | _ => toBytes (((winRow w).map (·.size)).getD 0) (d.win w r)

/-! ### Taking and clearing (R295) -/

/-- Every counter of the groups of `mask` latched at tick `n`. -/
def Dev.takeSnapshot (d : Dev) (n mask : Nat) : Dev :=
  let depths := d.buf.queues.keys.map fun q => (q, d.depth q)
  let d := { d with snap := ⟨mask, d.regs, d.sched.stats, d.sched.counts, depths⟩ }
  (d.wr .snapTick 0 n).wr .snapState 0 1

/-- The register at a key of `Dev.regs`. -/
def regAt (key : Nat) : Reg := (objRows.getD (key % 1024) (.vendor, Reg.row .vendor)).1

/-- Every counter of the groups of `mask` zeroed. -/
def Dev.clearCounters (d : Dev) (mask : Nat) : Dev :=
  let gone : Nat × Nat → Bool := fun p =>
    (regAt p.1).row.flags.counter && bitAt mask ((regAt p.1).group (p.1 / 1024))
  { d with
    regs := d.regs.filter fun p => !gone p,
    sched := { d.sched with
      stats := d.sched.stats.filter fun p => !bitAt mask (queueGroup p.1),
      counts := if bitAt mask 58 then [] else d.sched.counts } }

end Sys2Proof.Machine
end

