-- ==== Sys2Proof/Machine/Counters.lean ====
section
/-!
DEFINITION. The Counter Reader (R292-R295).
-/
namespace Sys2Proof.Machine
open Sys2Proof

/-- A counter: a counting object's instance, or a record of METER_COUNTS or QUEUE_STATS (R292). -/
def isCounter (index inst sub : Nat) : Bool :=
  match Reg.ofAddr index sub with
  | some r => r.row.flags.counter && r.hasInstance inst
  | none => sub == 1 && ((index == 0x3804 && decide (inst < 65536)) || (index == 0x3805 && decide (inst < 131201)))

/-- Counts that a counter's local part has lost by saturating since the last visit (R293): of METER_COUNTS the green, yellow and red
bytes, of QUEUE_STATS the isolation drops. -/
def Dev.loseCounts (d : Dev) (index inst sub : Nat) (lost : List Nat) : Dev :=
  match Reg.ofAddr index sub with
  | some r => d.wr r inst (d.rd r inst - lost.headD 0)
  | none =>
    if index = 0x3804 then
      let k := Tab.get (0, 0, 0) d.sched.counts inst
      let k := (k.1 - lost.getD 0 0, k.2.1 - lost.getD 1 0, k.2.2 - lost.getD 2 0)
      { d with sched := { d.sched with counts := Tab.set (0, 0, 0) d.sched.counts inst k } }
    else d.modStat inst fun x => { x with isolation := x.isolation - lost.headD 0 }

/-- COUNTER_VISIT (R292, R293): the reader collects the residue of a counter. The value a counter reads is exact before and after
the visit, so nothing a master reads changes; but where the local counter has saturated since the last visit, what it lost is gone
and source 442 names the counter, its index above its sub-index (DESIGN CHOICE, log row 24). -/
def execCounterVisit (n index inst : Nat) (c : CounterRead) (s : State) : Host.Outcome State Fault Refusal :=
  if isCounter index inst c.sub then
    .next (s.at_ n fun n d =>
      if c.lost.all (· == 0) then d
      else (d.loseCounts index inst c.sub c.lost).raise n { source := 442, index := index * 256 + c.sub, aux := inst })
  else .fault .noSuchElement

/-- SNAP_READY (R295): the copy of a snapshot completes. -/
def execSnapReady (n : Nat) (s : State) : Host.Outcome State Fault Refusal :=
  .next (s.at_ n fun _ d => if d.rd .snapState 0 = 1 then d.wr .snapState 0 2 else d)

end Sys2Proof.Machine
end

