-- ==== Sys2Proof/Machine/Egress.lean ====
section
/-!
DEFINITION. The Egress Scheduler: the hierarchy and its decisions (R200-R204), charged lengths (R206), the isolation check
(R211-R213), frames as they leave (R151, R192, R231-R233, R256), delays and peaks (R214).
-/
namespace Sys2Proof.Machine
open Sys2Proof

/-! ### PTP event messages (R231) -/

/-- The byte at which the EtherType stands, after at most `k` VLAN tags. -/
def etypeAt (b : Bytes) : Nat → Nat → Nat
  | 0, i => i
  | k + 1, i => if numAt b i 2 = 0x8100 ∨ numAt b i 2 = 0x88A8 then etypeAt b k (i + 4) else i

/-- The byte at which the header of a PTP event message begins. -/
def ptpAt (b : Bytes) : Option Nat :=
  let i := etypeAt b 2 12
  if numAt b i 2 = 0x88F7 ∧ byteAt b (i + 2) % 16 ≤ 1 ∧ byteAt b (i + 3) % 16 = 2 then some (i + 2) else none

/-- A correctionField with a residence time added (R232): the field, and whether it saturated. -/
def addCorrection (field_ : Nat) (r : Int) : Nat × Bool :=
  let sum := toSigned 64 field_ + r
  if sum < -(2 ^ 63 : Int) ∨ (2 ^ 63 : Int) ≤ sum then (2 ^ 63 - 1, true) else (ofSigned 64 sum, false)

/-- The residence time of a frame leaving port `p` `ps` after tick `n` and stamped `sub` ps after tick `stamp` (R232): the whole ticks
between the corrected stamps, and the picoseconds. -/
def Dev.residence (d : Dev) (n ps p stamp sub srcPort : Nat) : Int :=
  (((n - stamp) * d.rd .clkInc 0 / 2 ^ 24 : Nat) : Int) +
    psUnits ((stampPs ps : Int) - sub + d.rdS .portRxCorrPs srcPort + d.rdS .portTxCorrPs p)

/-- A PTP event message that crosses the balls of port `p`, `ps` after tick `n` (R232, R233): the bytes, the stamp ring and the
counters. -/
def Dev.ptpTransmit (d : Dev) (n ps p : Nat) (x : Desc) (b : Bytes) : Bytes × Dev :=
  let time := d.stampTime n (stampPs ps + d.rdS .portTxCorrPs p)
  let ring : Dev → Dev := fun d => match x.ring with
    | some seq => d.wr .txStamp (seq % 16) (ofBytes (toBytes 2 seq ++ [p, 0] ++ toBytes 12 time))
    | none => d
  match ptpAt b with
  | none => (b, ring d)
  | some o =>
    let d := ring (d.bump .txStamps 0)
    match x.stamp with
    | some c =>
      if d.on .tcEnable 0 && x.srcKind == 0 && x.srcNum != p && !x.copy then
        let r := addCorrection (numAt b (o + 8) 8) (d.residence n ps p c x.sub x.srcNum)
        (overlay b (o + 8) (toBytes 8 r.1), (d.bump .tcUpdated 0).when r.2 fun d => d.bump .tcSaturated 0)
      else (b, d)
    | none =>
      if x.oneStep && byteAt b o % 16 == 0 then
        (overlay b (o + 34) (toBytes 6 (time / 2 ^ 48) ++ toBytes 4 (time / 2 ^ 16)), d)
      else (b, d)

/-! ### Marks and edits -/

/-- ECN set to 0b11 at the parsed IP header, an IPv4 checksum updated incrementally (R192). -/
def markCe (off : Nat) (b : Bytes) : Bytes :=
  let tos := byteAt b (off + 1)
  if byteAt b off / 16 = 4 then
    if tos % 4 = 3 then b
    else
      let old := numAt b off 2
      let new := old - tos % 4 + 3
      let sum := (65535 - numAt b (off + 10) 2) + (65535 - old) + new
      let sum := sum % 65536 + sum / 65536
      let sum := sum % 65536 + sum / 65536
      overlay (overlay b (off + 1) [tos - tos % 4 + 3]) (off + 10) (toBytes 2 (65535 - sum))
  else if tos / 16 % 4 = 3 then b
  else overlay b (off + 1) [tos - tos / 16 % 4 * 16 + 48]

/-- The edit of R151 of an action. -/
def editFrame (action : Nat) (tagged : Bool) (b : Bytes) : Bytes :=
  let tci := field action 44 16
  match field action 60 2 with
  | 1 => if tagged then b.take 12 ++ b.drop 16 else b
  | 2 => b.take 12 ++ [0x81, 0x00] ++ toBytes 2 tci ++ b.drop 12
  | 3 => if tagged then overlay b 14 (toBytes 2 (setField (numAt b 14 2) 0 12 tci)) else b
  | _ => b

/-- The length, FCS included, of a frame with its edit and padding (R151, R256). -/
def Desc.editedLength (x : Desc) : Nat :=
  let n := match field x.action 60 2 with
    | 1 => if x.tagged then x.length - 4 else x.length
    | 2 => x.length + 4
    | _ => x.length
  max 64 n

/-- Whether a trapped frame carries its receive stamp (R233). -/
def Dev.stampTrapped (d : Dev) (x : Desc) : Bool :=
  x.destKind == 2 && x.srcKind == 0 && d.on .stampTrap 0 && (ptpAt (d.chainOf x).bytes).isSome

/-- The length as transmitted (R206). -/
def Dev.sentLength (d : Dev) (x : Desc) : Nat := x.editedLength + if d.stampTrapped x then 16 else 0

/-- Bytes padded with zeros to the minimum (R256). -/
def padFrame (b : Bytes) : Bytes := b ++ List.replicate (60 - b.length) 0

/-- The bytes of a frame as they leave, without FCS, less the time fields of R232 and R233. -/
def Dev.finish (d : Dev) (x : Desc) (b : Bytes) : Bytes :=
  let b := if x.markCe then markCe x.ipOff b else b
  let b := padFrame (editFrame x.action x.tagged b)
  if d.stampTrapped x then b ++ toBytes 12 x.rxTime ++ [x.srcNum, 0, 0, 0] else b

/-! ### Charged lengths (R206) -/

/-- The overhead of a queue's tree, port or host. -/
def Dev.overhead (d : Dev) (q : Nat) : Int :=
  if q < 131072 then d.rdS .treeOverhead (q / 4096)
  else if q < hostQueue then d.rdS .portOverhead ((q - 131072) / 8)
  else 20

def Dev.chargedLength (d : Dev) (q : Nat) (x : Desc) : Nat := (max 1 ((d.sentLength x : Int) + d.overhead q)).toNat

/-- The charged length of a queue's head. -/
def Dev.headLength (d : Dev) (q : Nat) : Nat :=
  match (d.queue q).head?.bind d.desc with
  | some x => d.chargedLength q x
  | none => 1

/-! ### Eligibility (R201) -/

/-- The uplinks forward (R264, R276, R277): an ALONE or ACTIVE unit outside a take-over gap, or one that drains. -/
def Dev.uplinksForward (d : Dev) : Bool :=
  (decide (d.rd .unitRole 0 ≤ 1) && d.mate.firstFrame.isNone) || d.mate.drainUntil.isSome

/-- PAUSE stops a port's transmit at tick `n` (R257). -/
def Dev.paused (d : Dev) (n p : Nat) : Bool := (d.port p).pausedAt.isSome && decide (n < (d.port p).pauseUntil)

/-- A port asks for a frame: up, not paused, none being sent, no lane of it in electrical idle or leaving it (R254). -/
def Dev.portAsks (d : Dev) (n p : Nat) : Bool :=
  decide (p < d.portCount) && d.portUp p && d.uplinksForward && !d.paused n p &&
    (d.port p).sending.all (fun s => decide (s.ends ≤ n)) && (d.port p).resumedAt != some n &&
    (d.lanesOf p).all fun l => !(d.lane l).idle && (match (d.lane l).exitAt with
      | some e => decide (e ≤ n)
      | none => true)

/-- The payload pipeline of 8 us of line in bytes (R117, R201). -/
def Dev.pipeline (d : Dev) (t : Nat) : Nat := if d.upRate t = 3 then 9953 else 49766

/-- A tree asks for a frame: lit, its payload pipeline with room, its bridge locked (R13). -/
def Dev.treeAsks (d : Dev) (t : Nat) : Bool :=
  (d.tree t).lit && d.bridgeUp t && decide (((d.tree t).payload.map fun f => f.bytes.length + 12).sum < d.pipeline t)

/-- A queue is eligible. Where a hold ended in the tick of a decision, it is from the next decision on (R215). -/
def Dev.queueEligible (d : Dev) (n q : Nat) : Bool :=
  !(d.queue q).isEmpty && d.eligible n (d.queueShaper q) &&
    (decide (131072 ≤ q) || (d.termGate (q / 8) == .open_ && (d.term (q / 8)).resumedAt != some n))

/-! ### Deficit round-robin (R202) -/

/-- A deficit-round-robin choice among `cands` (ascending): the visit of `last` goes on while its head fits; else the rounds
run from the next one, each visit adding the quantum, to the first head that fits. The choice and the new deficits. -/
def drr (cands : List Nat) (last : Option Nat) (deficits : Tab Int) (quantum len : Nat → Nat) : Option (Nat × Tab Int) :=
  let have_ : Nat → Int := Tab.get 0 deficits
  let goesOn := match last with
    | some x => cands.contains x && decide ((len x : Int) ≤ have_ x)
    | none => false
  if goesOn then last.map fun x => (x, deficits)
  else
    let order := match last with
      | none => cands
      | some x => cands.filter (fun y => decide (x < y)) ++ cands.filter fun y => decide (y ≤ x)
    let rounds : Nat → Nat := fun x => max 1 (ceilDiv ((len x : Int) - have_ x).toNat (quantum x))
    match order with
    | [] => none
    | o :: os =>
      let best := os.foldl (fun b x => if rounds x < rounds b then x else b) o
      let r := rounds best
      let seen := best :: order.takeWhile fun y => y != best
      some (best, order.foldl (fun t x =>
        Tab.set 0 t x (have_ x + (((if seen.contains x then r else r - 1) * quantum x : Nat) : Int))) deficits)

/-! ### Decisions -/

/-- A decision: the queue, the queue deficits where it is weighted, the terminal with its deficits where phase 2 chose it,
and the shapers of its path. -/
structure Choice where
  queue : Nat
  weighted : Option (Tab Int)
  terminal : Option Nat
  phase2 : Option (Tab Int)
  path : List Shaper
  deriving DecidableEq, Repr

/-- Steps 3 and 4: the queue of the eight from `base` on. -/
def Dev.pickQueue (d : Dev) (n base strict : Nat) : Option (Nat × Option (Tab Int)) :=
  match ((List.range strict).map (base + ·)).find? (d.queueEligible n) with
  | some q => some (q, none)
  | none =>
    let cands := ((List.range 8).map (base + ·)).filter fun q => decide (base + strict ≤ q) && d.queueEligible n q
    (drr cands (Tab.find d.sched.lastQueue base) d.sched.deficits (fun q => d.queueWeight q * 512) d.headLength).map
      fun r => (r.1, some r.2)

/-- The terminals of a tree that hold frames, ascending. -/
def Dev.waitingTerms (d : Dev) (t : Nat) : List Nat :=
  ((Tab.keys d.buf.queues).filterMap fun q => if q / 4096 = t then some (q / 8) else none).dedup

/-- The decision of a tree (R202). -/
def Dev.chooseTree (d : Dev) (n t : Nat) : Option Choice :=
  if !d.eligible n (d.treeShaper t) then none
  else
    let picks := (d.waitingTerms t).filterMap fun g =>
      (d.pickQueue n (downQueue g 0) (d.strictCount g)).map fun r => (g, r)
    let pick : Nat → Option (Nat × Option (Tab Int)) := fun g => (picks.find? fun p => p.1 == g).map (·.2)
    let one := (picks.map (·.1)).filter fun g => decide (0 < (d.cirShaper g).rate) && d.eligible n (d.cirShaper g)
    let after := one.filter fun g => match Tab.find d.sched.lastCir t with
      | some l => decide (l < g)
      | none => true
    match (after ++ one).head? with
    | some g => (pick g).map fun r => ⟨r.1, r.2, some g, none, [d.treeShaper t, d.cirShaper g, d.pirShaper g, d.queueShaper r.1]⟩
    | none =>
      let two := (picks.map (·.1)).filter fun g => d.eligible n (d.pirShaper g)
      let len : Nat → Nat := fun g => (pick g).elim 1 fun r => d.headLength r.1
      match drr two (Tab.find d.sched.lastTerm t) d.sched.termDeficits (fun g => d.termWeight g * 512) len with
      | none => none
      | some (g, defs) =>
        (pick g).map fun r => ⟨r.1, r.2, some g, some defs, [d.treeShaper t, d.pirShaper g, d.queueShaper r.1]⟩

/-- The decision of a tree, a port or the host queue; none where nothing asks or nothing is eligible. -/
def Dev.choose (d : Dev) (n : Nat) (e : Egress) : Option Choice :=
  match e with
  | .tree t => if d.treeAsks t then d.chooseTree n t else none
  | .port p =>
    if d.portAsks n p && d.eligible n (d.portShaper p) then
      (d.pickQueue n (upQueue p 0) (d.rd .portStrictCount p)).map fun r =>
        ⟨r.1, r.2, none, none, [d.portShaper p, d.queueShaper r.1]⟩
    else none
  | .host =>
    if d.rd .mgmtState 0 == 1 && d.eligible n d.hostShaper && d.queueEligible n hostQueue then
      some ⟨hostQueue, none, none, none, [d.hostShaper, d.queueShaper hostQueue]⟩
    else none

/-- The round-robin state after a decision. -/
def Dev.commitChoice (d : Dev) (c : Choice) : Dev :=
  let d := match c.weighted with
    | some defs => { d with sched := { d.sched with
        deficits := defs, lastQueue := Tab.insert d.sched.lastQueue (c.queue / 8 * 8) c.queue } }
    | none => d
  match c.terminal, c.phase2 with
  | some g, some defs => { d with sched := { d.sched with
      termDeficits := defs, lastTerm := Tab.insert d.sched.lastTerm (treeOfTerm g) g } }
  | some g, none => { d with sched := { d.sched with lastCir := Tab.insert d.sched.lastCir (treeOfTerm g) g } }
  | none, _ => d

/-! ### The isolation check (R211, R212) -/

/-- Domain `k` is permitted in the set that queue `q` names. -/
def Dev.permitted (d : Dev) (q k : Nat) : Bool := bitAt (d.win 0x3802 (d.permitSet q)) (4095 - k % 4096)

/-- The descriptor's destination owns queue `q`. -/
def Desc.owns (x : Desc) (q : Nat) : Bool :=
  if q = hostQueue then x.destKind == 2 && x.dest == 0
  else if q < 131072 then x.destKind == 1 && x.queueNo == q
  else x.destKind == 0 && x.queueNo == q

/-- A frame that fails: counted, the fault raised with what R287 holds of it. -/
def Dev.isolationFault (d : Dev) (n q : Nat) (x : Desc) : Dev :=
  let d := (d.bump .isolationDrop 0).modStat q fun y => { y with isolation := (y.isolation + 1) % 2 ^ 32 }
  let d := d.when (!x.owns q) fun d => d.bump .destMismatch 0
  d.raise n { source := 420, master := 1, access := 4, index := q % 2 ^ 18 + x.domain * 2 ^ 18,
              aux := x.destKind * 2 ^ 61 + x.dest * 2 ^ 35 + x.entry * 2 ^ 18 + x.version * 2 ^ 16 + x.srcKind * 2 ^ 14 + x.srcNum }

/-! ### Sending -/

/-- Nanoseconds of a delay in ticks, saturating (R214). -/
def delayNs (c : Nat) : Nat := min (c * 100000 / 124416) (2 ^ 32 - 1)

/-- Ticks that `len` bytes take a port, preamble and gap included. -/
def Dev.wireTicks (d : Dev) (len : Nat) : Nat := ceilDiv ((len + 20) * 8 * 124416) (10000000 * d.lanesPerPort)

/-- A frame has been sent at tick `n` with delay `ns` (R214). -/
def QStat.sent (y : QStat) (n ns : Nat) : QStat :=
  let inTick := match y.lastTick with
    | some (t, m) => if t = n then max m ns else ns
    | none => ns
  { y with delayLast := ns, delayMax := max y.delayMax ns, lastTick := some (n, inTick) }

/-- The frame leaves (R202, step 5): its path is charged, its delay kept, and its bytes go. A port's transmit path owns the frame
until its send ends (R184). -/
def Dev.sendFrame (d : Dev) (n ps k : Nat) (e : Egress) (c : Choice) (x : Desc) : Dev :=
  let len := d.chargedLength c.queue x
  let d := d.each c.path fun d s => d.takeTokens n s len
  let charge : Tab Int → Nat → Tab Int := fun t i => Tab.set 0 t i (Tab.get 0 t i - len)
  let d := if c.weighted.isSome && !(d.queue c.queue).isEmpty then
      { d with sched := { d.sched with deficits := charge d.sched.deficits c.queue } } else d
  let d := match c.terminal with
    | some g =>
      if c.phase2.isSome && (List.range 8).any (fun q => !(d.queue (downQueue g q)).isEmpty) then
        { d with sched := { d.sched with termDeficits := charge d.sched.termDeficits g } }
      else d
    | none => d
  let ns := delayNs ((n + 2 ^ 48 - x.arrival) % 2 ^ 48)
  let d := d.modStat c.queue fun y => y.sent n ns
  let b := (d.chainOf x).bytes
  match e with
  | .tree t =>
    let b := d.finish x b
    let t0 := ((d.sampler.followed.find? fun y => some y.id == x.sampled).elim 0 (·.t0))
    let f : DownFrame := { terminal := x.dest / 4096, encPort := x.dest % 4096, bytes := b, sampled := x.sampled, t0 := t0 }
    (((d.bump .treeTxFrames t).add .treeTxBytes t (b.length + 4)).modTree t fun y => { y with
      payload := y.payload ++ [f] }).freeDesc n k
  | .port p =>
    let d := if x.copy then d else d.each (d.mirrorSessions 2 p) fun d m => d.mirrorCopy n k m true
    let (b, d) := d.ptpTransmit n ps p x b
    let d := (d.bump .txFrames p).when (decide ((editFrame x.action x.tagged b).length < 60)) fun d => d.bump .txPadded p
    let b := d.finish x b
    let fin := n + d.wireTicks (b.length + 4)
    let d := d.follow x.sampled fun y => { y with outFirst := n - y.t0, outLast := fin - y.t0 }
    (d.modPort p fun y => { y with sending := some { desc := k, ends := fin, sampled := x.sampled } }).emit
      (.uplinkFrame p (c.queue % 8) b)
  | .host =>
    let b := d.finish x b
    let d := (d.follow x.sampled fun y => { y with outFirst := n - y.t0, outLast := n - y.t0 }).emit (.hostFrame b)
    (d.sampleDone x.sampled 0).freeDesc n k

/-- A permit-set word has been read in error: the next check reads it anew. -/
def Dev.permitRead (d : Dev) (q : Nat) : Dev :=
  { d with sched := { d.sched with permitBad := d.sched.permitBad.erase q } }

/-- The isolation check of an in-band frame that the Dictionary Engine takes: its DOMAIN in the set of the host queue (R213; its
owner is not the host queue's of R211, log row 110). -/
def Dev.inbandPasses (d : Dev) (n k : Nat) : Bool × Dev :=
  match d.desc k with
  | none => (true, d)
  | some x => if d.permitted hostQueue x.domain then (true, d) else (false, d.isolationFault n hostQueue x)

/-- The head of the chosen queue is taken and checked (R203, R211, R151): whether it was sent. A poisoned frame does not leave
(R179). -/
def Dev.takeHead (d : Dev) (n ps : Nat) (e : Egress) (c : Choice) : Bool × Dev :=
  match d.queue c.queue with
  | [] => (true, d)
  | k :: rest =>
    let d := d.setQueue c.queue rest
    match d.desc k with
    | none => (false, d)
    | some x =>
      let d := d.follow x.sampled fun y => { y with dequeued := n - y.t0 }
      if d.sched.permitBad.contains c.queue then
        (false, (((d.permitRead c.queue).bump .permitEcc 0).isolationFault n c.queue x).dropDesc n k 5)
      else if !d.permitted c.queue x.domain || !x.owns c.queue then (false, (d.isolationFault n c.queue x).dropDesc n k 5)
      else if x.poison then (false, d.dropDesc n k 7)
      else if x.length < x.editedLength && decide (d.rd .maxlen 0 < x.editedLength) then
        (false, (d.bump .editOversize 0).dropDesc n k 8)
      else (true, d.sendFrame n ps k e c x)

/-- A request served: decisions until a frame is sent or nothing can be chosen (R203). -/
def Dev.serve (d : Dev) (n ps : Nat) (e : Egress) : Nat → Dev
  | 0 => d
  | fuel + 1 =>
    match d.choose n e with
    | none => d
    | some c =>
      match (d.commitChoice c).takeHead n ps e c with
      | (true, d) => d
      | (false, d) => d.serve n ps e fuel

/-- SCHEDULE_DECISION (R202): a request of tree `t`, port `p` or the management port. A frame that leaves a port crosses its balls
at `n`, the fixed latencies of R230 removed. -/
def execScheduleDecision (n : Stamp) (e : Egress) (s : State) : Host.Outcome State Fault Refusal :=
  if egressExists e then
    .next (s.at_ n.tick fun k d => (d.settleSends k).serve k n.ps e (d.buf.descs.length + 1))
  else .fault .noSuchElement

/-- PEAK_RESET's effect at tick `n` (R214): a frame sent in that tick counts toward the new peak. -/
def Dev.peakReset (d : Dev) (n : Nat) : Dev :=
  d.each ((Tab.keys d.sched.stats ++ Tab.keys d.buf.queues).dedup) fun d q =>
    d.modStat q fun x => { x with
      peak := d.depth q, delayMax := match x.lastTick with
        | some (t, m) => if t = n then m else 0
        | none => 0 }

end Sys2Proof.Machine
end

