-- ==== Sys2Proof/Machine/Reply.lean ====
section
/-!
DEFINITION. Responses of the dictionary on their way out: response commands (R306), Swijan PDUs clear and sealed (R129, R130,
R308), the Dictionary Serial Port (R315), a response held for a relinquish (R276).
-/
namespace Sys2Proof.Machine
open Sys2Proof

/-! ### Response commands (R306) -/

/-- Bytes padded with zeros to a multiple of 4. -/
def pad4 (b : Bytes) : Bytes := b ++ List.replicate ((4 - b.length % 4) % 4) 0

/-- The header of a response command: the request's, with STATUS and the length of the response's own DATA. -/
def respHeader (h : Bytes) (r : Resp) : Bytes :=
  [byteAt h 0, r.status, byteAt h 2, byteAt h 3, byteAt h 4, byteAt h 5, byteAt h 6, 0] ++ toBytes 2 r.data.length ++ [0, 0]

/-- A response command. -/
def respCommand (x : Bytes × Resp) : Bytes := respHeader x.1 x.2 ++ pad4 x.2.data

/-- The commands of a response PDU. -/
def respCommands (l : List (Bytes × Resp)) : Bytes := (l.map respCommand).flatten

/-! ### Swijan PDUs (R308) -/

/-- Bytes 0 to 35 of a response PDU. -/
def pduHead (auth : Bool) (session keyId seq nonce next length count : Nat) : Bytes :=
  [1, 128 + 64 * ofBool auth, session, keyId] ++ toBytes 4 seq ++ toBytes 12 nonce ++ toBytes 12 next ++ toBytes 2 length ++
    toBytes 2 count

def Dev.session (d : Dev) (k : Nat) : Session := Tab.get {} d.mgmt.sessions k
def Dev.modSession (d : Dev) (k : Nat) (f : Session → Session) : Dev :=
  { d with mgmt := { d.mgmt with sessions := Tab.set {} d.mgmt.sessions k (f (d.session k)) } }

/-- The next nonce under management key `k` (R129). -/
def Dev.mgmtNonce (d : Dev) (k : Nat) : Nat × Dev :=
  let c := Tab.get 0 d.mgmt.mgmtNext k
  (d.rd .deviceSalt 0 * 2 ^ 64 + c, { d with mgmt := { d.mgmt with mgmtNext := Tab.set 0 d.mgmt.mgmtNext k (c + 1) } })

/-- A PDU leaves by the port of its request, to the request's source (R308): in-band as a device-made frame of the HOST
pool. -/
def Dev.sendPdu (d : Dev) (n : Nat) (arrival : RxPort) (dest : Nat) (tags body : Bytes) : Dev :=
  match arrival with
  | .mgmt => d.emit (.swijanReply .mgmt dest tags body)
  | .uplink p =>
    let frame := toBytes 6 dest ++ toBytes 6 (d.rd .mgmtMac 0) ++ tags ++ toBytes 2 (d.rd .swijanEtype 0) ++ body
    (d.queueDevice n 34 0 p (d.rd .inbandQueue 0) (d.rd .mgmtDomain 0) frame false none).2

/-- A response PDU in the clear. -/
def clearPdu (session seq : Nat) (l : List (Bytes × Resp)) : Bytes :=
  let body := respCommands l
  pduHead false session 0 seq 0 0 (36 + body.length) l.length ++ body

/-- A reply in the clear. -/
def Dev.replyClear (d : Dev) (n : Nat) (arrival : RxPort) (dest : Nat) (tags : Bytes) (session seq : Nat)
    (l : List (Bytes × Resp)) : Dev := d.sendPdu n arrival dest tags (clearPdu session seq l)

/-- A sealed reply under key `k` of value `key` (R130, R308): its own nonce, then the issued one, which the session keeps. -/
def Dev.replySealed (d : Dev) (n : Nat) (arrival : RxPort) (dest : Nat) (tags : Bytes) (session seq k key : Nat)
    (l : List (Bytes × Resp)) : Dev :=
  let (nonce, d) := d.mgmtNonce k
  let (next, d) := d.mgmtNonce k
  let body := respCommands l
  let head := pduHead true session k seq nonce next (36 + body.length) l.length
  let d := if d.rd .sessionState session = 0 then d else d.modSession session fun x => { x with nonce := next }
  (d.gcmJob n body.length).sendPdu n arrival dest tags (head ++ Config.gcmSeal key nonce head body)

/-- The reply of an applied request, sealed, or in the clear and then stored by its open session for a repeat (R308). -/
def Dev.reply (d : Dev) (n : Nat) (arrival : RxPort) (dest : Nat) (tags : Bytes) (session seq : Nat)
    (key : Option (Nat × Nat)) (l : List (Bytes × Resp)) : Dev :=
  match key with
  | none =>
    let keep := decide (d.rd .sessionState session = 2)
    let d := if keep then d.modSession session fun x => { x with stored := clearPdu session seq l } else d
    d.replyClear n arrival dest tags session seq l
  | some (k, v) => d.replySealed n arrival dest tags session seq k v l

/-! ### The Dictionary Serial Port (R315) -/

/-- A response becomes readable by FETCH. -/
def Dev.dspAnswer (d : Dev) (x : Bytes × Resp) : Dev :=
  { d with mgmt := { d.mgmt with dspReady := 0xA5, dspResponse := respCommand x } }

/-! ### The response of a relinquish (R276) -/

/-- The last status of a session's request. -/
def Dev.noteStatus (d : Dev) (session : Option Nat) (l : List (Bytes × Resp)) : Dev :=
  match session, l.getLast? with
  | some k, some x => d.wr .lastStatus k x.2.status
  | _, _ => d

/-- The request that asked for the relinquish gets its response, with `status` for the deferred command. -/
def Dev.answerRelinquish (d : Dev) (n status : Nat) : Dev :=
  let d := match d.mate.relinquishMaster with
    | some m => d.emit (.response m ⟨status, []⟩)
    | none => d
  match d.mgmt.held with
  | none => d
  | some h =>
    let d := { d with mgmt := { d.mgmt with held := none } }
    let l := h.before ++ [(h.header, ⟨status, []⟩)] ++ h.after
    match h.session with
    | none => d.dspAnswer (h.header, ⟨status, []⟩)
    | some k => (d.noteStatus (some k) l).reply n h.arrival h.dest h.tags k h.seq h.key l

end Sys2Proof.Machine
end

