-- ==== Sys2Proof/Machine/Sessions.lean ====
section
/-!
DEFINITION. Sessions, the control lease and window locks (R160, R309-R313).
-/
namespace Sys2Proof.Machine
open Sys2Proof

/-- A master as LEASE_HOLDER shows it (R316). -/
def masterCode : Master → Nat
  | .session k => k
  | .serial => 17

/-- The privilege a master acts at (R302, R309, R315). -/
def Dev.privOf (d : Dev) : Master → Nat
  | .session k => d.rd .sessionPriv k
  | .serial => d.rd .dspPriv 0

/-- A key write may come from this master (R132): an authenticated session, or the serial port. -/
def Dev.mayWriteKeys (d : Dev) : Master → Bool
  | .session k => d.rd .sessionKey k != 255
  | .serial => true

/-! ### The lease (R313) -/

def Dev.freeLease (d : Dev) : Dev := (d.wr .leaseReg 0 0).wr .leaseHolder 0 0

/-- Another master holds the lease. -/
def Dev.leasedAway (d : Dev) (m : Master) : Bool := d.rd .leaseHolder 0 != 0 && d.rd .leaseHolder 0 != (masterCode m)

/-- LEASE written by a master (R313): answers the status. -/
def Dev.writeLease (d : Dev) (n : Nat) (m : Master) (v : Nat) : Nat × Dev :=
  if d.leasedAway m then (3, d.bump .leaseRefused 0)
  else if v = 1 then
    let d := (d.wr .leaseReg 0 1).wr .leaseHolder 0 (masterCode m)
    (0, { d with mgmt := { d.mgmt with leaseAt := n } })
  else (0, d.freeLease)

/-! ### Window locks (R160) -/

def Dev.lockOf (d : Dev) (index inst : Nat) : Option Lock := d.mgmt.locks.find? fun l => l.index == index && l.inst == inst

def Dev.dropLock (d : Dev) (index inst : Nat) : Dev :=
  { d with mgmt := { d.mgmt with locks := d.mgmt.locks.filter fun l => !(l.index == index && l.inst == inst) } }

/-- Another master holds the lock of a window. -/
def Dev.lockedAway (d : Dev) (m : Master) (index inst : Nat) : Bool :=
  match d.lockOf index inst with
  | some l => l.holder != m
  | none => false

/-- LOCK written by a master (R160): answers the status. -/
def Dev.writeLock (d : Dev) (n : Nat) (m : Master) (index inst v : Nat) : Nat × Dev :=
  if d.lockedAway m index inst then (2, d)
  else if v = 1 then
    let e := d.dropLock index inst
    (0, { e with mgmt := { e.mgmt with locks := ⟨index, inst, m, n⟩ :: e.mgmt.locks } })
  else (0, d.dropLock index inst)

/-! ### Sessions (R309-R312) -/

/-- A session closes: LAST_SEQ and LAST_STATUS stay; its lease and its locks are freed. -/
def Dev.closeSession (d : Dev) (k : Nat) : Dev :=
  let d := (((d.wr .sessionState k 0).wr .sessionPriv k 0).wr .sessionKey k 255).wr .sessionSrc k 0
  let d := if d.rd .leaseHolder 0 = k then d.freeLease else d
  { d with mgmt := { d.mgmt with
    sessions := Tab.set {} d.mgmt.sessions k {}, locks := d.mgmt.locks.filter fun l => l.holder != .session k } }

/-- The sessions in a state. -/
def Dev.sessionsIn (d : Dev) (st : Nat) : List Nat := ((List.range 16).map (· + 1)).filter fun k => d.rd .sessionState k == st

/-- The privilege ceiling of a session (R309). -/
def Dev.ceiling (d : Dev) (k : Nat) : Nat :=
  if d.rd .sessionKey k = 255 then d.rd .unauthPriv 0 else d.rd .keyPriv (d.rd .sessionKey k)

/-- A written management key takes effect: its sessions close (R312). -/
def Dev.takeMgmtKey (d : Dev) (k : Nat) : Dev :=
  (d.takeKey (32832 + k)).each ((List.range 16).map (· + 1)) fun d s =>
    if d.rd .sessionState s ≠ 0 ∧ d.rd .sessionKey s = k then d.closeSession s else d

/-- What acts from the next request (R312): written management keys, AUTH_REQUIRED, lowered ceilings. -/
def Dev.settleMgmt (d : Dev) : Dev :=
  let ks := d.mgmt.keyChanged
  let d := ({ d with mgmt := { d.mgmt with keyChanged := [] } }).each ks Dev.takeMgmtKey
  let d := if d.on .authRequired 0 then
      d.each (d.sessionsIn 2) fun d k => if d.rd .sessionKey k = 255 then d.closeSession k else d
    else d
  d.each (d.sessionsIn 2) fun d k => d.wr .sessionPriv k (min (d.rd .sessionPriv k) (d.ceiling k))

/-! ### Expiries -/

/-- LOCK_EXPIRY (R160): a lock held for LOCK_MAX_MS is freed. -/
def execLockExpiry (n index inst : Nat) (s : State) : Host.Outcome State Fault Refusal :=
  .next (s.at_ n fun n d =>
    match d.lockOf index inst with
    | some l =>
      if l.at_ + msTicks (d.rd .sweepLockMaxMs 0) ≤ n then (d.dropLock index inst).bump .lockExpired 0 else d
    | none => d)

/-- LEASE_EXPIRY (R313). -/
def execLeaseExpiry (n : Nat) (s : State) : Host.Outcome State Fault Refusal :=
  .next (s.at_ n fun n d =>
    if d.rd .leaseHolder 0 ≠ 0 ∧ d.mgmt.leaseAt + msTicks (d.rd .leaseTimeoutMs 0) ≤ n then
      d.freeLease.bump .leaseExpired 0
    else d)

/-- SESSION_IDLE_EXPIRY (R311). -/
def execSessionIdleExpiry (n k : Nat) (s : State) : Host.Outcome State Fault Refusal :=
  onSession k s fun s => s.at_ n fun n d =>
    if d.rd .sessionState k = 2 ∧ (d.session k).lastAt + msTicks (d.rd .sessionIdleMs 0) ≤ n then d.closeSession k else d

/-- PENDING_SESSION_EXPIRY (R309): 1,000 ms after its opening. -/
def execPendingSessionExpiry (n k : Nat) (s : State) : Host.Outcome State Fault Refusal :=
  onSession k s fun s => s.at_ n fun n d =>
    if d.rd .sessionState k = 1 ∧ (d.session k).openedAt + msTicks 1000 ≤ n then d.closeSession k else d

end Sys2Proof.Machine
end

