-- ==== Sys2Proof/Machine/Grants.lean ====
section
/-!
DEFINITION. The Grant Engine and the Upstream Admission Controller: burst costs and layout (R95, R98-R100, R110), the nine
steps of map construction (R89-R97, R101, R104), the credit (R103, R105), seal and fan-out (R22-R25, R102, R111).
-/
namespace Sys2Proof.Machine
open Sys2Proof

/-! ### Costs (R95) and entries (R100) -/

/-- E(x): parity for K = 1,824, P = 336, or 216 and 32 in XGS coexistence. -/
def fecCost (xgs fec : Bool) (x : Nat) : Nat :=
  if fec then (if xgs then x + 32 * ceilDiv x 216 else x + 336 * ceilDiv x 1824) else x

/-- The line cost of a burst of `bytes` granted bytes on entry `e` of tree `t`. -/
def Dev.burstCost (d : Dev) (t e bytes : Nat) (ploam : Bool) : Nat :=
  let i := 4 * t + e
  d.rd .guardBytes t + 8 * d.rd .bpRepeat i + 8 +
    fecCost (d.upRate t == 3) (d.on .bpFec i) (12 + bytes + if ploam then 48 else 0)

/-- The entry of a burst: the lower of BP_ENTRY and the lowest BP_CAP, or the nearest lower usable one, or 0. -/
def Dev.burstEntry (d : Dev) (g : Nat) (allocs : List Nat) : Nat :=
  let e := (allocs.map fun a => d.rd .bpCap a).foldl min (d.rd .bpEntry g)
  (((List.range (e + 1)).filter fun k => d.entryUsable (treeOfTerm g) k).getLast?).getD 0

/-! ### Spans of line bytes -/

/-- Spans sorted and merged. -/
def mergeInto (x : Nat × Nat) : List (Nat × Nat) → List (Nat × Nat)
  | [] => [x]
  | y :: r => if y.1 ≤ x.2 then (x.1, max x.2 y.2) :: r else x :: y :: r

def mergeSpans (l : List (Nat × Nat)) : List (Nat × Nat) :=
  (l.insertionSort fun a b => a.1 ≤ b.1).foldr mergeInto []

/-- Line bytes that merged spans cover. -/
def spanBytes (l : List (Nat × Nat)) : Nat := (l.map fun x => x.2 - x.1).sum

/-- A burst of `cost` at `pos` moved past every span it would cross (R99). -/
def movePast (cost : Nat) : List (Nat × Nat) → Nat → Nat
  | [], pos => pos
  | x :: r, pos => if pos < x.2 ∧ x.1 < pos + cost then movePast cost r x.2 else movePast cost r pos

/-- The span that pushes a burst past the end of its period: where the burst would lie before it, and the span (R99). -/
def splitSpan (cost line : Nat) : List (Nat × Nat) → Nat → Option (Nat × Nat × Nat)
  | [], _ => none
  | x :: r, pos =>
    if pos < x.2 ∧ x.1 < pos + cost then (if line < x.2 + cost then some (pos, x) else splitSpan cost line r x.2)
    else splitSpan cost line r pos

/-- The parts of `lo` to `hi` that merged spans leave. -/
def gaps : List (Nat × Nat) → Nat → Nat → List (Nat × Nat)
  | [], lo, hi => if lo < hi then [(lo, hi)] else []
  | x :: r, lo, hi => (if lo < x.1 then [(lo, x.1)] else []) ++ gaps r (max lo x.2) hi

/-- The idle slots handed to the rogue detector (R82): gaps of at least 2 us, less 100 ns at each edge. -/
def idleSlots (rate line : Nat) (taken : List (Nat × Nat)) : List (Nat × Nat) :=
  let edge := ceilDiv (rateBps rate) 80000000
  ((gaps (mergeSpans taken) 0 line).filter fun x => decide (ceilDiv (rateBps rate) 4000000 ≤ x.2 - x.1)).map fun x =>
    (x.1 + edge, x.2 - edge)

/-! ### Windows (R98) -/

/-- The arrival period of a map, in ps after the frame start of superframe count 0. -/
def pointPs : MapPoint → Nat
  | .frame => 0
  | .sub k => k * 15625000

/-- The span of line bytes, of the arrival period of map (sfc, p), that a window blocks: it begins `start` ps after the
reference time of a grant of map (sfc + ahead, q) and lasts `len` ps. Rounded outward. -/
def Dev.blockedSpan (d : Dev) (t : Nat) (p q : MapPoint) (ahead start : Int) (len : Nat) : Option (Nat × Nat) :=
  let rel : Int := ahead * 125000000 + pointPs q - pointPs p + start - d.targetRtd t * 1000
  let bps : Int := rateBps (d.upRate t)
  let line : Int := lineBytes (d.upRate t) (d.latency t)
  let lo := max 0 (rel * bps / 8000000000000)
  let hi := min line (-(-((rel + len) * bps) / 8000000000000))
  if lo < hi then some (lo.toNat, hi.toNat) else none

/-- The spans that discovery quiet windows block in the map (sfc, p). -/
def Dev.quietSpans (d : Dev) (t sfc : Nat) (p : MapPoint) : List (Nat × Nat) :=
  let q : MapPoint := if d.latency t then .sub 0 else .frame
  let first : Int := ((d.targetRtd t : Int) - d.rd .minRtd t - d.quietNs t) / 125000
  (List.range 7).filterMap fun (k : Nat) =>
    let ahead := first + (k : Int)
    let c := (sfc : Int) + ahead
    if 0 ≤ c && d.windowIn t c.toNat then
      d.blockedSpan t p q ahead (d.rd .minRtd t * 1000 : Nat) (d.quietNs t * 1000)
    else none

/-- The spans that ranging windows block: of ranging grants in maps sealed, and in this map. -/
def Dev.rangingSpans (d : Dev) (t sfc : Nat) (p : MapPoint) (mine : List MapBurst) : List (Nat × Nat) :=
  let span : Nat → MapPoint → MapBurst → Option (Nat × Nat) := fun c q b =>
    if b.kind = .ranging then
      match b.window with
      | some w => d.blockedSpan t p q ((c : Int) - sfc) w (d.rangingNs t * 1000)
      | none => none
    else none
  mine.filterMap (span sfc p) ++ ((d.tree t).maps.map fun m => m.bursts.filterMap (span m.sfc m.point)).flatten

/-! ### The plan of one map -/

/-- What stays fixed while a map is built: spans, line bytes, the visiting order, reservations (terminal, start, cost). -/
structure Plan where
  t : Nat
  n : Nat
  sfc : Nat
  point : MapPoint
  latency : Bool
  line : Nat
  limit : Nat
  specials : List MapBurst
  blocked : List (Nat × Nat)
  res : List (Nat × Nat × Nat)
  resEnd : Nat
  free : Nat
  order : List Nat
  first : List Nat
  deriving DecidableEq, Repr

/-- The allocations of a tree that are enabled, ascending. -/
def Dev.enabledAllocs (d : Dev) (t : Nat) : List Nat :=
  (d.instances .allocEnable).filter fun a => treeOfAlloc a == t && d.on .allocEnable a

/-- R94: ascending, from the first allocation of the terminal that the pointer names, or of the next one that has any; of its
enabled allocations (DESIGN CHOICE, log row 102). -/
def Dev.visitOrder (d : Dev) (t sfc : Nat) : List Nat :=
  let l := d.enabledAllocs t
  let dist : Nat → Nat := fun a => (d.rd .allocTerminal a + 512 - sfc % 512) % 512
  match l with
  | [] => []
  | a :: r =>
    let start := r.foldl (fun b x => if dist x < dist b then x else b) a
    (l.filter fun x => start ≤ x) ++ l.filter fun x => x < start

/-- A latency-bound allocation: LAT_BOUND under LATENCY. -/
def Dev.latBound (d : Dev) (a : Nat) : Bool := d.on .latBound a && d.latency (treeOfAlloc a)

/-- FIXED_BYTES as granted, and the assured amount of a period in units of 1/512 byte (R89). -/
def Dev.fixedOf (d : Dev) (a : Nat) : Nat := ceil16 (d.rd .fixedBytes a)
def Dev.assuredUnits (d : Dev) (a : Nat) : Nat := d.rd .assuredKbps a * if d.latency (treeOfAlloc a) then 1 else 8
def Dev.rateUnits (d : Dev) (a : Nat) : Nat := d.rd .maxKbps a * if d.latency (treeOfAlloc a) then 1 else 8

/-- The valid entries within a terminal's bounds (R110), or, there being none, the one it falls back on. -/
def Dev.boundEntries (d : Dev) (g : Nat) : List Nat :=
  let l := (List.range 4).filter fun k =>
    decide (d.rd .steerLow g ≤ k) && decide (k ≤ d.rd .steerHigh g) && d.on .bpValid (4 * treeOfTerm g + k)
  if l.isEmpty then [d.nearestEntry g (d.rd .bpEntry g)] else l

/-- The reservations of R110 in ascending terminal index, (terminal, cost). -/
def Dev.reservationCosts (d : Dev) (t : Nat) (allocs : List Nat) : List (Nat × Nat) :=
  let lat := allocs.filter fun a => d.latBound a && d.inState (d.allocTerm a) 2
  let ts := ((lat.map fun a => d.rd .allocTerminal a).dedup).insertionSort (· ≤ ·)
  ts.map fun i =>
    let bytes := ((lat.filter fun a => d.rd .allocTerminal a == i).map fun a =>
      d.fixedOf a + ceil16 (ceilDiv (d.rd .assuredKbps a) 512)).sum
    (i, ((d.boundEntries (t * 512 + i)).map fun e => d.burstCost t e bytes true).foldl max 0)

/-- Laid one after another from the start of the period, up to the first that would run past its end. -/
def layReservations (line : Nat) : List (Nat × Nat) → Nat → List (Nat × Nat × Nat)
  | [], _ => []
  | (i, c) :: r, pos => if line < pos + c then [] else (i, pos, c) :: layReservations line r (pos + c)

/-- The burst of terminal `g` will carry a PLOAM message (R101). -/
def Dev.ploamDue (d : Dev) (n g : Nat) : Bool :=
  let x := d.term g
  x.awaitPloam || x.ploamAt == 0 || decide (x.ploamAt + msTicks (d.rd .ploamuMs (treeOfTerm g)) ≤ n)

/-- The terminals of a tree that wait for a framed burst at their new delay (R68): for 16 frames each frame's map grants
them one. -/
def Dev.verifying (d : Dev) (t sfc : Nat) : List Nat :=
  (termsOfTree t).filter fun g => d.inState g 1 && (d.term g).eqdSent.isSome && !(d.tree t).rangeWanted.contains g &&
    decide (sfc < (d.term g).tryFrame + 17)

def Dev.specialBurst (d : Dev) (n t : Nat) (k : BurstKind) (i : Nat) (w : Option Int) : MapBurst :=
  { kind := k, terminal := i, entry := 0, start := 0, cost := 0,
    ploam := k == .ranging && d.ploamDue n (t * 512 + i), grants := [], window := w, ended := false, orphan := false }

/-- The grants of a map that have a window (R86, R97). -/
def Dev.windowBursts (d : Dev) (n t sfc : Nat) (p : MapPoint) : List MapBurst :=
  let disc := if (p == .frame || p == .sub 0) && d.windowIn t sfc
    then [d.specialBurst n t .discovery 0 (some (d.rd .minRtd t * 1000 : Nat))] else []
  disc ++ ((d.tree t).rangeWanted.filter fun g => d.inState g 1).map fun g =>
    d.specialBurst n t .ranging (g % 512) (some (d.term g).windowPs)

/-- The ranging grants at a delay just sent, laid one after another from `pos`: their bursts are expected at one place
(R75). -/
def Dev.verifyBursts (d : Dev) (n t line : Nat) (blocked : List (Nat × Nat)) : List Nat → Nat → List MapBurst
  | [], _ => []
  | g :: r, pos =>
    let x := d.specialBurst n t .ranging (g % 512) none
    let cost := d.burstCost t 0 0 x.ploam
    let at_ := movePast cost blocked pos
    if line < at_ + cost then d.verifyBursts n t line blocked r pos
    else { x with start := at_ + d.rd .guardBytes t, cost := cost } :: d.verifyBursts n t line blocked r (at_ + cost)

/-- The line bytes that ranging grants without a window take. -/
def Dev.verifySpans (d : Dev) (t : Nat) (l : List MapBurst) : List (Nat × Nat) :=
  l.map fun x => (x.start - d.rd .guardBytes t, x.start - d.rd .guardBytes t + x.cost)

/-- The plan of map (sfc, p) of tree `t`, built at tick `n`. -/
def Dev.plan (d : Dev) (n t sfc : Nat) (p : MapPoint) : Plan :=
  let lat := d.latency t
  let line := lineBytes (d.upRate t) lat
  let limit := if lat then 64 else 512
  let windows := (d.windowBursts n t sfc p).take limit
  let closed := mergeSpans (d.quietSpans t sfc p ++ d.rangingSpans t sfc p windows)
  let order := d.visitOrder t sfc
  let res := if lat then layReservations line (d.reservationCosts t order) 0 else []
  let resEnd := (res.map fun r => r.2.1 + r.2.2).foldl max 0
  let verify := if p == .frame || p == .sub 0 then
    d.verifyBursts n t line closed ((d.verifying t sfc).take (limit - windows.length)) resEnd else []
  let specials := windows ++ verify
  let blocked := mergeSpans (closed ++ d.verifySpans t verify)
  let clear := res.filter fun r => !blocked.any fun b => decide (r.2.1 < b.2) && decide (b.1 < r.2.1 + r.2.2)
  { t := t, n := n, sfc := sfc, point := p, latency := lat, line := line, limit := limit, specials := specials,
    blocked := blocked, res := clear, resEnd := resEnd,
    free := line - spanBytes (mergeSpans ((0, resEnd) :: blocked)),
    order := order,
    first := (order.filter fun a => d.latBound a) ++ order.filter fun a => !d.latBound a }

/-! ### Adding grants -/

/-- One addition to a map: its step, allocation, bytes, and units that step 7 took from the assured bucket. -/
structure Add where
  step : Nat
  alloc : Nat
  bytes : Nat
  taken : Nat
  deriving DecidableEq, Repr

/-- A map under construction: additions in order, line bytes used by bursts without a reservation, allocations whose grant
counts as a poll (R92), those whose poll grant was cut. -/
structure Build where
  d : Dev
  adds : List Add := []
  used : Nat := 0
  polled : List Nat := []
  pollCut : List Nat := []

def Build.size (b : Build) (a : Nat) : Nat := ((b.adds.filter fun x => x.alloc == a).map (·.bytes)).sum

/-- The allocations that hold a structure, in the order of their first grant. -/
def Build.allocs (b : Build) : List Nat := ((b.adds.filter fun x => 0 < x.bytes).map (·.alloc)).reverse.dedup.reverse

/-- The cost of terminal `g`'s burst with `extra` bytes for the allocations `more` beside what it holds. -/
def Build.costWith (b : Build) (n g extra : Nat) (more : List Nat) : Nat :=
  let mine := b.allocs.filter fun a => b.d.allocTerm a == g
  let all := mine ++ more
  if all.isEmpty then 0
  else b.d.burstCost (treeOfTerm g) (b.d.burstEntry g all) ((mine.map b.size).sum + extra) (b.d.ploamDue n g)

/-- The largest multiple of 16, at most `16 * hi`, that `ok` admits, by halving steps `2 ^ k`, `2 ^ (k - 1)`, … -/
def largest16 (ok : Nat → Bool) (hi : Nat) : Nat → Nat → Nat
  | 0, got => if got + 1 ≤ hi && ok (16 * (got + 1)) then 16 * (got + 1) else 16 * got
  | k + 1, got =>
    let try_ := got + 2 ^ (k + 1)
    largest16 ok hi k (if try_ ≤ hi && ok (16 * try_) then try_ else got)

/-- What the latency-bound allocations of a reserved terminal may still be given in steps 4 and 5 (R110). -/
def Build.held (b : Build) (step g : Nat) (order : List Nat) : Nat × List Nat :=
  let d := b.d
  let lat := order.filter fun a => d.latBound a && d.allocTerm a == g
  let need : Nat → Nat := fun a =>
    let fixed := if step = 3 then d.fixedOf a else 0
    let x := d.alloc a
    let have_ := min x.assured x.rate / 512
    let amt := if d.rd .allocClass a = 0 then 0
      else min (min (d.rd .allocDemand a - b.size a - fixed) have_) (d.rd .maxBurst a - b.size a - fixed)
    fixed + ceil16 amt
  ((lat.map need).sum, lat)

/-- A grant of `want` bytes (a multiple of 16) to allocation `a` in a step (R96, R97): what was granted. -/
def Build.add (b : Build) (p : Plan) (step a want : Nat) : Nat × Build :=
  let d := b.d
  let g := d.allocTerm a
  let have_ := b.allocs
  if want = 0 then (0, b)
  else if !have_.contains a && decide (p.limit ≤ p.specials.length + have_.length) then
    (0, { b with d := d.bump .mapFull p.t })
  else
    let old := b.costWith p.n g 0 []
    let mine := p.res.find? fun r => r.1 == g % 512
    let room := match mine with
      | some r => r.2.2 - old
      | none => p.free - b.used
    let hold := if mine.isSome && !d.latBound a && step ≤ 4 then b.held step g p.order else (0, [])
    let ok : Nat → Bool := fun k => decide (b.costWith p.n g (k + hold.1) (a :: hold.2) ≤ old + room)
    let got := if ok want then want else largest16 ok (want / 16) 16 0
    if got = 0 then (0, b)
    else
      let new := b.costWith p.n g got [a]
      (got, { b with
        adds := b.adds ++ [⟨step, a, got, 0⟩],
        used := if mine.isSome then b.used else b.used + new - old })

/-- Deferred bytes become owed (R96): capped at 8 times FIXED_BYTES plus the assured amount of a period. -/
def Dev.capOwed (d : Dev) (a : Nat) : Dev :=
  let cap := 8 * (d.fixedOf a + d.assuredUnits a / 512)
  let o := d.rd .owedBytes a
  if cap < o then (d.wr .owedBytes a cap).add .owedDropped a (o - cap) else d

def Build.defer (b : Build) (p : Plan) (a cut : Nat) : Build :=
  if cut = 0 then b
  else { b with d := ((b.d.add .owedBytes a cut).bump .deferEvents p.t).capOwed a }

/-! ### The steps of R93 -/

/-- Step 1: tokens (R89), owed bytes above a lowered cap (R111), demand of an allocation without reports (R90), entries of
terminals (R50, R81). -/
def Dev.mapSnapshot (d : Dev) (p : Plan) : Dev :=
  let d := d.each ((d.instances .termState).filter fun g => treeOfTerm g == p.t) fun d g =>
    if d.inState g 2 || d.inState g 3 then
      let e := d.currentEntry g
      if e = d.rd .bpEntry g then d else (d.wr .bpEntry g e).mirrorTerm p.n g
    else d
  d.each p.order fun d a =>
    let x := d.alloc a
    let d := d.modAlloc a fun _ => { x with
      assured := min (x.assured + d.assuredUnits a) (8 * d.assuredUnits a),
      rate := min (x.rate + d.rateUnits a) (d.rd .maxBurst a * 512) }
    let d := if d.on .allocReport a then d else d.wr .allocDemand a 0
    d.capOwed a

/-- Applying a step to the allocations whose terminal is in OPERATION. -/
def Build.eachOperating (b : Build) (l : List Nat) (f : Build → Nat → Build) : Build :=
  (l.filter fun a => b.d.inState (b.d.allocTerm a) 2).foldl f b

/-- Step 3: owed bytes; they take no tokens. -/
def Build.step3 (b : Build) (p : Plan) : Build :=
  b.eachOperating p.first fun b a =>
    let owed := b.d.rd .owedBytes a
    if owed = 0 then b
    else
      let (got, b) := b.add p 3 a (ceil16 owed)
      let b := { b with d := b.d.wr .owedBytes a (owed - got) }
      if got < owed then { b with d := b.d.bump .deferEvents p.t } else b

/-- Step 4: fixed bytes. -/
def Build.step4 (b : Build) (p : Plan) : Build :=
  b.eachOperating p.first fun b a =>
    let want := b.d.fixedOf a
    let (got, b) := b.add p 4 a want
    b.defer p a (want - got)

/-- Demand left to an allocation in the map being built. -/
def Build.demand (b : Build) (a : Nat) : Nat := b.d.rd .allocDemand a - b.size a

/-- Step 5: assured bytes; the tokens are taken before any cut. A grant is rounded up to 16 where the buckets and MAX_BURST
allow, else down (R89, R93). -/
def Build.step5 (b : Build) (p : Plan) : Build :=
  b.eachOperating p.first fun b a =>
    if b.d.rd .allocClass a = 0 then b
    else
      let x := b.d.alloc a
      let lim := min (min x.assured x.rate / 512) (b.d.rd .maxBurst a - b.size a)
      let amt := min (b.demand a) lim
      let want := if ceil16 amt ≤ lim then ceil16 amt else floor16 amt
      if want = 0 then b
      else
        let b := { b with d := b.d.modAlloc a fun x => { x with
          assured := x.assured - want * 512, rate := x.rate - want * 512 } }
        let (got, b) := b.add p 5 a want
        b.defer p a (want - got)

/-- A poll grant is due (R92): nothing granted in a map sealed during the last POLL_US, in whole map periods. -/
def Dev.pollDue (d : Dev) (p : Plan) (a : Nat) : Bool :=
  let period := if p.latency then subTicks else frameTicks
  let k := max 1 (d.rd .pollUs a * 1000 / (if p.latency then 15625 else 125000))
  let last := (d.alloc a).grantTick
  last == 0 || decide (last + k * period < p.n)

/-- Step 6: poll grants of terminals in OPERATION or LOST. -/
def Build.step6 (b : Build) (p : Plan) : Build :=
  (p.first.filter fun a => b.d.inState (b.d.allocTerm a) 2 || b.d.inState (b.d.allocTerm a) 3).foldl (fun b a =>
    if b.d.pollDue p a then
      if b.size a ≠ 0 then { b with polled := b.polled ++ [a] }
      else
        let (got, b) := b.add p 6 a 64
        { b with polled := b.polled ++ [a], pollCut := if got < 64 then b.pollCut ++ [a] else b.pollCut }
    else b) b

/-- Bytes of steps 3-6 in the map so far. -/
def Build.steps36 (b : Build) : Nat := ((b.adds.filter fun x => x.step ≤ 6).map (·.bytes)).sum

/-- The line bytes of an arrival period in ticks: the end of a burst at the head-end. -/
def Dev.burstEnd (d : Dev) (t : Nat) (m : Map) (x : MapBurst) : Nat :=
  let ps : Rat := (d.targetRtd t : Rat) * 1000 + ((x.start + x.cost - d.rd .guardBytes t : Nat) : Rat) * 8 * bitPs (d.upRate t)
  d.refTick ⟨m.sfc, m.point, 0⟩ + psToTicks ps.ceil.toNat

/-- Bytes of steps 3-6 and of step 7 in sealed maps whose bursts have not ended (R103, R104). -/
def Dev.inFlight (d : Dev) (n t : Nat) : Nat × Nat :=
  let gs := ((d.tree t).maps.map fun m =>
    ((m.bursts.filter fun x => x.kind == .data && decide (n < d.burstEnd t m x)).map (·.grants)).flatten).flatten
  ((gs.map fun g => g.size - g.added).sum, (gs.map (·.added)).sum)

/-- The additional budget B (R104, R107, R25), with ADMIT_OVERRUN, CREDIT_LATE and their faults. -/
def Build.budget (b : Build) (p : Plan) (late : Bool) : Nat × Build :=
  let d := b.d
  let t := p.t
  let (v, d) : Nat × Dev :=
    if d.treeProfile t = 3 then (d.rd .staticCredit t, d)
    else match (if late then none else (d.tree t).credit) with
      | none => (0, d.bump .creditLate t)
      | some k =>
        let y := max 1 (d.rd .cellYield t)
        let left : Int := k - ceilDiv (d.inFlight p.n t).1 y - ceilDiv b.steps36 y
        if left < 0 then (0, (d.bump .admitOverrun t).event p.n (8 * t + 5) t)
        else (left.toNat * y, d)
  (v, { b with d := (d.wr .budgetLast t v).modTree t fun x => { x with credit := none } })

/-- The water-fill of R104 over (allocation, want, weight), with its budget: the grants, and what is left. -/
def waterFill : Nat → Nat → List (Nat × Nat × Nat) → List (Nat × Nat) × Nat
  | 0, budget, _ => ([], budget)
  | _, budget, [] => ([], budget)
  | fuel + 1, budget, l =>
    let total := (l.map fun x => x.2.2).sum
    let share : Nat × Nat × Nat → Nat := fun x => floor16 (budget * x.2.2 / total)
    let full := l.filter fun x => decide (x.2.1 ≤ share x)
    if full.isEmpty then (l.map fun x => (x.1, share x), budget - (l.map share).sum)
    else
      let r := waterFill fuel (budget - (full.map fun x => x.2.1).sum) (l.filter fun x => decide (share x < x.2.1))
      ((full.map fun x => (x.1, x.2.1)) ++ r.1, r.2)

/-- Step 7 for one tier: class 2 or 3. -/
def Build.tier (b : Build) (p : Plan) (cls budget : Nat) : Nat × Build :=
  let l := (p.order.filter fun a => b.d.inState (b.d.allocTerm a) 2 && b.d.rd .allocClass a == cls).map fun a =>
    (a, floor16 (min (min (b.demand a) ((b.d.alloc a).rate / 512)) (b.d.rd .maxBurst a - b.size a)),
     max 1 (b.d.rd .allocationWeight a))
  let l := l.filter fun x => 0 < x.2.1
  let (gs, rest) := waterFill (l.length + 1) budget l
  let share : Nat → Nat := fun a => (gs.find? fun g => g.1 == a).elim 0 (·.2)
  (rest, l.foldl (fun b x =>
    let (got, b) := b.add p 7 x.1 (share x.1)
    if got = 0 then b
    else
      let taken := min (b.d.alloc x.1).assured (got * 512)
      { b with
        d := b.d.modAlloc x.1 fun y => { y with assured := y.assured - taken, rate := y.rate - got * 512 },
        adds := b.adds.dropLast ++ [⟨7, x.1, got, taken⟩] }) b)

/-! ### Layout (R99) -/

/-- A burst to lay: terminal, entry, PLOAM flag, allocations with their bytes, in the order they are sent. -/
structure ToLay where
  terminal : Nat
  entry : Nat
  ploam : Bool
  allocs : List (Nat × Nat)
  deriving DecidableEq, Repr

/-- A burst laid: its span start and cost. -/
structure Laid where
  what : ToLay
  span : Nat
  cost : Nat
  deriving DecidableEq, Repr

def Dev.layCost (d : Dev) (t : Nat) (x : ToLay) : Nat := d.burstCost t x.entry ((x.allocs.map (·.2)).sum) x.ploam

/-- The bursts of a map: terminals in visiting order; in a burst, latency-bound allocations of a reservation first, then
ascending number. -/
def Build.toLay (b : Build) (p : Plan) : List ToLay :=
  let held := (b.allocs.filter fun a => 0 < b.size a)
  let order := p.order.filter fun a => held.contains a
  let ts := ((order.map fun a => b.d.allocTerm a).reverse.dedup).reverse
  ts.map fun g =>
    let mine := (order.filter fun a => b.d.allocTerm a == g).insertionSort (· ≤ ·)
    let mine := if p.res.any fun r => r.1 == g % 512
      then (mine.filter fun a => b.d.latBound a) ++ mine.filter fun a => !b.d.latBound a else mine
    ⟨g % 512, b.d.burstEntry g mine, b.d.ploamDue p.n g, mine.map fun a => (a, b.size a)⟩

/-- The longest run of leading allocations, of at most `k`, whose burst fits from `pos` to `stop`. -/
def Dev.leadingRun (d : Dev) (t : Nat) (x : ToLay) (pos stop : Nat) : Nat → Nat
  | 0 => 0
  | k + 1 =>
    if pos + d.layCost t { x with allocs := x.allocs.take (k + 1) } ≤ stop then k + 1 else Dev.leadingRun d t x pos stop k

/-- Laying the bursts without a reservation from `pos` on: what is laid, whether all fits, the splits. -/
def Dev.layRest (d : Dev) (p : Plan) : List ToLay → Nat → List Laid × Bool × Nat
  | [], _ => ([], true, 0)
  | x :: r, pos =>
    let cost := d.layCost p.t x
    let plain := fun (_ : Unit) =>
      let at_ := movePast cost p.blocked pos
      let z := d.layRest p r (at_ + cost)
      (⟨x, at_, cost⟩ :: z.1, decide (at_ + cost ≤ p.line) && z.2.1, z.2.2)
    match splitSpan cost p.line p.blocked pos with
    | none => plain ()
    | some (at_, span) =>
      let k := d.leadingRun p.t x at_ span.1 (x.allocs.length - 1)
      if k = 0 then plain ()
      else
        let a : ToLay := { x with allocs := x.allocs.take k }
        let c : ToLay := { x with allocs := x.allocs.drop k, ploam := false }
        let cc := d.layCost p.t c
        let at2 := movePast cc p.blocked span.2
        let z := d.layRest p r (at2 + cc)
        (⟨a, at_, d.layCost p.t a⟩ :: ⟨c, at2, cc⟩ :: z.1, decide (at2 + cc ≤ p.line) && z.2.1, z.2.2 + 1)

/-- The layout of a map. -/
def Build.lay (b : Build) (p : Plan) : List Laid × Bool × Nat :=
  let l := b.toLay p
  let own : ToLay → Option (Nat × Nat × Nat) := fun x => p.res.find? fun r => r.1 == x.terminal
  let fixed := l.filterMap fun x => (own x).map fun r => (⟨x, r.2.1, b.d.layCost p.t x⟩ : Laid)
  let z := b.d.layRest p (l.filter fun x => (own x).isNone) p.resEnd
  (fixed ++ z.1, z.2.1 && fixed.all fun x => decide (x.span + x.cost ≤ p.line), z.2.2)

/-! ### Trimming (R96) -/

def Build.setAdd (b : Build) (i bytes : Nat) : Build :=
  { b with adds := b.adds.modify i fun x => { x with bytes := bytes } }

/-- What removing `full - kept` bytes of an addition does: owed bytes, or tokens returned (R89). -/
def Build.unadd (b : Build) (p : Plan) (x : Add) (kept : Nat) : Build :=
  let cut := x.bytes - kept
  if cut = 0 then b
  else if x.step ≤ 5 then b.defer p x.alloc cut
  else if x.step = 6 then { b with pollCut := b.pollCut ++ [x.alloc] }
  else
    let back := x.taken - min x.taken (kept * 512)
    { b with d := b.d.modAlloc x.alloc fun y => { y with
      rate := min (y.rate + cut * 512) (b.d.rd .maxBurst x.alloc * 512),
      assured := min (y.assured + back) (8 * b.d.assuredUnits x.alloc) } }

/-- Bytes removed from additions in the order given (indices), until the map fits. -/
def Build.trim (b : Build) (p : Plan) : List Nat → Build
  | [] => b
  | i :: r =>
    if (b.lay p).2.1 then b
    else match b.adds[i]? with
      | none => Build.trim b p r
      | some x =>
        let gone := b.setAdd i 0
        if (gone.lay p).2.1 then
          let kept := largest16 (fun k => ((b.setAdd i k).lay p).2.1) (x.bytes / 16) 16 0
          (b.setAdd i kept).unadd p x kept
        else Build.trim (gone.unadd p x 0) p r

/-- The order of R96: the latest of step 7, then of 6, 5, 4, 3. -/
def trimOrder (adds : List Add) : List Nat :=
  let idx := List.range adds.length
  [7, 6, 5, 4, 3].flatMap fun s => (idx.filter fun i => (adds[i]?.elim 0 (·.step)) == s).reverse

/-! ### The map -/

/-- The structure of an allocation (R102); seal fills KEY_SLOT, the key index and CTR_START. -/
def Build.grantOf (b : Build) (a : Nat) : Grant :=
  let sum : (Add → Bool) → Nat := fun f => ((b.adds.filter fun x => x.alloc == a && f x).map (·.bytes)).sum
  { alloc := a, size := b.size a, owed := sum (·.step == 3), fixed := sum (·.step == 4), assured := sum (·.step == 5),
    poll := sum (·.step == 6), added := sum (·.step == 7),
    fromAssured := ((b.adds.filter fun x => x.alloc == a).map fun x => min x.taken (x.bytes * 512)).sum,
    report := b.d.on .allocReport a || b.polled.contains a, cutPoll := b.pollCut.contains a, dec := 0, prevTick := 0,
    keySlot := 0, ctrStart := 0, keyIndex := 0 }

def Build.burstOf (b : Build) (p : Plan) (x : Laid) : MapBurst :=
  { kind := .data, terminal := x.what.terminal, entry := x.what.entry, start := x.span + b.d.rd .guardBytes p.t,
    cost := x.cost, ploam := x.what.ploam, grants := x.what.allocs.map fun y => b.grantOf y.1, window := none,
    ended := false, orphan := false }

/-- Reports asked of allocations whose grant was trimmed away are missed (R91). -/
def Build.missTrimmed (b : Build) : Dev :=
  b.d.each ((b.adds.map (·.alloc)).dedup.filter fun a => b.size a == 0) fun d a =>
    if d.on .allocReport a || b.polled.contains a then d.missReport a else d

/-- Steps 1 to 8 for map (sfc, p) of tree `t` at tick `n`; `late` says that the credit has not arrived. -/
def Dev.buildMap (d : Dev) (n t sfc : Nat) (pt : MapPoint) (late : Bool) : Dev :=
  let p := d.plan n t sfc pt
  let b : Build := { d := d.mapSnapshot p }
  let b := (((b.step3 p).step4 p).step5 p).step6 p
  let (budget, b) := b.budget p late
  let (rest, b) := b.tier p 2 budget
  let (_, b) := b.tier p 3 rest
  let b := b.trim p (trimOrder b.adds)
  let z := b.lay p
  let d := (b.missTrimmed.add .splitBursts t z.2.2)
  let wanted := p.specials.filter fun x => x.kind == .ranging
  let d := d.each wanted fun d x => d.modTerm (t * 512 + x.terminal) fun y =>
    if y.eqdSent.isSome then y else { y with tryFrame := sfc }
  d.modTree t fun x => { x with
    rangeWanted := x.rangeWanted.filter fun g => !wanted.any fun y => y.terminal == g % 512,
    building := some {
      sfc := sfc, point := pt, empty := false, bursts := p.specials ++ z.1.map (b.burstOf p), late := [],
      idle := idleSlots (d.upRate t) p.line (p.blocked ++ z.1.map fun x => (x.span, x.span + x.cost)) } }

/-! ### Fixed points -/

/-- The superframe count and map point that are built in a fixed point's period (R19, R26). -/
def Dev.nextMap (d : Dev) : MapPoint → Nat × MapPoint
  | .frame => (d.rd .superframe 0 + 1, .frame)
  | .sub k => if k = 7 then (d.rd .superframe 0 + 1, .sub 0) else (d.rd .superframe 0, .sub (k + 1))

/-- The trees whose maps a fixed point is about: sub-maps in LATENCY quads, whole maps in the others. -/
def Dev.treesAt (d : Dev) (p : MapPoint) : List Nat :=
  allTrees.filter fun t => d.latency t == (p != .frame)

/-- A fixed point: at `frame` ticks into the frame, or `sub` into the sub-period (R19, R26). -/
def atPoint (p : MapPoint) (frame sub : Nat) (s : State) (f : Nat → Dev → Dev) : Host.Outcome State Fault Refusal :=
  match p with
  | .frame => .next (s.at_ (s.dev.rd .frameTick 0 + frame) f)
  | .sub k => onElement k 8 s fun s => s.at_ (s.dev.pointStart (.sub k) + sub) f

/-! ### The credit (R103, R105) -/

/-- Port rate times 250 us in bytes, or 0 (R105). -/
def Dev.drainEst (d : Dev) (n p : Nat) : Nat :=
  if d.portUp p && (d.port p).hold.isNone && !((d.port p).pausedAt.isSome && decide (n < (d.port p).pauseUntil)) then
    3125000 * d.lanesPerPort
  else 0

/-- Descriptors queued for port `p`. -/
def Dev.portDescs (d : Dev) (p : Nat) : List Desc :=
  ((List.range 8).map fun q => (d.queue (upQueue p q)).filterMap d.desc).flatten

/-- K_t of R103. Mirror copies of a tree's frames are left out of Q_t and Q_t,p and counted in Q_p (DESIGN CHOICE, log row 103). -/
def Dev.creditOf (d : Dev) (n t : Nat) : Int :=
  let up := allPorts.filter d.portUp
  let mine : Nat → List Desc := fun p =>
    (d.portDescs p).filter fun x => x.srcKind == 1 && treeOfTerm x.srcNum == t && !x.copy
  let qt := (up.map fun p => ((mine p).map fun x => (d.chainOf x).cells.length).sum).sum
  let term : Nat → Nat := fun p =>
    let all := ((d.portDescs p).map (·.length)).sum
    if all = 0 then 0 else d.drainEst n p * ((mine p).map (·.length)).sum / all / 256
  let drain := min (min qt ((up.map term).sum)) (d.rd .drainCap t)
  (d.rd .poolSize t : Int) - d.rd .poolUsed t - d.rd .drainCap t -
    ceilDiv (d.inFlight n t).2 (max 1 (d.rd .cellYield t)) + drain

/-- CREDIT_SNAPSHOT (R103, R105, R107): every tree but those in ECONOMY. A credit crosses its tree's bridge (R12): while that is
not locked it does not arrive. -/
def execCreditSnapshot (p : MapPoint) (s : State) : Host.Outcome State Fault Refusal :=
  atPoint p 38880 1944 s fun n d =>
    let d := (d.settleSends n).each allPorts fun d q => d.wr .drainEst q (d.drainEst n q)
    d.each ((d.treesAt p).filter fun t => d.treeProfile t != 3) fun d t =>
      let k := d.creditOf n t
      (d.wrS .creditLast t k).modTree t fun x => { x with credit := if d.bridgeUp t then some k else none }

/-- The maps of a fixed point are built: for every tree that will carry them and whose Grant Engine is powered, unless the
former unit's map is held (R275). -/
def Dev.buildMaps (d : Dev) (n : Nat) (p : MapPoint) (late : List Nat) : Dev :=
  let m := d.nextMap p
  let mine : Nat → Bool := fun t => d.carries t m.1 && !d.gated t &&
    !(d.tree t).maps.any fun y => y.sfc == m.1 && y.point == m.2
  d.each ((d.treesAt p).filter mine) fun d t => d.buildMap n t m.1 m.2 (late.contains t)

/-- BUILD_START (R20, R25, R93); `late` are the trees whose credit has not arrived. -/
def execBuildStart (p : MapPoint) (late : List Nat) (s : State) : Host.Outcome State Fault Refusal :=
  atPoint p 46656 3888 s fun n d => d.buildMaps n p late

/-- A structure at seal, of the burst of terminal `b` that starts at `start` in map `sfc`: demand falls by its bytes, the
allocation counts as granted unless its poll was cut (R90, R92), and the bank fills KEY_SLOT, the key index and CTR_START (R102,
R117, R121). -/
def Dev.sealGrant (d : Dev) (n sfc b start : Nat) (g : Grant) : Grant × Dev :=
  let dm := d.rd .allocDemand g.alloc
  let x := d.alloc g.alloc
  let idx := (d.keyAt b sfc).elim 0 (·.index)
  ({ g with
     dec := min dm g.size, prevTick := x.grantTick, keySlot := b, keyIndex := idx,
     ctrStart := Config.counterStart sfc start idx },
   (d.wr .allocDemand g.alloc (dm - g.size)).modAlloc g.alloc fun x => { x with
     lastReport := none, grantTick := if g.cutPoll then x.grantTick else n })

def Dev.sealBurst (d : Dev) (n t sfc : Nat) (b : MapBurst) : MapBurst × Dev :=
  if b.kind = .discovery then (b, d)
  else
    let g := t * 512 + b.terminal
    let d := d.bump .burstsGranted g
    let d := if b.ploam then (d.bump .ploamGrants g).modTerm g fun x => { x with ploamAt := n } else d
    let r := b.grants.foldl (fun (acc : List Grant × Dev) x =>
      let z := acc.2.sealGrant n sfc g b.start x
      (acc.1 ++ [z.1], z.2)) ([], d)
    ({ b with
       grants := r.1, keySlot := g,
       ctrStart := Config.counterStart sfc b.start ((d.keyAt g sfc).elim 0 (·.index)) }, r.2)

/-- The keystream that the structures of a sealed map need (R22, R118), in order of expected arrival: those whose slot holds a
key at the map's count. -/
def Dev.keystreamOf (d : Dev) (t : Nat) (m : Map) : List Keystream :=
  let at_ : List (Nat × MapBurst) := ((List.range m.bursts.length).zip m.bursts).filter fun x => x.2.kind == .data
  (at_.insertionSort fun a b => a.2.start ≤ b.2.start).flatMap fun x =>
    (x.2.grants.filter fun g => decide (0 < g.size) && (d.keyAt g.keySlot m.sfc).isSome).map fun g =>
      { burst := ⟨m.sfc, m.point, x.1⟩, alloc := g.alloc, bytes := g.size, slot := g.keySlot, ctr := g.ctrStart,
        cls := if d.latency t && d.on .latBound g.alloc then 0 else 2, asked := 0, made := 0, done := [] }

/-- The map under construction on tree `t` is sealed. -/
def Dev.sealMap (d : Dev) (n t : Nat) (m : Map) : Dev :=
  let r := m.bursts.foldl (fun (acc : List MapBurst × Dev) x =>
    let z := acc.2.sealBurst n t m.sfc x
    (acc.1 ++ [z.1], z.2)) ([], d)
  let d := (r.2.bump .mapsSealed t).wr .entriesLast t ((r.1.map fun b => max 1 b.grants.length).sum)
  let m := { m with bursts := r.1 }
  (d.modTree t fun x => { x with building := none, maps := x.maps ++ [m] }).askKeystream n t (d.keystreamOf t m)

/-- MAP_SEAL (R22, R93): the map is final; the consumers take it. -/
def execMapSeal (p : MapPoint) (s : State) : Host.Outcome State Fault Refusal :=
  atPoint p 93312 11664 s fun n d =>
    d.each (d.treesAt p) fun d t =>
      match (d.tree t).building with
      | none => d
      | some m => d.sealMap n t m

/-! ### What a map says (R102) -/

/-- The records of a burst: of a data burst one for each allocation in their order; of a ranging grant one for its terminal's
default allocation; of a discovery grant one for the broadcast allocation, which has no terminal (TERMINAL 0: DESIGN CHOICE, log
row 104). Bytes of ranging and discovery are not the allocation payload's: their SIZE is 0. -/
def MapBurst.records (b : MapBurst) : List MapRecord :=
  let one : AllocName → MapRecord := fun a =>
    { terminal := b.terminal, alloc := a, start := b.start, size := 0, entry := b.entry, report := false, ploam := b.ploam,
      first := true, ranging := b.kind == .ranging, discovery := b.kind == .discovery, low := 0, added := 0,
      keySlot := b.keySlot, ctrStart := b.ctrStart }
  match b.kind with
  | .data => ((List.range b.grants.length).zip b.grants).map fun x =>
      { terminal := b.terminal, alloc := .own (x.2.alloc % 2048), start := b.start, size := x.2.size, entry := b.entry,
        report := x.2.report, ploam := b.ploam && x.1 == 0, first := x.1 == 0, ranging := false, discovery := false,
        low := x.2.size - x.2.added, added := x.2.added, keySlot := x.2.keySlot, ctrStart := x.2.ctrStart }
  | .ranging => [one .terminalDefault]
  | .discovery => [one .broadcast]

/-- The records of a map; none where there is none. -/
def mapRecords : Option Map → List MapRecord
  | some m => m.bursts.flatMap MapBurst.records
  | none => []

/-! ### Fan-out (R23, R24) -/

/-- A structure of a map that is replaced (R111): its bytes are owed again, its demand decrement is undone, step 7's tokens
return, the poll stays due. An allocation with REPORT 0 keeps D at 0 (R90). One disabled since seal is put back the same, although
its disabling cleared it (DESIGN CHOICE, log row 101). -/
def Dev.undoGrant (d : Dev) (t : Nat) (g : Grant) : Dev :=
  let a := g.alloc
  let dm := match (d.alloc a).lastReport with
    | some (bytes, r) => bytes - grantedIn (mapsAfter r (d.tree t).maps) a
    | none => if d.on .allocReport a then d.rd .allocDemand a + g.dec else 0
  let d := (d.wr .allocDemand a dm).modAlloc a fun x => { x with
    grantTick := g.prevTick,
    rate := min (x.rate + g.added * 512) (d.rd .maxBurst a * 512),
    assured := min (x.assured + g.fromAssured) (8 * d.assuredUnits a) }
  (d.add .owedBytes a (g.owed + g.fixed + g.assured)).capOwed a

/-- The map is replaced by an empty one (R23). -/
def Dev.emptyMap (d : Dev) (n t : Nat) (m : Map) : Dev :=
  let d := d.modTree t fun x => { x with maps := x.maps.map fun y =>
    if y.sfc = m.sfc ∧ y.point = m.point then { y with empty := true, bursts := [] } else y }
  let d := d.each (m.bursts.map (·.grants)).flatten fun d g => d.undoGrant t g
  let d := d.each (List.range m.bursts.length) fun d k => d.dropKeystream n t ⟨m.sfc, m.point, k⟩
  ((d.bump .mapsEmptied t).wr .entriesLast t 0).event n (8 * t + 4) t

/-- The map goes as built (R24): GRANTED_BYTES advances; each late consumer is counted. -/
def Dev.sendMap (d : Dev) (n t : Nat) (m : Map) (late : List Consumer) : Dev :=
  let d := d.each (m.bursts.map (·.grants)).flatten fun d g => d.add .grantedBytes g.alloc g.size
  let d := d.each late fun d _ => (d.bump .fanoutLate t).event n (8 * t + 4) t
  d.modTree t fun x => { x with maps := x.maps.map fun y =>
    if y.sfc = m.sfc ∧ y.point = m.point then { y with late := late } else y }

/-- The consumers of a tree's map that have not accepted it: those named, and, its bridge not locked, every one on the hub (R12). -/
def Dev.lateConsumers (d : Dev) (t : Nat) (late : List (Nat × Consumer)) : List Consumer :=
  let l := ((late.filter fun x => x.1 == t).map (·.2)).dedup
  if d.bridgeUp t then l else l ++ [Consumer.mateLink, .gnomon, .admission].filter fun c => !l.contains c

/-- FAN_OUT_DEADLINE (R23, R24): `late` are the consumers, of each tree, that have not accepted the map. -/
def execFanOutDeadline (p : MapPoint) (late : List (Nat × Consumer)) (s : State) : Host.Outcome State Fault Refusal :=
  atPoint p 101088 13608 s fun n d =>
    let key := d.nextMap p
    d.each ((d.treesAt p).filter fun t => d.carries t key.1) fun d t =>
      match (d.tree t).maps.find? fun m => m.sfc == key.1 && m.point == key.2 && !m.empty with
      | none => d
      | some m =>
        let l := d.lateConsumers t late
        if l.contains .quarry || l.contains .burstReceiver then d.emptyMap n t m else d.sendMap n t m l

end Sys2Proof.Machine
end

