-- ==== Sys2Proof/Machine/Mac.lean ====
section
/-!
DEFINITION. The MAC of the uplink ports and of the management port: frame limits (R255), capability frames (R250), PAUSE
and MAC Control (R257-R259, R262), and the receive store (R137).
-/
namespace Sys2Proof.Machine
open Sys2Proof

/-! ### PAUSE (R257-R259) -/

/-- Ticks of `q` quanta of 512 bit times at the port's rate, rounded up. -/
def Dev.quantaTicks (d : Dev) (q : Nat) : Nat := ceilDiv (q * 512 * 124416) (10000000 * d.lanesPerPort)

/-- PAUSED_US counts a port's pause up to tick `n` or its end; what is short of a us is kept for the next time (R259). -/
def Dev.countPause (d : Dev) (n p : Nat) : Dev :=
  if (d.port p).pausedAt.isNone then d
  else
    let till := min n (d.port p).pauseUntil
    let c := (till - (d.port p).countedTo) * 100 + (d.port p).pauseRest
    (d.add .pausedUs p (c / 124416)).modPort p fun x => { x with countedTo := max till x.countedTo, pauseRest := c % 124416 }

/-- A port's pause ends at tick `n`. -/
def Dev.endPause (d : Dev) (n p : Nat) : Dev :=
  (d.countPause n p).modPort p fun x => { x with pausedAt := none, pauseUntil := 0 }

/-- A pause whose timer has run out by tick `n` ended when it did. -/
def Dev.settlePause (d : Dev) (n p : Nat) : Dev :=
  if (d.port p).pausedAt.isSome && decide ((d.port p).pauseUntil ≤ n) then d.endPause (d.port p).pauseUntil p else d

/-- A port obeys PAUSE: enabled, resolved so where it auto-negotiates (R249, R257), and not after a storm (R259). -/
def Dev.obeysPause (d : Dev) (p : Nat) : Bool :=
  d.on .pauseRxEnable p && !(d.port p).stormed && (d.port p).negotiated.all (·.1)

/-- A port sends PAUSE: enabled, and resolved so where it auto-negotiates (R249, R258). -/
def Dev.sendsPause (d : Dev) (p : Nat) : Bool :=
  d.on .pauseTxEnable p && d.portUp p && (d.port p).negotiated.all (·.2)

/-- A PAUSE frame of `q` quanta is received (R257, R259). -/
def Dev.pauseReceived (d : Dev) (n p q : Nat) : Dev :=
  let d := ((d.bump .pauseRxFrames p).modPort p fun x => { x with lastPauseRx := n }).settlePause n p
  if !d.obeysPause p then d
  else if q = 0 then d.endPause n p
  else
    let t := n + d.quantaTicks q
    let d := d.countPause n p
    d.modPort p fun x => { x with
      pausedAt := some (x.pausedAt.getD n), pauseUntil := t, countedTo := if x.pausedAt.isSome then x.countedTo else n }

/-- What an access of the dictionary at tick `n` finds done: frames whose send has ended have left (R184), and pauses under way
are counted (R259). -/
def Dev.settleTimes (d : Dev) (n : Nat) : Dev :=
  let d := d.settleSends n
  d.each ((d.ports.filter fun p => p.2.pausedAt.isSome).map (·.1)) fun d p => d.countPause n p

/-- PAUSE_EXPIRY (R257). -/
def execPauseExpiry (n p : Nat) (s : State) : Host.Outcome State Fault Refusal :=
  onElement p 16 s fun s => s.at_ n fun n d => d.settlePause n p

/-- PAUSE_STORM (R259). -/
def execPauseStorm (n p : Nat) (s : State) : Host.Outcome State Fault Refusal :=
  onElement p 16 s fun s => s.at_ n fun n d =>
    let d := d.settlePause n p
    let ms := d.rd .pauseStormMs p
    match (d.port p).pausedAt with
    | some b =>
      if ms ≠ 0 ∧ b + msTicks ms ≤ n then
        let d := (d.endPause n p).modPort p fun x => { x with stormed := true }
        (d.bump .pauseStorm p).raiseLevel n { source := 304 + 4 * p + 2, index := p }
      else d
    | none => d

/-- PAUSE_STORM_END (R259). -/
def execPauseStormEnd (n p : Nat) (s : State) : Host.Outcome State Fault Refusal :=
  onElement p 16 s fun s => s.at_ n fun n d =>
    if (d.port p).stormed && decide ((d.port p).lastPauseRx + msTicks 1000 ≤ n) then
      (d.modPort p fun x => { x with stormed := false }).dropLevel (304 + 4 * p + 2)
    else d

/-- Bytes of the frames in a port's receive store (R137). -/
def Dev.storeBytes (d : Dev) (p : Nat) : Nat := ((d.port p).store.map fun (w : Waiting) => w.length).sum

/-- A PAUSE frame is sent (R258), once idle lanes have sent their bursts (R254). -/
def Dev.sendPause (d : Dev) (n p q : Nat) : Dev :=
  let (at_, d) := d.wakeLink n (.port p)
  ((d.modPort p fun x => { x with pauseSent := q != 0, pauseSentAt := at_ }).bump .pauseTxFrames p).emit (.pause p q at_)

/-- PAUSE_TX (R258): quanta 0xFFFF above 48 KiB, quanta 0 at 16 KiB. -/
def execPauseTx (n p : Nat) (s : State) : Host.Outcome State Fault Refusal :=
  onElement p 16 s fun s => s.at_ n fun n d =>
    if !d.sendsPause p then d
    else if !(d.port p).pauseSent && decide (49152 < d.storeBytes p) then d.sendPause n p 0xFFFF
    else if (d.port p).pauseSent && decide (d.storeBytes p ≤ 16384) then d.sendPause n p 0
    else d

/-- PAUSE_REPEAT (R258): half of 0xFFFF quanta after the last one. -/
def execPauseRepeat (n p : Nat) (s : State) : Host.Outcome State Fault Refusal :=
  onElement p 16 s fun s => s.at_ n fun n d =>
    if d.sendsPause p && (d.port p).pauseSent && decide (16384 < d.storeBytes p) &&
        decide ((d.port p).pauseSentAt + ceilDiv (0xFFFF * 256 * 124416) (10000000 * d.lanesPerPort) ≤ n) then
      d.sendPause n p 0xFFFF
    else d

/-! ### Frames received -/

/-- The outcome of the frame limits of R255 for a frame of `length` bytes. -/
inductive FrameLimit where
  | runt | good | fcsBad | oversize
  deriving DecidableEq, Repr

/-- R255: the order is length below 64, length above MAXLEN, FCS. -/
def frameLimit (maxlen length : Nat) (fcsGood : Bool) : FrameLimit :=
  if length < 64 then .runt
  else if maxlen < length then .oversize
  else if fcsGood then .good else .fcsBad

/-- A capability frame (R250). -/
def isCapability (b : Bytes) : Bool := numAt b 0 6 == 0x034951000001 && numAt b 12 2 == 0x88B5

/-- A port whose lanes are all in a stage. -/
def Dev.portInStage (d : Dev) (p st : Nat) : Bool :=
  decide (p < d.portCount) && (d.lanesOf p).all fun l => d.rd .laneState l == st

/-- A capability frame from the partner counts as the exchange within EXCH_MAX_MS of the start of stage 4 (R250). -/
def Dev.capabilityReceived (d : Dev) (n p : Nat) : Dev :=
  let since := (d.lane ((d.lanesOf p).headD 0)).stageAt
  if d.portInStage p 4 && !d.on .anEnable p && decide (n ≤ since + msTicks (d.rd .exchMaxMs 0)) then
    (d.wr .partnerFinuno p 1).modPort p fun x => { x with partnerCap := true }
  else d

/-- A good frame goes to its port's receive store, or is dropped whole where that is full (R137). Its stamp, `ps` after tick `n`,
resolves 10 ps (R230). -/
def Dev.storeArrived (d : Dev) (n ps p : Nat) (bytes : Bytes) : Dev :=
  let w : Waiting := {
    srcKind := 0, srcNum := p, encPort := 0, bytes := bytes, length := bytes.length + 4, stamp := n,
    rxTime := d.stampTime n (stampPs ps - d.rdS .portRxCorrPs p), at_ := n, sub := stampPs ps }
  let d := (d.bump .rxFrames p).when (ptpAt bytes).isSome fun d => d.bump .rxStamps 0
  if d.storeBytes p + w.length ≤ 65536 then d.modPort p fun x => { x with store := x.store ++ [w] }
  else d.bump .parseWaitDrop p

/-- A frame on an uplink port whose lanes carry traffic, or exchange capabilities. A device in a warm reset takes none (R341). -/
def Dev.uplinkReceive (d : Dev) (n ps p : Nat) (bytes : Bytes) (fcsGood : Bool) : Dev :=
  if d.chip.phase ≠ .up || !(d.portUp p || d.portInStage p 4) then d
  else
    match frameLimit (d.rd .maxlen 0) (bytes.length + 4) fcsGood with
    | .runt => d.bump .portRunt p
    | .oversize => d.bump .portOversize p
    | .fcsBad => d.bump .portFcsErr p
    | .good =>
      if isCapability bytes then d.capabilityReceived n p
      else if !d.portUp p then d
      else if numAt bytes 12 2 = 0x8808 then
        if numAt bytes 14 2 = 1 then d.pauseReceived n p (numAt bytes 16 2) else d.bump .macctlOther p
      else d.storeArrived n ps p bytes

/-- A frame on the management port (R255, R262, R308, R314). Until the dictionary answers it is dropped without count (R339). -/
def Dev.mgmtReceive (d : Dev) (bytes : Bytes) (fcsGood : Bool) : Dev :=
  if d.chip.phase ≠ .up ∨ d.rd .mgmtState 0 = 0 then d
  else
    match frameLimit (d.rd .maxlen 0) (bytes.length + 4) fcsGood with
    | .runt => d.bump .mgmtPortRunt 0
    | .oversize => d.bump .mgmtPortOversize 0
    | .fcsBad => d.bump .mgmtPortFcsErr 0
    | .good =>
      let dest := numAt bytes 0 6
      if numAt bytes 12 2 = 0x8808 then d
      else if numAt bytes (etypeAt bytes 2 12) 2 = d.rd .swijanEtype 0 ∧
          (dest = d.rd .mgmtMac 0 ∨ dest = 0xFFFFFFFFFFFF) then
        if d.mgmt.rxWaiting + d.mgmt.inband.length < 64 then
          { d with mgmt := { d.mgmt with rxWaiting := d.mgmt.rxWaiting + 1 } }
        else d.bump .rxQueueDrop 0
      else d.bump .mgmtOther 0

/-- MAC_FRAME_RECEIVE (R250, R255, R257, R262): `bytes` is the frame without its FCS, whose message timestamp point crossed the balls
at `n`, the fixed latencies of R230 removed. -/
def execMacFrameReceive (n : Stamp) (p : RxPort) (bytes : Bytes) (fcsGood : Bool) (s : State) :
    Host.Outcome State Fault Refusal :=
  match p with
  | .uplink p => onElement p 16 s fun s => s.at_ n.tick fun k d => d.uplinkReceive k n.ps p bytes fcsGood
  | .mgmt => .next (s.at_ n.tick fun _ d => d.mgmtReceive bytes fcsGood)

/-- MGMT_LINK_UP (R262): source 438 is the management port's link (R282). The link may come up while the device starts
(R338). -/
def execMgmtLinkUp (n : Nat) (s : State) : Host.Outcome State Fault Refusal :=
  .next (s.at_ n fun _ d =>
    match d.chip.phase with
    | .porst => d
    | .starting => d.wr .mgmtState 0 1
    | _ => (d.wr .mgmtState 0 1).dropLevel 438)

/-- MGMT_LINK_DOWN (R262). -/
def execMgmtLinkDown (n : Nat) (s : State) : Host.Outcome State Fault Refusal :=
  .next (s.at_ n fun n d =>
    match d.chip.phase with
    | .porst => d
    | .starting => d.wr .mgmtState 0 0
    | _ => (d.wr .mgmtState 0 0).raiseLevel n { source := 438 })

end Sys2Proof.Machine
end

