-- ==== Sys2Proof/Machine/Lanes.lean ====
section
/-!
DEFINITION. Lanes: bring-up (R249, R250), links going down (R251), FEC results (R252), calibration (R253), electrical idle
(R254), the eye scan (R320), and the writes of PORT_ENABLE, MATE_ENABLE, PORT_WIDTH and CTLE_SET.
-/
namespace Sys2Proof.Machine
open Sys2Proof

/-! ### A port and the mate link alike -/

def Dev.linkAllowed (d : Dev) : LinkId → Bool
  | .port p => d.portAllowed p
  | .mate => d.mateAllowed

def Dev.restartLink (d : Dev) (n : Nat) : LinkId → Dev
  | .port p => d.restartPort n p
  | .mate => d.restartMate n

def Dev.linkRetryAt (d : Dev) : LinkId → Nat
  | .port p => (d.port p).retryAt
  | .mate => d.mate.retryAt

def Dev.setRetryAt (d : Dev) (n : Nat) : LinkId → Dev
  | .port p => d.modPort p fun x => { x with retryAt := n }
  | .mate => { d with mate := { d.mate with retryAt := n } }

/-- The link fault source of a link (R282). -/
def linkSource : LinkId → Nat
  | .port p => 304 + 4 * p
  | .mate => 398

/-- The exchange of a link is made, or made in stage 1 (R250). -/
def Dev.exchanged (d : Dev) : LinkId → Bool
  | .port p => d.on .anEnable p || (d.port p).partnerCap
  | .mate => d.mate.capability

/-- A link comes up (R249). -/
def Dev.linkComesUp (d : Dev) (n : Nat) (k : LinkId) : Dev :=
  let d := d.each (d.linkLanes k) fun d l => d.setStage n 5 l
  match k with
  | .port p => d.portComesUp n p
  | .mate => d.mateComesUp n

/-- Lanes of a failed link return to stage 1 once 10 ms have passed (R250). -/
def Dev.settleRetry (d : Dev) (n : Nat) (k : LinkId) : Dev :=
  if d.linkRetryAt k ≠ 0 ∧ d.linkRetryAt k ≤ n then d.restartLink n k else d

/-- All lanes of a link are in a stage. -/
def Dev.linkInStage (d : Dev) (k : LinkId) (st : Nat) : Bool := (d.linkLanes k).all fun l => d.rd .laneState l == st

/-! ### Stages -/

/-- Trained taps replace the written ones (R244). -/
def Dev.setTaps (d : Dev) (l : Nat) (t : Int × Int × Int × Int × Int) : Dev :=
  ((((d.wrS .ffePre3 l t.1).wrS .ffePre2 l t.2.1).wrS .ffePre1 l t.2.2.1).wrS .ffeMain l t.2.2.2.1).wrS .ffePost l
    t.2.2.2.2

/-- A lane's transmitter and receiver precode, and the request goes to its partner where one is made (R243). -/
def Dev.setPrecode (d : Dev) (l : Nat) (tx rx ask : Bool) : Dev :=
  let d := d.modLane l fun x => { x with precodeTx := tx, precodeRx := rx }
  if ask then d.emit (.precodeRequest l rx) else d

/-- A lane's own part of its stage is done. -/
def Dev.laneDone (d : Dev) (l : Nat) : Dev := d.modLane l fun x => { x with done := true }

/-- Every lane of a link is in a stage with its own part of it done. -/
def Dev.allDone (d : Dev) (k : LinkId) (st : Nat) : Bool := d.linkInStage k st && (d.linkLanes k).all fun l => (d.lane l).done

/-- The lanes of a link leave TRAIN together. -/
def Dev.leaveTrain (d : Dev) (n : Nat) (k : LinkId) : Dev :=
  if d.allDone k 2 then d.each (d.linkLanes k) fun d l => d.setStage n 3 l else d

/-- A lane enters TRAIN; with TRAIN_ENABLE 0 its part of it is done at once, with the written taps and each side's own PRECODE, 0
acting as 1 (R243, R249). -/
def Dev.enterTrain (d : Dev) (n l : Nat) : Dev :=
  let d := d.setStage n 2 l
  if d.on .trainEnable l then d
  else
    let on := d.rd .precode l == 2
    (d.setPrecode l on on false).laneDone l

/-- A lane senses its partner's signal. On a port that auto-negotiates, its lowest lane does so (R249): it tells the pause resolved
and whether the partner is a Finuno one (R250); a partner without the port's type leaves it in stage 1. -/
def Dev.sense (d : Dev) (l : Nat) (k : LinkId) (r : LaneReport) : Dev :=
  match k with
  | .mate => d.laneDone l
  | .port p =>
    if !d.on .anEnable p || l != (d.lanesOf p).headD 0 then d.laneDone l
    else if !r.typeOk then d
    else
      let res := resolvePause (pauseBits (d.on .pauseRxEnable p) (d.on .pauseTxEnable p)) r.pause
      let d := (d.laneDone l).modPort p fun x => { x with negotiated := some res }
      if r.capability then d.wr .partnerFinuno p 1 else d

/-- Auto-negotiation is complete, where the link runs it. -/
def Dev.negotiationOver (d : Dev) : LinkId → Bool
  | .port p => !d.on .anEnable p || (d.port p).negotiated.isSome
  | .mate => true

/-- The lanes of a link that have sensed their partner leave DETECT once auto-negotiation is complete (R249). -/
def Dev.leaveDetect (d : Dev) (n l : Nat) (k : LinkId) (r : LaneReport) : Dev :=
  let d := d.sense l k r
  if !d.negotiationOver k then d
  else
    let ready := (d.linkLanes k).filter fun l => d.rd .laneState l == 1 && (d.lane l).done
    (d.each ready fun d l => d.enterTrain n l).leaveTrain n k

/-- A lane's training ends with its taps and its precoding agreed (R243, R244). -/
def Dev.trainLane (d : Dev) (n l : Nat) (k : LinkId) (r : LaneReport) : Dev :=
  let d := match r.taps with
    | some t => d.setTaps l t
    | none => d
  let rx := match d.rd .precode l with
    | 0 => r.precodeBetter
    | v => v == 2
  ((d.setPrecode l r.precodeAsked rx rx).laneDone l).leaveTrain n k

/-- The lanes of a link enter EXCHANGE together; the mate link sends its capability (R249, R250, R260). -/
def Dev.enterExchange (d : Dev) (n : Nat) (k : LinkId) : Dev :=
  let d := d.each (d.linkLanes k) fun d l => d.setStage n 4 l
  match k with
  | .mate => d.putMate n 4 6 fun _ => toBytes 2 (d.rd .partRevision 0) ++ toBytes 4 Config.mateFunctions
  | .port _ => d

/-- A lane's part of LOCK is done: CTLE_NOW takes the adapted peaking, or CTLE_SET in mode 1 (R245). -/
def Dev.lockLane (d : Dev) (n l : Nat) (k : LinkId) (r : LaneReport) : Dev :=
  let code := if d.rd .ctleMode l = 0 then min (r.ctle.getD (d.rd .ctleSet l)) 36 else d.rd .ctleSet l
  let d := (d.wr .ctleNow l code).laneDone l
  if d.allDone k 3 then d.enterExchange n k else d

/-- A calibrated lane begins, and its port negotiates if it is the lowest (R249). -/
def Dev.beginLane (d : Dev) (n l : Nat) : Dev :=
  let d := d.startLane n l
  match d.laneHome l with
  | .port p => if l = (d.lanesOf p).headD 0 then d.negotiate n p else d
  | .mate => d

/-- The stage condition of lane `l` is met, as `r` reports it (R249). -/
def Dev.advanceLane (d : Dev) (n l : Nat) (r : LaneReport) : Dev :=
  let k := d.laneHome l
  let d := d.settleRetry n k
  if !d.linkAllowed k || d.linkRetryAt k != 0 then d
  else match d.rd .laneState l with
    | 0 => d.beginLane n l
    | 1 => d.leaveDetect n l k r
    | 2 => d.trainLane n l k r
    | 3 => d.lockLane n l k r
    | 4 => if d.linkInStage k 4 && !r.fault && d.exchanged k then d.linkComesUp n k else d
    | _ => d

/-- LANE_STAGE_ADVANCE (R249). -/
def execLaneStageAdvance (n l : Nat) (r : LaneReport) (s : State) : Host.Outcome State Fault Refusal :=
  onElement l 20 s fun s => s.at_ n fun n d => d.advanceLane n l r

/-- Every 1 ms the lowest lane of a port in DETECT negotiates once more (R249). -/
def Dev.retryDetect (d : Dev) (n l : Nat) : Dev :=
  match d.laneHome l with
  | .port p =>
    if l = (d.lanesOf p).headD 0 ∧ d.portAllowed p = true ∧ (d.port p).triedAt + msTicks 1 ≤ n then d.negotiate n p else d
  | .mate => d

/-- DETECT_RETRY (R249, R250): a lane whose link waits out the 10 ms after a failure begins again; sensing once more changes
nothing. -/
def execDetectRetry (n l : Nat) (s : State) : Host.Outcome State Fault Refusal :=
  onElement l 20 s fun s => s.at_ n fun n d => (d.settleRetry n (d.laneHome l)).retryDetect n l

/-- The time limit of a stage in ms (R249). -/
def Dev.stageLimit (d : Dev) : Nat → Option Nat
  | 2 => some (d.rd .trainMaxMs 0)
  | 3 => some (d.rd .lanesLockMaxMs 0)
  | 4 => some (d.rd .exchMaxMs 0)
  | _ => none

/-- A lane has been in its stage for the stage's time limit. -/
def Dev.stageOver (d : Dev) (n l : Nat) : Bool :=
  match d.stageLimit (d.rd .laneState l) with
  | some ms => decide ((d.lane l).stageAt + msTicks ms ≤ n)
  | none => false

/-- LANE_STAGE_TIMEOUT (R250): in stage 4 the command says that a link fault is still present. -/
def execLaneStageTimeout (n l : Nat) (s : State) : Host.Outcome State Fault Refusal :=
  onElement l 20 s fun s => s.at_ n fun n d =>
    let k := d.laneHome l
    if d.linkAllowed k && d.linkRetryAt k == 0 && d.stageOver n l then
      let d := (d.bump .bringupFail l).wr .failStage l (d.rd .laneState l)
      (d.setRetryAt (n + msTicks 10) k).raiseLevel n
        { source := linkSource k, index := match k with | .port p => p | .mate => 0 }
    else d

/-- EXCHANGE_WAIT_END (R250): port 0-15, or 16 for the mate link. -/
def execExchangeWaitEnd (n p : Nat) (s : State) : Host.Outcome State Fault Refusal :=
  onElement p 17 s fun s => s.at_ n fun n d =>
    let k := if p < 16 then LinkId.port p else LinkId.mate
    if (p = 16 ∨ p < d.portCount) ∧ d.linkAllowed k = true ∧ d.linkRetryAt k = 0 ∧ d.linkInStage k 4 = true ∧
        d.exchanged k = false ∧ (d.linkLanes k).all (d.stageOver n) = true then d.linkComesUp n k
    else d

/-- A capability frame (R250) without its FCS: 60 bytes to the group address, from MGMT_MAC. -/
def Dev.capabilityFrame (d : Dev) : Bytes :=
  toBytes 6 0x034951000001 ++ toBytes 6 (d.rd .mgmtMac 0) ++ toBytes 2 0x88B5 ++ [0x80] ++ toBytes 2 (d.rd .partRevision 0) ++
    toBytes 4 Config.partFunctions ++ List.replicate 39 0

/-- A capability frame is due: one at the start of stage 4, and one every 1 ms (R250). -/
def Dev.capabilityDue (d : Dev) (n p : Nat) : Bool :=
  d.portAllowed p && d.portInStage p 4 && !d.on .anEnable p && (d.port p).retryAt == 0 &&
    (d.port p).capAt.all fun c => decide (c + msTicks 1 ≤ n)

/-- CAPABILITY_FRAME_SEND (R250). -/
def execCapabilityFrameSend (n p : Nat) (s : State) : Host.Outcome State Fault Refusal :=
  onElement p 16 s fun s => s.at_ n fun n d =>
    if d.capabilityDue n p then (d.modPort p fun x => { x with capAt := some n }).emit (.capability p d.capabilityFrame)
    else d

/-- LINK_DOWN (R251, R261): a link whose lanes have left stage 1. -/
def execLinkDown (n : Nat) (k : LinkId) (s : State) : Host.Outcome State Fault Refusal :=
  match k with
  | .port p =>
    onElement p 16 s fun s => s.at_ n fun n d =>
      if decide (p < d.portCount) && d.portAllowed p then d.portDown n p else d
  | .mate => .next (s.at_ n fun n d => if d.mateAllowed then d.mateDown n else d)

/-! ### FEC results (R252) -/

/-- The FEC-degrade source of a link (R282). -/
def degradeSource : LinkId → Nat
  | .port p => 304 + 4 * p + 1
  | .mate => 399

/-- The codewords of a lane in one second: 106.25 Gb/s in codewords of 544 symbols of 10 bits (R57, R243). -/
def laneCodewords : Nat := 106250000000 / 5440

/-- The codewords of an active mate lane count in the performance second of the mate link (R57). -/
def Dev.mateCodewords (d : Dev) (l uncorrectable : Nat) : Dev :=
  if d.rd .laneState l ≠ 5 then d
  else { d with mate := { d.mate with pm := { d.mate.pm with
    err := d.mate.pm.err || decide (0 < uncorrectable), codewords := d.mate.pm.codewords + laneCodewords,
    uncorr := d.mate.pm.uncorr + uncorrectable } } }

/-- FEC_DEGRADE_CHECK (R252): a lane's second, its corrected symbols, and its codewords as counted for its port. -/
def execFecDegradeCheck (n l symbols corrected uncorrectable : Nat) (s : State) : Host.Outcome State Fault Refusal :=
  onElement l 20 s fun s => s.at_ n fun n d =>
    let k := d.laneHome l
    let d := d.add .fecSymbols l symbols
    let d := match k with
      | .port p => (d.add .fecCorr p corrected).add .portFecUncorr p uncorrectable
      | .mate => d.mateCodewords l uncorrectable
    let bad := decide (d.rd .serDegrade l < symbols)
    let d := d.modLane l fun x => { x with degraded := bad }
    if (d.linkLanes k).any fun l => (d.lane l).degraded then
      d.raiseLevel n { source := degradeSource k, index := match k with | .port p => p | .mate => 0 }
    else d.dropLevel (degradeSource k)

/-! ### Calibration (R253) -/

/-- CALIBRATE applied (R253): a lane outside stage 5 is held in stage 0 until its own calibration ends. -/
def Dev.applyCalibrate (d : Dev) (n : Nat) : Dev :=
  (d.startOp n 6 0).each (List.range 20) fun d l =>
    let d := d.modLane l fun x => { x with calibrating := true }
    if d.rd .laneState l = 5 then d else d.setStage n 0 l

/-- CALIBRATION_DONE (R253): the first calibration after PORST_L, or one CALIBRATE asked for. -/
def execCalibrationDone (n l : Nat) (s : State) : Host.Outcome State Fault Refusal :=
  onElement l 20 s fun s => s.at_ n fun n d =>
    if d.chip.phase == .porst || ((d.lane l).calibrated && !(d.lane l).calibrating) then d
    else
      let d := d.modLane l fun x => { x with calibrated := true, calibrating := false }
      let d := if d.rd .laneState l = 0 ∧ d.linkAllowed (d.laneHome l) = true then d.beginLane n l else d
      if d.opRuns 6 && (List.range 20).all fun l => !(d.lane l).calibrating then d.endOp n else d

/-! ### Electrical idle (R254) -/

/-- Nothing is ready to be sent on a port, and nothing has been for IDLE_ENTRY_US. -/
def Dev.quiet (d : Dev) (n p : Nat) : Bool :=
  let wait := ceilDiv (d.rd .idleEntryUs 0 * 124416) 100
  ((List.range 8).all fun q => (d.queue (upQueue p q)).isEmpty) && decide ((d.port p).upAt + wait ≤ n) &&
    decide ((d.port p).sending.elim 0 (·.ends) + wait ≤ n) &&
    (d.lanesOf p).all fun l => decide ((d.lane l).exitAt.getD 0 + wait ≤ n)

/-- Nothing has been sent on the mate link for IDLE_ENTRY_US. -/
def Dev.mateQuiet (d : Dev) (n : Nat) : Bool :=
  let wait := ceilDiv (d.rd .idleEntryUs 0 * 124416) 100
  decide (d.mate.sentAt + wait ≤ n) && mateLanes.all fun l =>
    decide ((d.lane l).exitAt.getD 0 + wait ≤ n) && decide ((d.lane l).stageAt + wait ≤ n)

/-- A lane may enter electrical idle. -/
def Dev.mayIdle (d : Dev) (n l : Nat) : Bool :=
  d.rd .laneState l == 5 && !(d.lane l).idle &&
    match d.laneHome l with
    | .port p => d.on .portFastIdle p && d.on .partnerFinuno p && d.quiet n p
    | .mate => d.on .mateFastIdle 0 && d.mateQuiet n

/-- IDLE_ENTRY (R254). -/
def execIdleEntry (n l : Nat) (s : State) : Host.Outcome State Fault Refusal :=
  onElement l 20 s fun s => s.at_ n fun n d =>
    if d.mayIdle n l then (d.modLane l fun x => { x with idle := true, exitAt := none }).showIdle (d.laneHome l) else d

/-- IDLE_EXIT (R254): a training burst of 2 us, after which frames go. -/
def execIdleExit (n l : Nat) (s : State) : Host.Outcome State Fault Refusal :=
  onElement l 20 s fun s => s.at_ n fun n d =>
    if (d.lane l).idle then (d.wakeLane n l).showIdle (d.laneHome l) else d

/-! ### Writes that act on lanes -/

/-- PORT_ENABLE applied (R249, R251). -/
def Dev.applyPortEnable (d : Dev) (n p v : Nat) : Dev :=
  if d.rd .portEnable p = v then d
  else
    let d := d.wr .portEnable p v
    if p < d.portCount then (if v = 1 then d.restartPort n p else d.portDown n p) else d

/-- MATE_ENABLE applied (R249, R261). -/
def Dev.applyMateEnable (d : Dev) (n v : Nat) : Dev :=
  if d.rd .mateEnable 0 = v then d
  else
    let d := d.wr .mateEnable 0 v
    if v = 1 then d.restartMate n else d.mateDown n

/-- PORT_WIDTH applied (R195, R196, R248): no port is up. -/
def Dev.applyPortWidth (d : Dev) (n v : Nat) : Dev :=
  if d.rd .portWidth 0 = v then d
  else
    let d := d.each allPorts fun d p => if (d.port p).hold.isSome then d.endPortHold n p else d
    let d := (d.wr .portWidth 0 v).each (List.range 8) fun d a => d.refillGroup a
    let d := d.each (List.range 16) fun d l => d.setStage n 0 l
    let d := d.each (List.range d.portCount) fun d p => d.restartPort n p
    d.each allPorts fun d p => if d.portCount ≤ p then d.dropLevel (304 + 4 * p) else d

/-- CTLE_SET applied (R245): a fixed lane uses it as written. -/
def Dev.applyCtleSet (d : Dev) (l v : Nat) : Dev :=
  let d := d.wr .ctleSet l v
  if d.rd .ctleMode l = 1 ∧ 3 ≤ d.rd .laneState l then d.wr .ctleNow l v else d

/-- CTLE_MODE applied (R245). -/
def Dev.applyCtleMode (d : Dev) (l v : Nat) : Dev := (d.wr .ctleMode l v).applyCtleSet l (d.rd .ctleSet l)

/-- EYE_SCAN_DONE (R320): the results of a scan under way. -/
def execEyeScanDone (n l height width : Nat) (s : State) : Host.Outcome State Fault Refusal :=
  onElement l 20 s fun s => s.at_ n fun _ d =>
    if (d.lane l).scanning then
      ((d.wr .eyeHeightMv l height).wr .eyeWidthMui l width).modLane l fun x => { x with scanning := false }
    else d

end Sys2Proof.Machine
end

