-- ==== Sys2Proof/Machine/Standby.lean ====
section
/-!
DEFINITION. The redundancy function: mate frames and heartbeats received (R51, R131, R260, R268, R270, R271), roles (R265,
R276, R278, R279), take-over (R273-R276), the mirror's state (R269).
-/
namespace Sys2Proof.Machine
open Sys2Proof

def Dev.modMate (d : Dev) (f : Mate → Mate) : Dev := { d with mate := f d.mate }

/-! ### Frames kept by a standby (R275) -/

/-- The kept frames are freed. -/
def Dev.freeKept (d : Dev) (n : Nat) : Dev :=
  let l := d.mate.kept
  (d.modMate fun m => { m with keeping := false, kept := [] }).each l fun d w => d.freeDesc n w.1

/-- The kept frames go to classification. -/
def Dev.forwardKept (d : Dev) (n : Nat) : Dev :=
  let l := d.mate.kept
  let d := d.freeKept n
  { d with treeWaiting := d.treeWaiting ++ l.map fun (w : Nat × Waiting) => w.2 }

/-! ### Heartbeats heard (R265, R271, R275, R276) -/

def pathBit : Path → Nat
  | .lanes => 0
  | .pins => 1

def Dev.heardAt (d : Dev) : Path → Option Nat
  | .lanes => d.mate.lanesAt
  | .pins => d.mate.pinsAt

/-- A valid heartbeat on a path: the path is live, a joining unit notes the role, kept frames are freed, a REFUSE is noted. -/
def Dev.beatHeard (d : Dev) (n : Nat) (p : Path) (active refuse : Bool) : Dev :=
  let d := d.bump (match p with | .lanes => .hbRxLanes | .pins => .hbRxPins) 0
  let d := d.modMate fun m => match p with
    | .lanes => { m with lanesAt := some n }
    | .pins => { m with pinsAt := some n }
  let d := (d.wr .pathState 0 (setBit (d.rd .pathState 0) (pathBit p) true)).dropLevel (394 + pathBit p)
  let d := d.modMate fun m => { m with
    bothSilent := none,
    heardRole1 := m.heardRole1 || (m.joiningAt.isSome && active),
    heardRole0 := m.heardRole0 || (m.joiningAt.isSome && !active),
    refuseHeard := m.refuseHeard || (m.relinquishing.isSome && refuse) }
  if d.rd .unitRole 0 = 2 then d.freeKept n else d

/-! ### The tick difference (R240) -/

/-- The mean of the last 64 measurements, in 1/256 tick, to the nearest. -/
def meanDelta (l : List Int) : Int := if l.isEmpty then 0 else nearest ((l.sum : Rat) / (l.length : Rat))

/-- Δ in whole ticks. -/
def Dev.deltaTicks (d : Dev) : Int := nearest ((toSigned 64 (d.rd .mateDelta 0) : Rat) / 256)

/-- A tick of the active unit as a tick of this one. -/
def Dev.translate (d : Dev) (tick : Nat) : Nat := ((tick : Int) + d.deltaTicks).toNat

/-- A lane heartbeat sent at tick `tx` and received at `n` measures Δ and the link delay, each filtered over 64 heartbeats; half of
MATE_ASYM_PS corrects Δ. A drift of more than one tick since the entry to following is source 393. -/
def Dev.measureDelta (d : Dev) (n tx : Nat) : Dev :=
  let asym : Int := nearest ((d.rdS .mateAsymPs 0 : Rat) * 256 * 124416 / 200000000)
  let delay : Int := Config.mateDelay d.free
  let d := { d with free := d.free + 1 }
  let raw : Int := 256 * ((n : Int) - tx) - delay - asym
  let l := (raw :: d.mate.deltas).take 64
  let delays := (delay :: d.mate.delays).take 64
  let mean := meanDelta l
  let d := (d.modMate fun m => { m with deltas := l, delays := delays }).wr .mateDelta 0 (ofSigned 64 mean)
  let d := d.wr .mateLinkPs 0 ((meanDelta delays).toNat * 100000000 / 124416 / 256)
  match d.mate.deltaRef with
  | some r => if 256 < (mean - r).natAbs then d.raiseLevel n { source := 393 } else d.dropLevel 393
  | none => d

/-- On entry to following the frame start is set to the active unit's plus Δ and the superframe count to its own; two
heartbeats in a row tell which of them left at a frame start (R240, R270). -/
def Dev.alignFrames (d : Dev) (sfc tx : Nat) : Dev :=
  if d.rd .unitRole 0 ≠ 2 ∨ d.rd .timeState 0 ≠ 3 ∨ d.mate.aligned = true then d
  else
    let start := match d.mate.lastBeat with
      | some (s0, t0) => if sfc = s0 then some t0 else if sfc = s0 + 1 then some tx else none
      | none => none
    match start with
    | some c =>
      let d := (d.wr .frameTick 0 (d.translate c)).wr .superframe 0 sfc
      d.modMate fun m => { m with aligned := true, deltaRef := some (toSigned 64 (d.rd .mateDelta 0)) }
    | none => d

/-! ### Acknowledgement (R268, R269) -/

/-- DSEQ of a durable record; a map has none. -/
def mirrorDseq : MirrorRecord → Nat
  | .objectWrite k .. => k
  | .windowWrite k .. => k
  | .commit k => k
  | .profile k .. => k
  | .terminal k .. => k
  | .staticAddress k .. => k
  | .pathLatency k .. => k
  | .rate k .. => k
  | .step k .. => k
  | .keyRetired k _ => k
  | .keySlot k .. => k
  | .model k .. => k
  | .map .. => 0

/-- Sequence number `k` does not lie after `ack`; DSEQ runs modulo 2^32. -/
def dseqUpTo (ack k : Nat) : Bool := decide ((ack + 2 ^ 32 - k % 2 ^ 32) % 2 ^ 32 < 2 ^ 31)

/-- The standby has everything up to `ack`: an active unit whose oldest record is young again reads synced, once a resync has
been acknowledged whole. -/
def Dev.takeAck (d : Dev) (n ack : Nat) : Dev :=
  if d.rd .unitRole 0 ≠ 1 then d
  else
    let rest := d.mate.unacked.filter fun (r : Nat × MirrorRecord) => !dseqUpTo ack (mirrorDseq r.2)
    let d := d.modMate fun m => { m with unacked := rest }
    if d.rd .mirrorState 0 = 1 ∧ rest ≠ [] then d
    else if rest.all fun r => decide (n ≤ r.1 + msTicks (d.rd .mirrorStaleMs 0)) then d.wr .mirrorState 0 2 else d

/-- A standby that acknowledges 0 after something else, or is heard for the first time, resyncs: the stream is due (R269; DESIGN
CHOICE, log row 73). -/
def Dev.noteAck (d : Dev) (ack : Nat) : Dev :=
  if d.rd .unitRole 0 ≠ 1 then d
  else d.modMate fun m => { m with
    ackHeard := some ack, streamDue := m.streamDue || m.ackHeard.isNone || (ack == 0 && m.ackHeard != some 0) }

/-! ### Relinquish, on both sides (R276, R280) -/

/-- Condition 3 of R274: eligible and synced. -/
def Dev.mayTakeOver (d : Dev) : Bool := d.isEligible && d.rd .mirrorState 0 == 2

/-- A relinquish naming frame `k` reaches a standby: it accepts, the earlier count applying, or answers REFUSE on both
paths. -/
def Dev.relinquishHeard (d : Dev) (n : Nat) (p : Path) (k : Nat) : Dev :=
  if d.rd .unitRole 0 ≠ 2 then d
  else if d.mayTakeOver then
    d.modMate fun m => { m with takeSfc := match m.takeSfc with
      | some (k0, p0) => if k < k0 then some (k, p) else some (k0, p0)
      | none => some (k, p) }
  else d.sendHeartbeat n true

/-- A REFUSE answer takes effect: the unit stays ACTIVE; ROLE_CMD 1 answers DENIED; for an S3 fault every uplink is taken
down. -/
def Dev.refuse (d : Dev) (n : Nat) : Dev :=
  if d.mate.relinquishing.isNone || !d.mate.refuseHeard then d
  else
    let d := d.raise n { source := 400 }
    let d := d.answerRelinquish n 2
    let fault := d.mate.relinquishFault
    let d := d.modMate fun m => { m with
      relinquishing := none, relinquishMaster := none, relinquishFault := false, refuseHeard := false }
    if fault then d.uplinksDown n else d

/-- Every queued downstream frame goes, those of the payload pipelines too, each counted by `count`. -/
def Dev.dropDownstream (d : Dev) (n : Nat) (count : Dev → Dev) : Dev :=
  let queues := d.buf.queues.keys.filter fun q => q < 131072
  let d := d.each queues fun d q => d.flushQueue n q count
  d.each allTrees fun d t =>
    ((d.tree t).payload.foldl (fun (d : Dev) (f : DownFrame) => count (d.sampleDone f.sampled 6)) d).modTree t fun x =>
      { x with payload := [] }

/-- At TAKE_SFC the relinquishing unit gives up its role: STANDBY, or FENCED while an S3 fault persists; its queued
downstream frames go, its upstream frames drain for 10 ms. -/
def Dev.handOver (d : Dev) (n : Nat) : Dev :=
  let d := d.answerRelinquish n 0
  let d := d.dropDownstream n fun d => d.bump .swapDiscard 0
  let fenced := d.stickySevs.any fun s => decide (3 ≤ s)
  let d := d.modMate fun m => { m with
    relinquishing := none, relinquishMaster := none, relinquishFault := false, refuseHeard := false,
    drainUntil := some (n + msTicks 10) }
  if fenced then d.toFenced else d.toStandby n

/-- RELINQUISH_DRAIN_END (R276). -/
def execRelinquishDrainEnd (n : Nat) (s : State) : Host.Outcome State Fault Refusal :=
  .next (s.at_ n fun n d => match d.mate.drainUntil with
    | some t => if t ≤ n then d.modMate fun m => { m with drainUntil := none } else d
    | none => d)

/-! ### Sealed payloads (R131) -/

/-- A sealed payload is opened: `clear` bytes stand before the encrypted span, and `aad` is the additional data. The counter
is judged first, then the tag; a frame that fails either raises the mate-integrity fault. -/
def Dev.unseal (d : Dev) (n clear : Nat) (aad payload : Bytes) : Option Bytes × Dev :=
  let nonce := ofBytes (payload.take 12)
  let salt := nonce / 2 ^ 64
  let ctr := nonce % 2 ^ 64
  let d := d.gcmJob n (payload.length - clear)
  if ctr < Tab.get 0 d.mate.accepted salt then (none, (d.bump .mateReplay 0).raise n { source := 392 })
  else
    match (d.mateKey.bind fun k => Config.gcmOpen k nonce aad (payload.drop clear)) with
    | none => (none, (d.bump .mateTagFail 0).raise n { source := 392 })
    | some plain => (some plain, d.modMate fun m => { m with accepted := Tab.set 0 m.accepted salt (ctr + 1) })

/-- A lane heartbeat (R270): `b` are the bytes from TX_TICK to ACTIVE_SINCE. -/
def Dev.laneBeat (d : Dev) (n : Nat) (b : Bytes) : Dev :=
  let flags := byteAt b 20
  let active := flags % 2 == 1
  let since := numAt b 32 8
  let d := d.beatHeard n .lanes active (bitAt flags 2)
  let d := d.measureDelta n (numAt b 0 8)
  let d := if active then d.alignFrames (numAt b 8 8) (numAt b 0 8) else (d.noteAck (numAt b 24 4)).takeAck n (numAt b 24 4)
  d.modMate fun m => { m with
    lastBeat := some (numAt b 8 8, numAt b 0 8),
    peerActive := if active then some (since, ofBool (bitAt flags 3), d.rd .superframe 0) else none }

/-- Every part of the mirror set of frame `sfc` has come. -/
def Dev.mirrorWhole (d : Dev) (sfc : Nat) : Bool :=
  d.mate.partsOf == sfc && match d.mate.lastPart with
    | some k => (List.range (k + 1)).all fun i => d.mate.parts.any fun p => p.1 == i
    | none => false

/-- The records of a mirror set (R268): KIND, a reserved byte, the content length, DSEQ, content. -/
def parseRecords : Nat → Bytes → List MirrorRecord
  | 0, _ => []
  | fuel + 1, b =>
    if b.length < 8 then []
    else
      let len := numAt b 2 2
      (Config.recordOf (byteAt b 0) (numAt b 4 4) ((b.drop 8).take len)).toList ++ parseRecords fuel (b.drop (8 + len))

/-- The bytes of the parts of the set, in their order. -/
def Mate.setBytes (m : Mate) : Bytes :=
  ((List.range (m.lastPart.getD 0 + 1)).map fun i => (m.parts.find? fun p => p.1 == i).elim [] (·.2)).flatten

/-- A part of a mirror set (R268): the parts of the set of frame `sfc` that have come; with the last of them its records have. -/
def Dev.mirrorPart (d : Dev) (n sfc part : Nat) (records : Bytes) : Dev :=
  let old := if d.mate.partsOf = sfc then d.mate.parts else []
  let last := if d.mate.partsOf = sfc then d.mate.lastPart else none
  let k := part % 2 ^ 15
  let d := d.modMate fun m => { m with
    partsOf := sfc, parts := (old.filter fun p => p.1 != k) ++ [(k, records)], lastPart := if 2 ^ 15 ≤ part then some k else last }
  if d.mirrorWhole sfc then
    d.modMate fun m => { m with wholeAt := n, arrived := parseRecords (m.setBytes.length + 1) m.setBytes }
  else d

/-- A mirror gap for frame `sfc` (R268, R272): counted, and its map is lost. -/
def Dev.markGap (d : Dev) (sfc : Nat) : Dev :=
  let d := (d.bump .mirrorGaps 0).modMate fun m => { m with gaps := (sfc :: m.gaps.filter (· != sfc)).take 16 }
  d.each allTrees fun d t => d.modTree t fun x => { x with maps := x.maps.filter fun m => m.sfc != sfc }

/-- At the frame start of `sfc` a standby that lacks a part marks a mirror gap, unless a dropped frame has marked it. -/
def Dev.mirrorCheck (d : Dev) (sfc : Nat) : Dev :=
  if d.rd .unitRole 0 ≠ 2 ∨ d.mirrorWhole sfc = true ∨ d.mate.gaps.contains sfc = true then d else d.markGap sfc

/-! ### Mate frames (R51, R260) -/

def mateLength (h : Nat) : Nat := field h 50 14
def mateType (h : Nat) : Nat := field h 46 4

/-- The check of a mate header: a LENGTH above 16,380 or a reserved TYPE is an uncorrectable header (R260). -/
def mateHeaderCheck (f : MateFrameIn) : HeaderCheck :=
  if 16380 < mateLength f.header ∨ 5 ≤ mateType f.header then .uncorrectable else f.check

/-- The content of a frame the Delineator has taken. A dropped mirror frame marks a mirror gap for the frame whose set is due, the
next one (R131). -/
def Dev.mateContent (d : Dev) (n : Nat) (f : MateFrameIn) : Dev :=
  let nonce := f.payload.take 12
  let listens := d.on .redundancyEnable 0 && d.rd .mateState 0 != 0
  match mateType f.header with
  | 1 =>
    if !listens then d
    else match d.unseal n 12 nonce f.payload with
      | (some b, d) => d.laneBeat n b
      | (none, d) => d
  | 2 =>
    if !listens || d.rd .unitRole 0 != 2 then d
    else match d.unseal n 24 (toBytes 8 f.header ++ f.payload.take 24) f.payload with
      | (some b, d) => d.mirrorPart n (numAt f.payload 12 8) (numAt f.payload 20 2) b
      | (none, d) => d.markGap (d.rd .superframe 0 + 1)
  | 3 =>
    if !listens then d
    else match d.unseal n 12 nonce f.payload with
      | (some b, d) => d.relinquishHeard n .lanes (numAt b 0 8)
      | (none, d) => d
  | 4 =>
    let since := (d.lane 16).stageAt
    if d.linkInStage .mate 4 && decide (n ≤ since + msTicks (d.rd .exchMaxMs 0)) then
      d.modMate fun m => { m with capability := true }
    else d
  | _ => d

/-- A frame is taken: counted, its sequence judged, its AIS and RDI bits noted. -/
def Dev.takeMateFrame (d : Dev) (n : Nat) (f : MateFrameIn) : Dev :=
  let seq := field f.header 24 16
  let d := d.bump .mateFramesRx 0
  let d := match d.mate.seqRx with
    | some k => if (k + 1) % 65536 = seq then d else d.bump .mateSeqGap 0
    | none => d
  let d := d.modMate fun m => { m with
    seqRx := some seq, aisBit := some (bitAt f.header 45), rdiBit := some (bitAt f.header 44) }
  d.mateContent n f

/-- The Delineator in confirm-next mode (R51, R52): in HUNT a header that fits is held; the next one confirms it or not. -/
def Dev.mateFrame (d : Dev) (n : Nat) (f : MateFrameIn) : Dev :=
  let lost : Dev → Dev := fun d => d.modMate fun m => { m with pm := { m.pm with err := true } }
  if !(d.linkInStage .mate 4 || d.rd .mateState 0 != 0) then d
  else match d.mate.hunt, d.mate.held, mateHeaderCheck f with
    | true, none, .fits => d.modMate fun m => { m with held := some f }
    | true, none, _ => d
    | true, some h, .fits =>
      let d := d.modMate fun m => { m with hunt := false, huntSince := n, held := none, lastBad := false }
      (d.takeMateFrame n h).takeMateFrame n f
    | true, some _, _ => d.modMate fun m => { m with held := none }
    | false, _, .uncorrectable =>
      if d.mate.lastBad then
        lost (d.modMate fun m => { m with hunt := true, huntSince := n, held := none, lastBad := false })
      else lost (d.modMate fun m => { m with lastBad := true })
    | false, _, _ => (d.modMate fun m => { m with lastBad := false }).takeMateFrame n f

/-- The superframe count that a relinquish on the pins names by its value mod 16: the next such count. -/
def Dev.pinTakeSfc (d : Dev) (k : Nat) : Nat :=
  let s := d.rd .superframe 0
  s + 1 + (k + 16 - (s + 1) % 16) % 16

/-- A word on the pins (R271): a wrong SYNC or CRC is source 401 and no heartbeat. -/
def Dev.pinBeat (d : Dev) (n w : Nat) : Dev :=
  if !d.on .redundancyEnable 0 then d
  else if field w 24 8 ≠ 0xB4 ∨ crc8 (toBytes 3 (w / 256 % 2 ^ 24)) ≠ w % 256 then
    (d.bump .hbWordErr 0).raise n { source := 401 }
  else
    let kind := field w 22 2
    if kind = 3 then d
    else
      let d := d.beatHeard n .pins (bitAt w 21) (kind == 2)
      if kind = 1 then d.relinquishHeard n .pins (d.pinTakeSfc (field w 16 4)) else d

/-! ### Silence (R271, R275, R278) -/

/-- No valid heartbeat on a path for `c` ticks, in hundredths of a tick. -/
def Dev.quietFor (d : Dev) (n c100 : Nat) (p : Path) : Bool := decide (((d.heardAt p).getD 0) * 100 + c100 ≤ n * 100)

/-- HEARTBEAT_MISS (R275): both paths miss a heartbeat, one period of 62.5 us and 1 us of tolerance after the last. -/
def execHeartbeatMiss (n : Nat) (s : State) : Host.Outcome State Fault Refusal :=
  .next (s.at_ n fun n d =>
    if d.rd .unitRole 0 = 2 ∧ d.quietFor n 7900416 .lanes = true ∧ d.quietFor n 7900416 .pins = true then
      d.modMate fun m => { m with keeping := true }
    else d)

/-- PATH_SILENT (R271): no valid heartbeat for 188.5 us. When the second path falls silent, R278 begins to watch. -/
def execPathSilent (n : Nat) (p : Path) (s : State) : Host.Outcome State Fault Refusal :=
  .next (s.at_ n fun n d =>
    let source := 394 + pathBit p
    if d.on .redundancyEnable 0 && d.quietFor n 23452416 p &&
        (bitAt (d.rd .pathState 0) (pathBit p) || !(d.source source).level) then
      let d := d.wr .pathState 0 (setBit (d.rd .pathState 0) (pathBit p) false)
      let d := (d.bump .pathAlarms 0).raiseLevel n { source := source }
      let d := if p = .lanes then d.modMate fun m => { m with ackHeard := none } else d
      if d.rd .pathState 0 % 4 = 0 ∧ d.mate.bothSilent = none then
        let watched := allTrees.filter fun t => (termsOfTree t).any fun g => d.inState g 2
        d.modMate fun m => { m with bothSilent := some (n, watched) }
      else d
    else d)

/-- SELF_FENCE (R278). -/
def execSelfFence (n : Nat) (s : State) : Host.Outcome State Fault Refusal :=
  .next (s.at_ n fun n d =>
    match d.mate.bothSilent with
    | none => d
    | some (since, watched) =>
      let recent := match d.mate.tookOverAt with
        | some t => decide (n < t + msTicks 10)
        | none => false
      if d.rd .unitRole 0 = 1 ∧ d.on .selfFence 0 = true ∧ since + msTicks 5 ≤ n ∧ recent = false ∧ watched ≠ [] ∧
          (watched.all fun t => decide (d.rd .treeDefects t % 4 ≠ 0)) = true then
        d.toFenced.raise n { source := 397 }
      else d)

/-- DUAL_ACTIVE_FENCE (R279): at the frame start after the peer was heard. -/
def execDualActiveFence (n : Nat) (s : State) : Host.Outcome State Fault Refusal :=
  .next (s.at_ n fun _ d =>
    match d.mate.peerActive with
    | none => d
    | some (since, _, heard) =>
      let mine := d.mate.activeSince
      if d.rd .unitRole 0 = 1 ∧ heard < d.rd .superframe 0 ∧
          (mine < since ∨ (mine = since ∧ d.rd .unitId 0 = 1)) then d.toFenced
      else d)

/-! ### Joining and leaving (R265) -/

/-- REDUNDANCY_ENABLE applied (R265): 1 joins, 0 leaves; the caller has refused 0 to a STANDBY or FENCED unit. -/
def Dev.applyRedundancy (d : Dev) (n v : Nat) : Dev :=
  if d.rd .redundancyEnable 0 = v then d
  else
    let d := d.wr .redundancyEnable 0 v
    if v = 1 then d.modMate fun m => { m with joiningAt := some n, heardRole0 := false, heardRole1 := false }
    else
      let d := (d.takeRole 0).wr .mirrorState 0 0
      let d := ((d.wr .pathState 0 0).dropLevel 394).dropLevel 395
      d.modMate fun m => { m with
        joiningAt := none, unacked := [], peerActive := none, bothSilent := none, relinquishing := none,
        relinquishFault := false, refuseHeard := false }

/-- A unit becomes ACTIVE: it owes its mate nothing yet, so its mirror reads synced (R269). -/
def Dev.toActive (d : Dev) : Dev :=
  ((d.takeRole 1).wr .mirrorState 0 2).modMate fun m => { m with
    unacked := [], arrived := [], ackHeard := none, streamDue := false }

/-- JOIN_DECIDE (R265): 1 ms after the write. -/
def execJoinDecide (n : Nat) (s : State) : Host.Outcome State Fault Refusal :=
  .next (s.at_ n fun n d =>
    match d.mate.joiningAt with
    | none => d
    | some t =>
      if n < t + msTicks 1 then d
      else
        let one := d.mate.heardRole1
        let zero := d.mate.heardRole0
        let d := d.modMate fun m => { m with joiningAt := none }
        if one || (zero && d.rd .unitId 0 == 1) then d.toStandby n else d.toActive)

/-! ### The mirror's state (R269) -/

/-- No whole mirror set has come to a standby for MIRROR_STALE_MS, be it that its mate lanes are down (R269, R280). -/
def Dev.mirrorLate (d : Dev) (n : Nat) : Bool := decide (d.mate.wholeAt + msTicks (d.rd .mirrorStaleMs 0) < n)

/-- MIRROR_STALE (R269): an active unit judges its oldest record; a standby that finds itself stale says so, and starts a resync once
the lanes carry heartbeats. -/
def execMirrorStale (n : Nat) (s : State) : Host.Outcome State Fault Refusal :=
  .next (s.at_ n fun n d =>
    match d.rd .unitRole 0 with
    | 1 =>
      if d.mate.unacked.any fun r => decide (r.1 + msTicks (d.rd .mirrorStaleMs 0) < n) then d.wr .mirrorState 0 3 else d
    | 2 =>
      let d := if d.rd .mirrorState 0 = 2 ∧ d.mirrorLate n = true then (d.wr .mirrorState 0 3).raiseLevel n { source := 396 } else d
      if d.rd .mirrorState 0 = 3 ∧ d.rd .mateState 0 ≠ 0 ∧ bitAt (d.rd .pathState 0) 0 = true then d.startResync n else d
    | _ => d)

/-- A standby that resyncs has all that has come to it, within the 250 ms of R269. -/
def Dev.mayEndResync (d : Dev) (n : Nat) : Bool :=
  d.rd .unitRole 0 == 2 && d.rd .mirrorState 0 == 1 && d.mate.resynced && d.mate.arrived.isEmpty &&
    decide (n ≤ d.mate.resyncAt + msTicks 250)

/-- RESYNC_DONE (R269). -/
def execResyncDone (n : Nat) (s : State) : Host.Outcome State Fault Refusal :=
  .next (s.at_ n fun n d =>
    if d.mayEndResync n then ((d.wr .mirrorState 0 2).dropLevel 396).modMate fun m => { m with wholeAt := n } else d)

/-- RESYNC_FAILED (R269, R282): source 403; the mirror stays stale. -/
def execResyncFailed (n : Nat) (s : State) : Host.Outcome State Fault Refusal :=
  .next (s.at_ n fun n d =>
    if d.rd .unitRole 0 = 2 ∧ d.rd .mirrorState 0 = 1 then (d.wr .mirrorState 0 3).raise n { source := 403 } else d)

/-! ### Take-over (R273-R275, R241) -/

/-- The whole shift of a tree's arrivals in ps (R273). -/
def Dev.wholeShift (d : Dev) (t : Nat) : Rat :=
  let (psync, burst, dn, up) := (d.tree t).peer
  let rx : Rat := (d.rd .burstLatPs t + d.rd .opticsUpPs t : Nat) - (burst + up : Nat)
  let tx : Rat := (d.rd .psyncLatPs t + d.rd .opticsDnPs t : Nat) - (psync + dn : Nat)
  let s := d.legS t
  s + ((s - rx) * ((d.rd .nDn t : Rat) / (d.rd .nUp t : Rat)) + tx)

/-- EQD_ADJ in bits (R273). -/
def Dev.eqdAdj (d : Dev) (t : Nat) : Int := -nearest (d.wholeShift t / bitPs (d.upRate t))

/-- Step 3 and step 5 for a tree: its transmit disable is deasserted now, and it lights at frame `k`, in which it sends the relative
equalisation-delay message. -/
def Dev.takeTree (d : Dev) (k t : Nat) : Dev :=
  let till := k + d.rd .updateLead t
  let adj := d.eqdAdj t
  let shift := some (d.legS t, d.wholeShift t, k, till)
  let q := quadOf t
  let d := if d.mayLight t then d.wr .txdisNow q (setBit (d.rd .txdisNow q) (t % 4) false) else d
  ((d.wrS .eqdAdj t adj).modTree t fun x => { x with shift := shift, relightDue := true }).rangeMsg t
    (.eqDelayAdjust adj till)

/-- The points whose build start has passed at tick `n` and whose seal has not (R275, step 4). -/
def Dev.openPoints (d : Dev) (n : Nat) : List MapPoint :=
  let c := n - d.rd .frameTick 0
  let k := c / subTicks
  (if 46656 ≤ c ∧ c < 93312 then [MapPoint.frame] else []) ++
    (if k < 8 ∧ 3888 ≤ c % subTicks ∧ c % subTicks < 11664 then [MapPoint.sub k] else [])

/-- A profile change under way is run from step 1 (R280): the operation that this unit runs for it begins again, or one starts. -/
def Dev.restartChange (d : Dev) (n q : Nat) : Dev :=
  if (d.quad q).change = 0 then d
  else
    match d.mgmt.longOp with
    | some o =>
      if o.code = 4 ∧ o.arg % 8 = q then
        ({ d with mgmt := { d.mgmt with longOp := some { o with start := n } } }.modQuad q fun x => { x with change := 1 }).wr
          .profileState q 1
      else (d.modQuad q fun x => { x with change := 0 }).startOp n 4 (8 * d.rd .quadProfile q + q)
    | none => (d.modQuad q fun x => { x with change := 0 }).startOp n 4 (8 * d.rd .quadProfile q + q)

/-- The take-over at tick `n` for `cause`, with first frame `k`; the downstream queues start empty. -/
def Dev.takeOver (d : Dev) (n cause k : Nat) : Dev :=
  let d := ((d.toActive.bump .takeovers 0).wr .takeoverCause 0 cause).wr .takeoverSfc 0 k
  let d := (d.modMate fun m => { m with takeSfc := none, tookOverAt := some n, firstFrame := some k }).dropLevel 396
  let d := if d.rd .timeState 0 = 3 then d.wr .timeState 0 1 else d
  let d := { d with gnomon := { d.gnomon with servoAt := n } }
  let d := d.each (allTrees.filter fun t => (d.tree t).todN.isSome) fun d t =>
    (d.setTod t ((d.tree t).todN.getD 0)).bump .todGen t
  let d := ((d.sendHeartbeat n false).forwardKept n).dropDownstream n id
  let d := d.each (allTrees.filter fun t => d.on .treeEnable t) fun d t => d.takeTree k t
  let d := d.each (List.range 8) fun d q => d.restartChange n q
  d.each (d.openPoints n) fun d p => d.buildMaps n p []

/-- The first frame start at or after tick `c`, as a superframe count. -/
def Dev.frameAt (d : Dev) (c : Nat) : Nat := d.rd .superframe 0 + ceilDiv (c - d.rd .frameTick 0) frameTicks

/-- TAKEOVER (R274, R275, R276). -/
def execTakeover (n : Nat) (c : TakeoverCause) (s : State) : Host.Outcome State Fault Refusal :=
  .next (s.at_ n fun n d =>
    if d.rd .unitRole 0 ≠ 2 ∨ d.mayTakeOver = false then d
    else match c with
      | .silence =>
        let placed := match d.mate.unplacedAt with
          | some t => decide (t + 311040 < n)
          | none => true
        if d.rd .pathState 0 % 4 = 0 ∧ placed = true then
          d.takeOver n 1 (d.frameAt (n + ceilDiv (d.rd .txOnUs 0 * 124416) 100))
        else d
      | .relinquish p k =>
        if d.mate.takeSfc = some (k, p) ∧ k ≤ d.rd .superframe 0 + 1 then
          d.takeOver n (2 + pathBit p) (max k (d.rd .superframe 0 + 1))
        else d)

end Sys2Proof.Machine
end

