-- ==== Sys2Proof/Machine/Resets.lean ====
section
/-!
DEFINITION. The root reference (R326, R327), power domains (R334-R336), the sideband chains (R345), start-up (R338, R339),
resets (R340-R342), bridges (R11-R13).
-/
namespace Sys2Proof.Machine
open Sys2Proof

def Dev.modChip (d : Dev) (f : Chip → Chip) : Dev := { d with chip := f d.chip }

/-! ### The root reference -/

/-- Reference input 0 (A) or 1 (B) is good. -/
def Dev.refIsGood (d : Dev) (r : Nat) : Bool := if r = 0 then d.chip.refGoodA else d.chip.refGoodB

def Dev.setRefGood (d : Dev) (r : Nat) (b : Bool) : Dev :=
  d.modChip fun c => if r = 0 then { c with refGoodA := b } else { c with refGoodB := b }

/-- The dictionary has answered since power-on: sources may be set. -/
def Dev.running (d : Dev) : Bool := d.chip.phase == .up || d.chip.phase == .warm

/-- The root PLL holds over from tick `n`. -/
def Dev.enterHoldover (d : Dev) (n : Nat) : Dev :=
  (d.wr .refState 0 2).modChip fun c => { c with holdoverAt := some (c.holdoverAt.getD n) }

/-- A reference fails its conditions: sources 425 and 426. -/
def Dev.refFails (d : Dev) (n r : Nat) : Dev :=
  let d := d.setRefGood r false
  d.when d.running fun d => d.raiseLevel n { source := 425 + r, index := r }

/-- REF_LOST (R326, R327): the selected reference. -/
def execRefLost (n : Nat) (s : State) : Host.Outcome State Fault Refusal :=
  .next (s.at_ n fun n d =>
    let d := d.refFails n (d.rd .refSelect 0)
    d.when d.running fun d => d.enterHoldover n)

/-- OTHER_REF_LOST (R326): reference `r`, which is not the selected one. -/
def execOtherRefLost (n r : Nat) (s : State) : Host.Outcome State Fault Refusal :=
  onElement r 2 s fun s => s.at_ n fun n d => if r = d.rd .refSelect 0 then d else d.refFails n r

/-- REF_GOOD (R326). -/
def execRefGood (n r : Nat) (s : State) : Host.Outcome State Fault Refusal :=
  onElement r 2 s fun s => s.at_ n fun _ d => (d.setRefGood r true).dropLevel (425 + r)

/-- REF_RELOCK (R327): the root PLL locks to good reference `r`; `residual` ticks of phase are left to slew. -/
def execRefRelock (n r : Nat) (residual : Int) (s : State) : Host.Outcome State Fault Refusal :=
  onElement r 2 s fun s => s.at_ n fun _ d =>
    if d.rd .refState 0 = 2 ∧ d.refIsGood r = true ∧ (r = d.rd .refSelect 0 ∨ d.on .refAuto 0 = true) then
      let d := if r = d.chip.lockedRef then d else d.bump .refSwitches 0
      let d := ((d.wr .refState 0 r).wr .refSelect 0 r).modChip fun c => { c with holdoverAt := none, lockedRef := r }
      { d with gnomon := { d.gnomon with residual := d.gnomon.residual + residual } }.dropLevel 427
    else d

/-- REF_HOLDOVER_FAULT (R327): more than 1 ms. -/
def execRefHoldoverFault (n : Nat) (s : State) : Host.Outcome State Fault Refusal :=
  .next (s.at_ n fun n d =>
    match d.chip.holdoverAt with
    | some t => if t + msTicks 1 < n ∧ d.running = true then d.raiseLevel n { source := 427 } else d
    | none => d)

/-- REF_SELECT written with a good reference (R327). -/
def Dev.applyRefSelect (d : Dev) (n v : Nat) : Dev :=
  if v = d.rd .refSelect 0 then d else (d.wr .refSelect 0 v).enterHoldover n

/-! ### What a reset takes away -/

/-- The followed frames end as discarded (R298). -/
def Dev.endFollowed (d : Dev) : Dev :=
  (d.sampler.followed.map fun f => f.id).foldl (fun d i => d.sampleDone (some i) 6) d

/-- Every frame in the hub goes: Shared Buffer, receive stores, classification, the engine's in-band requests. -/
def Dev.discardFrames (d : Dev) : Dev :=
  let d := d.endFollowed
  let d := d.each (List.range 35) fun d k => d.wr .poolUsed k 0
  let d := d.each (List.range 32) fun d b => d.wr .bankCellsUsed b 0
  let d := d.each (List.range 4) fun d v => d.wr .verInflight v 0
  let d := (d.wr .cellsFree 0 393216).wr .descFree 0 786432
  let d := d.each allPorts fun d p =>
    (d.when (d.port p).sending.isSome fun d => d.emit (.cut p)).modPort p fun x => { x with store := [], sending := none }
  { d with
    buf := {}, treeWaiting := [], older := [], mgmt := { d.mgmt with inband := [] },
    sched := { d.sched with deficits := [], termDeficits := [] },
    mate := { d.mate with keeping := false, kept := [] } }

/-- Dynamic addresses and the Fragment Table are flushed (R341). -/
def Dev.flushTables (d : Dev) : Dev :=
  let d := { d with frags := [], addr := { d.addr with queue := [], flushes := [] } }
  d.removeAddrs fun _ => true

/-- Captures of the engines of some sources are cleared. -/
def Dev.clearCaptures (d : Dev) (f : Nat → Bool) : Dev :=
  d.each ((Tab.keys d.faults.sources).filter f) fun d s => d.modSource s fun x => { x with capture := none }

/-- A quad's bank loses its keystream and every job, those of integrity codes and GCM and the suspended ones too, of which R33
does not speak (DESIGN CHOICE, log row 105). -/
def Dev.wipeBank (d : Dev) (q : Nat) : Dev :=
  (({ d with banks := Tab.set {} d.banks q {} }).wr .ksReady q 0).each (treesOfQuad q) fun d t =>
    d.modTree t fun x => { x with keystream := [] }

/-- Frames on their way down to some trees are lost. -/
def Dev.dropPayload (d : Dev) (ts : List Nat) : Dev :=
  d.each ts fun d t =>
    ((d.tree t).payload.foldl (fun (d : Dev) (f : DownFrame) => d.sampleDone f.sampled 6) d).modTree t fun x =>
      { x with payload := [] }

/-- Frames that the reset of some trees' dies, quads or slices cuts on their way down: counted in the hub core's domain, source
424 once (R333). -/
def Dev.flushCrossing (d : Dev) (n : Nat) (ts : List Nat) : Dev :=
  let k := (ts.map fun t => (d.tree t).payload.length).sum
  ((d.dropPayload ts).add .crossFlushes 74 k).event n 424 74

/-- Level sources whose condition holds but whose sticky bit is clear set again (R289, R341). -/
def Dev.reassert (d : Dev) (n : Nat) : Dev :=
  d.each (d.faults.sources.filterMap fun p => if p.2.level && !p.2.sticky then some p.1 else none) fun d s =>
    d.raise n { source := s }

/-- Trees relight at the first frame start after a reset or restart (R341). -/
def Dev.dueTrees (d : Dev) (ts : List Nat) : Dev := d.each ts fun d t => d.modTree t fun x => { x with relightDue := true }

/-! ### Tree, quad and die resets -/

/-- The reset of some trees begins. -/
def Dev.resetTrees (d : Dev) (n : Nat) (ts : List Nat) : Dev :=
  let d := [0, 1].foldl (fun (d : Dev) p => d.ospReset n ts p) (d.flushCrossing n ts)
  let d := d.each ts fun d t => d.darken n t true
  d.clearCaptures fun s => decide (s < 256) && ts.contains (s / 8)

/-- A reset of a larger part that covers tree `t` runs. -/
def Dev.coveredTree (d : Dev) (t : Nat) : Bool :=
  (d.quad (quadOf t)).inReset || d.chip.dieReset.contains (dieOf t) || d.chip.phase == .warm

/-- TREE_RESET (R340, R342). -/
def Dev.applyTreeReset (d : Dev) (n t : Nat) : Dev :=
  if d.coveredTree t || (d.tree t).inReset then d
  else (d.resetTrees n [t]).modTree t fun x => { x with inReset := true }

/-- QUAD_RESET. -/
def Dev.applyQuadReset (d : Dev) (n q : Nat) : Dev :=
  if (d.quad q).inReset || d.chip.dieReset.contains (q / 4) || d.chip.phase == .warm then d
  else
    let d := ((d.resetTrees n (treesOfQuad q)).wipeBank q).bump .quadResets q
    (d.clearCaptures fun s => decide (256 ≤ s) && decide (s < 288) && (s - 256) / 4 == q).modQuad q fun x =>
      { x with inReset := true }

/-- The register of a bridge's state. -/
def bridgeState (b : Nat) : Reg := if b = 0 then .bridgeAState else .bridgeBState

/-- A reset of die 0 or 1 begins: its bridge goes down with it and raises no bridge source. -/
def Dev.resetTreeDie (d : Dev) (n e : Nat) : Dev :=
  let d := d.resetTrees n (treesOfDie e)
  let d := d.each (quadsOfDie e) fun d q => d.wipeBank q
  (d.clearCaptures fun s => (dieSources e).contains s).wr (bridgeState e) 0 0

/-- A reset of the hub die begins (R341). -/
def Dev.resetHub (d : Dev) (n : Nat) : Dev :=
  let per : Nat → Nat := fun e => (d.treeWaiting.filter fun w => decide (dieOf (treeOfTerm w.srcNum) = e)).length
  let d := ((d.add .crossFlushes 72 (per 0)).add .crossFlushes 73 (per 1)).event n 424 72
  let d := (d.each allPorts fun d p => (d.settleSend n p).loseSend n p).discardFrames.flushTables
  let d := d.each allPorts fun d p => if d.portUp p then d.portDown n p else d.restartPort n p
  let d := (d.mateDown n).clearCaptures fun s => decide (304 ≤ s)
  (d.wr (bridgeState 0) 0 0).wr (bridgeState 1) 0 0

/-- DIE_RESET begins (R340). -/
def Dev.beginDie (d : Dev) (n e : Nat) : Dev :=
  if d.chip.dieReset.contains e then d
  else
    let d := (d.wr .lastReset 0 2).modChip fun c => { c with pendingReset := none, dieReset := c.dieReset ++ [e] }
    if e < 2 then d.resetTreeDie n e else d.resetHub n

/-! ### The warm reset -/

/-- Every PLOAM queue of a tree is emptied (R361); where that frees host slots, CREDIT is due (R65). -/
def Dev.emptyPloam (d : Dev) (t : Nat) : Dev :=
  d.modTree t fun x => { x with
    creditDue := x.creditDue || !x.hostMsgs.isEmpty, ranging := [], sequencer := [], hostMsgs := [], locked := [], relightDue := false, inReset := false,
    payload := [] }

/-- The redundancy function as after PORST_L; the mate link's own state stays (R341). -/
def Dev.leaveRedundancy (d : Dev) : Dev :=
  let d := ((d.takeRole 0).wr .redundancyEnable 0 0).wr .mirrorState 0 0
  let d := (((d.wr .pathState 0 0).dropLevel 394).dropLevel 395).dropLevel 396
  let d := d.each allTrees fun d t => d.wr .listenState t 0
  let m := d.mate
  { d with mate := {
    accepted := m.accepted, seqTx := m.seqTx, seqRx := m.seqRx, aisBit := m.aisBit, rdiBit := m.rdiBit, aisRun := m.aisRun,
    noAisRun := m.noAisRun, rdiRun := m.rdiRun, noRdiRun := m.noRdiRun, hunt := m.hunt, huntSince := m.huntSince,
    held := m.held, lastBad := m.lastBad, losSet := m.losSet, losClr := m.losClr, pm := m.pm, capability := m.capability,
    retryAt := m.retryAt } }

/-- WARM_RESET begins (R340, R341): everything but what the table keeps. The lanes stay in stage 5, as R341 has it, where R350
lists their pins as squelched (DEDUCED, log row 118). -/
def Dev.beginWarm (d : Dev) (n : Nat) : Dev :=
  let d := (d.each allTrees fun d t => (d.darken n t true).emptyPloam t).discardFrames.flushTables
  let d := (d.each (List.range 8) fun d q => (d.wipeBank q).modQuad q fun x => { x with inReset := false }).clearCaptures
    fun _ => true
  let d := d.each ((List.range 16).map (· + 1)) fun d k => d.closeSession k
  let d := d.leaveRedundancy
  let mgmt : Mgmt := { d.mgmt with locks := [], rxWaiting := 0, held := none, gcmWaiting := [] }
  let d := ({ d with staging := d.active, osps := [], mgmt := mgmt }).freeLease
  let d := (d.wr .lastReset 0 1).bump .warmResets 0
  let d := d.drawSalt
  (d.modChip fun c => { c with phase := .warm, pendingReset := none, dieReset := [] }).judgePins

/-! ### Resets that relinquish first (R340) -/

/-- The reset that waits begins: a warm reset (0) or a reset of die k (k + 1). -/
def Dev.proceedReset (d : Dev) (n : Nat) : Dev :=
  match d.chip.pendingReset with
  | none => d
  | some 0 => d.beginWarm n
  | some (k + 1) => d.beginDie n k

/-- A reset is commanded; it begins once its response has been sent. -/
def Dev.orderReset (d : Dev) (code : Nat) : Dev := d.modChip fun c => { c with pendingReset := some code }

/-- The response has been sent: an ACTIVE unit with a mate present first relinquishes. -/
def Dev.startPending (d : Dev) (n : Nat) : Dev :=
  if d.chip.pendingReset.isNone || d.mate.relinquishing.isSome then d
  else if d.rd .unitRole 0 = 1 ∧ d.matePresent = true then d.startRelinquish n false none
  else d.proceedReset n

/-- RELINQUISH_REFUSED (R276, R340). -/
def execRelinquishRefused (n : Nat) (s : State) : Host.Outcome State Fault Refusal :=
  .next (s.at_ n fun n d =>
    if d.mate.relinquishing.isSome && d.mate.refuseHeard then (d.refuse n).proceedReset n else d)

/-! ### Resets end -/

/-- Bridge `b` locks again. -/
def Dev.bridgeLocks (d : Dev) (b : Nat) : Dev :=
  if d.rd (bridgeState b) 0 = 2 then d else (d.wr (bridgeState b) 0 2).bump .bridgeRetrains b

/-- The die whose reset a domain's switch-on waits for (R342). -/
def domainDie (w : Nat) : Nat := if w < 7 then 0 else if w < 14 then 1 else 2

/-- The domains of `ws` whose switch-on has waited for a reset's end begin to switch on (R342). -/
def Dev.endWaits (d : Dev) (ws : List Nat) : Dev :=
  let ws := d.chip.domainOnWait.filter ws.contains
  (d.each ws fun d w => d.wr .pdState w 1).modChip fun c => { c with domainOnWait := c.domainOnWait.filter fun w => !ws.contains w }

/-- A reset ends. -/
def Dev.endReset (d : Dev) (n : Nat) : ResetScope → Dev
  | .warm =>
    if d.chip.phase = .warm then
      (((d.modChip fun c => { c with phase := .up }).endWaits (List.range 20)).dueTrees allTrees).reassert n |>.judgePins
    else d
  | .die e =>
    if d.chip.dieReset.contains e then
      let d := d.modChip fun c => { c with dieReset := c.dieReset.filter (· != e) }
      let d := if e < 2 then (d.bridgeLocks e).dueTrees (treesOfDie e)
        else d.each ([0, 1].filter fun b => !d.chip.dieReset.contains b) fun d b => d.bridgeLocks b
      (d.endWaits ((List.range 14).filter fun w => domainDie w == e)).reassert n
    else d
  | .quad q =>
    if (d.quad q).inReset then
      ((d.modQuad q fun x => { x with inReset := false }).dueTrees (treesOfQuad q)).reassert n
    else d
  | .tree t =>
    if (d.tree t).inReset then ((d.modTree t fun x => { x with inReset := false }).dueTrees [t]).reassert n else d
  | .restart t => d.endRestart n t

/-- RESET_END (R340, R341). -/
def execResetEnd (n : Nat) (r : ResetScope) (s : State) : Host.Outcome State Fault Refusal :=
  if resetPartExists r then .next (s.at_ n fun n d => d.endReset n r) else .fault .noSuchElement

/-- TREE_RELIGHT (R341). The trees that a take-over is to light wait for its first frame (R275). -/
def execTreeRelight (n t : Nat) (s : State) : Host.Outcome State Fault Refusal :=
  onElement t 32 s fun s => s.at_ n fun _ d =>
    if (d.tree t).relightDue && d.mayLight t && d.mate.firstFrame.isNone then d.lightTree t else d

/-! ### Bridges (R11-R13): BRIDGE_STATE reads 0 while a die of the bridge is in reset or PORST_L holds, 1 from a lock loss, or
the release of PORST_L, until it locks (DESIGN CHOICE, log row 106) -/

/-- The newest frame on its way down to tree `t` is lost: whether there was one. -/
def Dev.loseDown (d : Dev) (t : Nat) : Nat × Dev :=
  match (d.tree t).payload.getLast? with
  | some f =>
    if f.placed = 0 then
      (1, (d.modTree t fun x => { x with payload := x.payload.dropLast }).sampleDone f.sampled 6)
    else (0, d)
  | none => (0, d)

/-- The newest frame that has come up from tree `t` is lost: whether there was one. -/
def Dev.loseUp (d : Dev) (t : Nat) : Nat × Dev :=
  match (d.treeWaiting.filter fun w => treeOfTerm w.srcNum == t).getLast? with
  | some w => (1, { d with treeWaiting := (d.treeWaiting.reverse.erase w).reverse })
  | none => (0, d)

/-- The frames that some trees' transfers lose, one for each tree named, with their number. -/
def Dev.loseAll (d : Dev) (lose : Dev → Nat → Nat × Dev) (ts : List Nat) : Nat × Dev :=
  ts.foldl (fun acc t =>
    let r := lose acc.2 t
    (acc.1 + r.1, r.2)) (0, d)

/-- BRIDGE_LOCK_LOSS (R13): `up` and `down` name the tree of each frame in transit. Those are lost and counted at the receiving
side. The bridge trains until it locks again. -/
def execBridgeLockLoss (n b : Nat) (up down : List Nat) (s : State) : Host.Outcome State Fault Refusal :=
  onElement b 2 s fun s => s.at_ n fun n d =>
    if d.rd (bridgeState b) 0 ≠ 2 then d
    else
      let (k, d) := d.loseAll Dev.loseUp (up.filter fun t => dieOf t == b)
      let (j, d) := d.loseAll Dev.loseDown (down.filter fun t => dieOf t == b)
      let d := ((d.wr (bridgeState b) 0 1).add .crossFlushes 74 k).add .crossFlushes (72 + b) j
      let d := if k + j = 0 then d else d.event n 424 (if k = 0 then 72 + b else 74)
      d.raiseLevel n { source := 288 + 8 * b, index := b }

/-- BRIDGE_RELOCK. -/
def execBridgeRelock (n b : Nat) (s : State) : Host.Outcome State Fault Refusal :=
  onElement b 2 s fun s => s.at_ n fun _ d =>
    if d.rd (bridgeState b) 0 = 2 ∨ d.chip.phase = .porst ∨ d.chip.phase = .starting then d
    else (d.bridgeLocks b).dropLevel (288 + 8 * b)

/-! ### Power domains (R335, R336) -/

/-- The quad of a quad domain. -/
def domainQuad (w : Nat) : Option Nat :=
  if w < 4 then some w else if 7 ≤ w ∧ w < 11 then some (w - 3) else none

/-- The source that reports a domain's fault. -/
def domainSource (w : Nat) : Nat :=
  match domainQuad w with
  | some q => 256 + 4 * q + 2
  | none => match w with
    | 4 => 292 | 5 => 293 | 6 => 294 | 11 => 300 | 12 => 301 | 13 => 302
    | w => 429 + (w - 14)

/-- A quad loses its power: what is on its way to it is discarded uncounted (R333), its trees are dark, its bank is empty, its
sideband idle. -/
def Dev.quadOff (d : Dev) (n q : Nat) : Dev :=
  let d := (d.dropPayload (treesOfQuad q)).each (treesOfQuad q) fun d t => d.darken n t true
  let d := ((d.wipeBank q).setPll q 0).wr .sbState q 0
  let d := d.modQuad q fun x => { x with badRun := 0, goodRun := 0 }
  (d.dropLevel (256 + 4 * q + 3)).each (treesOfQuad q) fun d t => d.wr .signalDetect t 0

/-- A domain begins to switch on. -/
def Dev.rampDomain (d : Dev) (w : Nat) : Dev :=
  if (domainQuad w).isSome && d.chip.dieReset.contains (domainDie w) then
    d.modChip fun c => { c with domainOnWait := c.domainOnWait.filter (· != w) ++ [w] }
  else d.wr .pdState w 1

/-- PD_ENABLE applied (R336): the caller has refused what R319 and R336 refuse. -/
def Dev.applyPdEnable (d : Dev) (n w v : Nat) : Dev :=
  if d.rd .pdEnable w = v then d
  else
    let d := d.wr .pdEnable w v
    if v = 1 then d.rampDomain w
    else
      let d := (d.wr .pdState w 0).modChip fun c => { c with domainOnWait := c.domainOnWait.filter (· != w) }
      match domainQuad w with
      | some q => d.quadOff n q
      | none => d

/-- PD_ON_DONE (R336): a quad comes up as after a quad reset. -/
def execPdOnDone (n w : Nat) (s : State) : Host.Outcome State Fault Refusal :=
  onElement w 20 s fun s => s.at_ n fun _ d =>
    if d.rd .pdState w = 1 then
      let d := (d.wr .pdState w 2).bump .pdCycles w
      match domainQuad w with
      | some q => (d.setPll q 1).dueTrees (treesOfQuad q)
      | none => d
    else d

/-- POWER_DOMAIN_FAULT (R335): held off. -/
def execPowerDomainFault (n w : Nat) (s : State) : Host.Outcome State Fault Refusal :=
  onElement w 20 s fun s => s.at_ n fun n d =>
    if d.rd .pdState w = 0 ∨ d.rd .pdState w = 3 ∨ d.running = false then d
    else
      let d := d.wr .pdState w 3
      match domainQuad w with
      | some q => (d.quadOff n q).raiseLevel n { source := domainSource w, detail := 1, index := w }
      | none => d.raiseLevel n { source := domainSource w, index := w }

/-- A source of a faulted domain is cleared: its cause is gone, and the domain is switched on again (R335). -/
def Dev.recoverDomains (d : Dev) (s : Nat) : Dev :=
  d.each ((List.range 20).filter fun w => d.rd .pdState w == 3 && domainSource w == s) fun d w => (d.dropLevel s).rampDomain w

/-! ### Sideband chains (R345) -/

/-- SIDEBAND_FRAME: a quad's chain shifts `sbdi` in and its transmit-disable bits out. Before the dictionary answers and during a
warm reset its pins are high impedance (R350). -/
def execSidebandFrame (n q sbdi : Nat) (s : State) : Host.Outcome State Fault Refusal :=
  onElement q 8 s fun s => s.at_ n fun n d =>
    if d.rd .pdState (quadDomain q) ≠ 2 ∨ d.chip.phase ≠ .up then d
    else
      let d := d.emit (.sideband q (d.rd .txdisNow q % 16))
      let d := if d.rd .sbState q = 0 then d.wr .sbState q 1 else d
      if field sbdi 4 4 = 5 then
        let d := d.modQuad q fun x => { x with badRun := 0, goodRun := min 8 (x.goodRun + 1) }
        let d := if d.rd .sbState q = 2 ∧ (d.quad q).goodRun = 8 then (d.wr .sbState q 1).dropLevel (256 + 4 * q + 3) else d
        if d.rd .sbState q = 2 then d
        else d.each (List.range 4) fun d i => d.wr .signalDetect (4 * q + i) (ofBool (bitAt sbdi i))
      else
        let d := (d.bump .sbErrors q).modQuad q fun x => { x with goodRun := 0, badRun := min 3 (x.badRun + 1) }
        if (d.quad q).badRun = 3 ∧ d.rd .sbState q ≠ 2 then
          let d := (d.wr .sbState q 2).raiseLevel n { source := 256 + 4 * q + 3, index := q }
          d.each (treesOfQuad q) fun d t => d.wr .signalDetect t 0
        else d

/-! ### Power-on and start-up -/

/-- POWER_ON_RESET (R340, R341, R350): PORST_L asserted for `ns`; a shorter assertion than 1 us is ignored. What has left the
device, and the count of open values met, are the model's own and stay. -/
def execPowerOnReset (n ns : Nat) (s : State) : Host.Outcome State Fault Refusal :=
  if ns < 1000 then .next (s.at_ n fun _ d => d)
  else .next { s with now := 0, dev := { Dev.initial with wire := s.dev.wire, free := s.dev.free } }

/-- PORST_L_RELEASE (R338, R349): the straps are sampled, the bridges train. -/
def execPorstRelease (n straps : Nat) (s : State) : Host.Outcome State Fault Refusal :=
  .next (s.at_ n fun _ d =>
    if d.chip.phase = .porst then
      let x := straps % 1024
      let d := ((d.wr .straps 0 x).wr .mgmtMac 0 (0x0249510000 * 256 + x % 256)).wr .mgmtMode 0 (x / 256 % 2)
      ((d.wr .unitId 0 (x / 512)).modChip fun c => { c with phase := .starting }).each [0, 1] fun d b => d.wr (bridgeState b) 0 1
    else d)

/-- DICTIONARY_READY (R338, R339): with a good reference the device is up. -/
def execDictionaryReady (n : Nat) (s : State) : Host.Outcome State Fault Refusal :=
  .next (s.at_ n fun n d =>
    if d.chip.phase = .starting ∧ (d.chip.refGoodA || d.chip.refGoodB) = true then
      let r := if d.chip.refGoodA then 0 else 1
      let d := ((d.wr .refState 0 r).wr .refSelect 0 r).modChip fun c => { c with phase := .up, lockedRef := r }
      let d := d.each (List.range 12) fun d k => d.wr .pllLocked k 1
      let d := d.each (List.range 104) fun d c => d.wr .domainLocked c 1
      let d := ((d.wr .bridgeAState 0 2).wr .bridgeBState 0 2).drawSalt
      let d := d.each ([0, 1].filter fun r => !d.refIsGood r) fun d r => d.raiseLevel n { source := 425 + r, index := r }
      (if d.rd .mgmtState 0 = 0 then d.raiseLevel n { source := 438 } else d).collect n
    else d)

end Sys2Proof.Machine
end

