-- ==== Sys2Proof/Machine/Frame.lean ====
section
/-!
DEFINITION. The frame clock: frame start (R17-R19), header lock (R21, R42, R50), the mirror deadline (R19, R268), heartbeats
(R270), and the steps of a quad profile change (R33, R35).
-/
namespace Sys2Proof.Machine
open Sys2Proof

/-! ### Header lock (R42) -/

/-- Up to 16 messages leave a tree's queues: the Ranging Engine's, then the Sequencer's, then the host's. -/
def Tree.takePloam (x : Tree) : Tree :=
  let a := x.ranging.take 16
  let b := x.sequencer.take (16 - a.length)
  let c := x.hostMsgs.take (16 - a.length - b.length)
  { x with
    ranging := x.ranging.drop a.length, sequencer := x.sequencer.drop b.length, hostMsgs := x.hostMsgs.drop c.length,
    locked := a ++ b ++ c, creditDue := x.creditDue || !c.isEmpty }

/-- The terminals of a tree with working state that `p` selects. -/
def Dev.termsWith (d : Dev) (t : Nat) (p : Nat → Term → Bool) : List Nat :=
  d.terms.filterMap fun e => if treeOfTerm e.1 = t ∧ p e.1 e.2 = true then some e.1 else none

/-- A message fixed in the header of frame `c` has its effect on the device: a delay update names its frame (R76), an entry is
announced (R50), and an answer is awaited from a terminal being activated, or by the host from the terminal it has addressed
(R101; PRESUMED, log row 107). -/
def Dev.ploamLocked (d : Dev) (t c : Nat) : Ploam → Dev
  | .eqDelayUpdate id bits _ =>
    d.each (d.termsWith t fun g x => d.rd .onuId g == id && x.update == some (bits, none)) fun d g =>
      d.modTerm g fun x => { x with update := some (bits, some (c + d.rd .updateLead t)) }
  | .profileAnnounce e =>
    if d.on .bpValid (4 * t + e) then d.modTree t fun x => { x with announced := x.announced.filter (· != e) ++ [e] } else d
  | .assignId sn _ =>
    d.each (d.termsWith t fun g _ => d.inState g 1 && d.rd .snProvision g == sn) fun d g =>
      d.modTerm g fun x => { x with awaitPloam := true }
  | .eqDelay id _ =>
    d.each (d.termsWith t fun g _ => d.inState g 1 && d.rd .onuId g == id) fun d g =>
      d.modTerm g fun x => { x with awaitPloam := true }
  | .host false g _ => d.modTerm g fun x => { x with awaitPloam := true }
  | _ => d

/-- A message as frame `c` carries it. -/
def Ploam.inFrame (lead c : Nat) : Ploam → Ploam
  | .eqDelayUpdate id bits _ => .eqDelayUpdate id bits (c + lead)
  | m => m

/-- The disable messages still owed to quarantined terminals join the Sequencer's (R83). -/
def Dev.disableMsgs (d : Dev) (t : Nat) : Dev :=
  d.each (d.termsWith t fun _ x => decide (0 < x.disableLeft)) fun d g =>
    (d.modTerm g fun x => { x with disableLeft := x.disableLeft - 1 }).seqMsg t (.disable (d.rd .snProvision g))

/-- The PLOAM messages of the header of frame `c` are fixed at tick `n`, each with a job for its integrity code (R115, R127). -/
def Dev.lockPloam (d : Dev) (n t c : Nat) : Dev :=
  let d := (d.disableMsgs t).modTree t Tree.takePloam
  let msgs := (d.tree t).locked
  let d := d.each msgs fun d _ => d.integrityJob n t 48
  let d := d.modTree t fun x => { x with locked := msgs.map (Ploam.inFrame (d.rd .updateLead t) c) }
  d.each msgs fun d m => d.ploamLocked t c m

/-- The sealed map (c, q) of tree `t` is locked: into the header of frame `c`, or, a sub-map of a later sub-period, into the
stream at once (R26). -/
def Dev.lockMap (d : Dev) (t c : Nat) (q : MapPoint) : Dev :=
  let m := d.mapOf t ⟨c, q, 0⟩
  match q with
  | .sub (k + 1) => if (d.tree t).lit then d.emit (.subMap t c (k + 1) (mapRecords m)) else d
  | _ => d.modTree t fun x => { x with lockedMap := m }

/-- HEADER_LOCK (R19, R42): the header of the next frame, map and messages, of every tree that will carry it; in a sub-period
the sub-map of LATENCY trees (R26). -/
def execHeaderLock (p : MapPoint) (s : State) : Host.Outcome State Fault Refusal :=
  atPoint p 108864 15552 s fun n d =>
    let (c, q) := d.nextMap p
    d.each (allTrees.filter fun t => d.carries t c) fun d t =>
      let d := if d.latency t == (p != .frame) then d.lockMap t c q else d
      if p = .frame then d.lockPloam n t c else d

/-! ### Integrity of PLOAM messages (R127) -/

/-- The terminal that a message of tree `t` addresses, if one alone. -/
def Dev.addressee (d : Dev) (t : Nat) : Ploam → Option Nat
  | .eqDelay id _ => (termsOfTree t).find? fun g => d.rd .onuId g == id
  | .eqDelayUpdate id _ _ => (termsOfTree t).find? fun g => d.rd .onuId g == id
  | .deactivate id => (termsOfTree t).find? fun g => d.rd .onuId g == id
  | .powerRefusal id => (termsOfTree t).find? fun g => d.rd .onuId g == id
  | .keySwitch slot _ _ => some slot
  | .host false g _ => some g
  | _ => none

/-- The slot of the integrity keys of a message: the terminal's, in OPERATION or LOST with a current key, else the tree's
default slot. -/
def Dev.integritySlot (d : Dev) (t : Nat) (m : Ploam) : Nat :=
  match d.addressee t m with
  | some g =>
    if (d.inState g 2 || d.inState g 3) && (d.slot (16384 + g)).current.isSome then 16384 + g else 32800 + t
  | none => 32800 + t

/-- The numbers that spell a message: its kind, then its fields; of a host message its bytes before the integrity field, which is
the last 8 of 48 (PRESUMED, log row 107). -/
def Ploam.words : Ploam → List Nat
  | .assignId sn id => [1, sn, id]
  | .eqDelay id bits => [2, id, bits]
  | .eqDelayUpdate id bits sfc => [3, id, bits, sfc]
  | .eqDelayAdjust bits sfc => [4, ofSigned 64 bits, sfc]
  | .deactivate id => [5, id]
  | .disable sn => [6, sn]
  | .enable sn => [7, sn]
  | .profileAnnounce e => [8, e]
  | .profileWithdraw e => [9, e]
  | .keySwitch slot k sfc => [10, slot, k, sfc]
  | .powerRefusal id => [11, id]
  | .host _ _ payload => payload.take 40

/-- A message as the header carries it, with the integrity code that the bank has computed, which takes the place of the one the
host supplied. -/
def Dev.signPloam (d : Dev) (t : Nat) (m : Ploam) : Ploam × Nat :=
  let code := Config.integrityCode ((d.slot (d.integritySlot t m)).current.map (·.a)) m.words
  match m with
  | .host b g payload => (.host b g (payload.take 40 ++ toBytes 8 code), code)
  | m => (m, code)

/-! ### Frame start (R17) -/

/-- The way the frame start moves: one tick while a residual phase is slewed out (R18, R327). -/
def Dev.slewNow (d : Dev) : Int := d.gnomon.residual.sign

/-- The next frame start; a move of a tick is counted. -/
def Dev.nextFrame (d : Dev) : Dev :=
  let k := d.slewNow
  let start := ((d.rd .frameTick 0 + frameTicks : Nat) : Int) + k
  let d := (d.wr .frameTick 0 start.toNat).wr .superframe 0 ((d.rd .superframe 0 + 1) % 2 ^ 51)
  if k = 0 then d
  else { d.bump .frameShift 0 with gnomon := { d.gnomon with residual := d.gnomon.residual - k } }

/-- TAKE_SFC has come on a unit that relinquishes (R276): it hands over, or stays where REFUSE was heard. A reset that waited
begins (R340). -/
def Dev.relinquishAt (d : Dev) (n sfc : Nat) : Dev :=
  match d.mate.relinquishing with
  | some k =>
    if k ≤ sfc then (if d.mate.refuseHeard then d.refuse n else d.handOver n).proceedReset n else d
  | none => d

/-- A tree whose restart began stops at the frame start, and what it held goes, be it lit or dark (R67, R111, R340). -/
def Dev.stopRestarting (d : Dev) (n : Nat) : Dev :=
  d.each (allTrees.filter fun t => (d.tree t).restarting) fun d t => d.darken n t true

/-- Delay updates that name this frame take effect (R76). -/
def Dev.applyUpdates (d : Dev) (n sfc : Nat) : Dev :=
  let due := d.terms.filterMap fun e => match e.2.update with
    | some (bits, some k) => if k ≤ sfc ∧ d.rd .eqdBits e.1 ≠ bits then some (e.1, bits) else none
    | _ => none
  d.each due fun d x => (d.wr .eqdBits x.1 x.2).mirrorTerm n x.1

/-- The first frame of a take-over (R275, steps 3-5): the trees light, with the message of step 5 and the mirrored map, their own
map, or an empty one, counted. The gap ends, and the pins follow the sticky bits again (R277, R290). -/
def Dev.firstFrameAt (d : Dev) (n sfc : Nat) : Dev :=
  match d.mate.firstFrame with
  | some k =>
    if sfc < k then d
    else
      let d := d.each (allTrees.filter fun t => (d.tree t).relightDue && d.mayLight t) fun d t =>
        let late := (d.tree t).ranging.any fun m => match m with
          | .eqDelayAdjust _ _ => true
          | _ => false
        let d := if late then d.lockPloam n t sfc else d
        let m := d.mapOf t ⟨sfc, if d.latency t then .sub 0 else .frame, 0⟩
        let d := d.modTree t fun x => { x with lockedMap := m }
        (if m.isNone then d.bump .mapsEmptied t else d).lightTree t
      (d.modMate fun m => { m with firstFrame := none }).judgePins
  | none => d

/-- What waits on the bridge for a lit tree: feed and its run in frames (R53). -/
def Tree.countFeed (x : Tree) (up : Bool) : Tree :=
  if x.lit = false then { x with feed := true, feedRun := 0 }
  else if x.feed = up then { x with feedRun := x.feedRun + 1 }
  else { x with feed := up, feedRun := 1 }

/-- Maps whose bursts have long passed, and a take-over's shift past its use, go. -/
def Tree.forget (x : Tree) (sfc : Nat) : Tree :=
  { x with
    maps := x.maps.filter fun m => decide (sfc ≤ m.sfc + 16),
    shift := match x.shift with
      | some (leg, whole, k, till) => if till + 16 ≤ sfc then none else some (leg, whole, k, till)
      | none => none }

/-- Line bytes of a downstream frame (R40). -/
def Dev.frameBytes (d : Dev) (t : Nat) : Nat := if d.upRate t = 3 then 155520 else 777600

/-- What is left of the running frame's payload goes as idle frames, counted (R43, R44). -/
def Dev.fillIdle (d : Dev) (t : Nat) : Dev :=
  let k := (d.tree t).room
  if k = 0 then d else ((d.add .idleFillBytes t k).emit (.idleFill t k)).modTree t fun x => { x with room := 0 }

/-- The profile change of quad `q` is the long operation that runs. -/
def Dev.changeRuns (d : Dev) (q : Nat) : Bool :=
  match d.mgmt.longOp with
  | some o => o.code == 4 && o.arg % 8 == q && decide (o.start ≤ d.rd .frameTick 0)
  | none => false

/-- The frame in which a quad's trees stop for a profile change: they send an empty map (R33, step 1). -/
def Dev.lastFrame (d : Dev) (t : Nat) : Bool := (d.quad (quadOf t)).change == 1 && d.changeRuns (quadOf t)

/-- The header of the frame that starts at tick `n`. -/
def Dev.headerOf (d : Dev) (n sfc t : Nat) : DownHeader :=
  let x := d.tree t
  { psync := n, sfc := sfc, lineBytes := d.frameBytes t,
    map := if d.lastFrame t then [] else mapRecords x.lockedMap,
    messages := if d.lastFrame t then [] else x.locked.map (d.signPloam t) }

/-- PSync, superframe count, map and messages of the frame leave on a lit tree, and its payload begins (R17, R40-R44). Messages that
an empty header of a profile change does not carry wait for the tree to go dark (R361). -/
def Dev.sendHeader (d : Dev) (n sfc t : Nat) : Dev :=
  let lit := (d.tree t).lit
  let last := lit && d.lastFrame t
  let h := d.headerOf n sfc t
  let d := if lit then (d.fillIdle t).emit (.downstream t h) else d
  let room := if lit then Config.payloadBytes (d.upRate t == 3) h.map.length h.messages.length else 0
  d.modTree t fun x =>
    ({ x with
       locked := if last then x.locked else [], lockedMap := none, room := room, payloadBytes := room,
       burstSeenLast := x.burstSeen, burstSeen := false }.countFeed (d.bridgeUp t)).forget sfc

/-- A 125 us period ends for the AIS and RDI bits of the mate header (R53). -/
def Mate.endPeriod (m : Mate) : Mate :=
  { m with
    aisRun := if m.aisBit = some true then m.aisRun + 1 else if m.aisBit = some false then 0 else m.aisRun,
    noAisRun := if m.aisBit = some false then m.noAisRun + 1 else if m.aisBit = some true then 0 else m.noAisRun,
    rdiRun := if m.rdiBit = some true then m.rdiRun + 1 else if m.rdiBit = some false then 0 else m.rdiRun,
    noRdiRun := if m.rdiBit = some false then m.noRdiRun + 1 else if m.rdiBit = some true then 0 else m.noRdiRun,
    aisBit := none, rdiBit := none }

/-- What happens at the frame start of count `sfc`. -/
def Dev.startFrame (d : Dev) (n sfc : Nat) : Dev :=
  let d := (d.relinquishAt n sfc).stopRestarting n
  let d := (d.switchKeys sfc).applyUpdates n sfc
  let d := if d.mate.aligned then d.mirrorCheck sfc else d
  let d := (d.firstFrameAt n sfc).each allTrees fun d t => d.sendHeader n sfc t
  (d.modMate Mate.endPeriod).sendHeartbeat n false

/-- FRAME_START (R17, R19, R270). While PORST_L holds there is no frame. -/
def execFrameStart (s : State) : Host.Outcome State Fault Refusal :=
  if s.dev.chip.phase = .porst then .next s
  else
    let d := s.dev.nextFrame
    .next { s with now := max s.now (d.rd .frameTick 0), dev := d.startFrame (d.rd .frameTick 0) (d.rd .superframe 0) }

/-- HEARTBEAT_MIDFRAME (R19, R270). -/
def execHeartbeatMidframe (s : State) : Host.Outcome State Fault Refusal :=
  .next (s.at_ (s.dev.rd .frameTick 0 + 77760) fun n d => d.sendHeartbeat n false)

/-! ### The mirror deadline (R19, R267, R268) -/

/-- The maps sealed since the last deadline: map N+1, and of a LATENCY tree the eight sub-maps up to sub-map 6 of frame N. -/
def Dev.mapsDue (d : Dev) (t : Nat) : List Map :=
  let sfc := d.rd .superframe 0
  (d.tree t).maps.filter fun m => match m.point with
    | .frame => m.sfc == sfc + 1
    | .sub k => (m.sfc == sfc && decide (k ≤ 6)) || (m.sfc + 1 == sfc && k == 7)

/-- Those of them that the Mate Link has accepted (R24). -/
def Dev.mapsToMirror (d : Dev) (t : Nat) : List Map := (d.mapsDue t).filter fun m => !m.late.contains .mateLink

/-- A mirror record as the bytes of a set (R268). -/
def recordBytes (r : MirrorRecord) : Bytes :=
  let c := Config.recordContent r
  [Config.recordKind r % 256, 0] ++ toBytes 2 c.length ++ toBytes 4 (mirrorDseq r) ++ c

/-- Bytes in parts of at most `k`, one part at least. -/
def cutParts (k : Nat) : Nat → Bytes → List Bytes
  | 0, b => [b]
  | fuel + 1, b => if b.length ≤ k then [b] else b.take k :: cutParts k fuel (b.drop k)

/-- The bytes of records that a mate frame of 16,380 payload bytes holds beside NONCE, SFC, PART and TAG. -/
def partBytes : Nat := 16340

/-- The mirror set of frame `sfc` leaves at tick `n` as mate frames of TYPE 2, each sealed for itself (R128, R268). -/
def Dev.sendSet (d : Dev) (n sfc : Nat) (records : List MirrorRecord) : Dev :=
  let b := (records.map recordBytes).flatten
  let parts := cutParts partBytes b.length b
  d.each ((List.range parts.length).zip parts) fun d p =>
    let last := if p.1 + 1 = parts.length then 2 ^ 15 else 0
    d.sendSealed n 2 true (toBytes 8 sfc ++ toBytes 2 (last + p.1) ++ [0, 0]) p.2.length fun _ => p.2

/-- A sealed map of the set was late for the Mate Link (R24): it sends no set, and the standby marks a gap for the frame. Maps that a
bridge that is down does not carry are only missing from the set (DEDUCED, log row 33). -/
def Dev.mirrorTooLate (d : Dev) (t : Nat) : Bool := d.bridgeUp t && (d.mapsDue t).any fun m => m.late.contains .mateLink

/-- The records of the set: the maps, then every durable record not acknowledged. -/
def Dev.mirrorRecords (d : Dev) : List MirrorRecord :=
  (allTrees.map fun t => (d.mapsToMirror t).map fun m => MirrorRecord.map t m).flatten ++
    d.mate.unacked.map fun (r : Nat × MirrorRecord) => r.2

/-- MIRROR_DEADLINE: an ACTIVE unit sends the mirror set of frame N+1, over a mate link that is up. -/
def execMirrorDeadline (s : State) : Host.Outcome State Fault Refusal :=
  .next (s.at_ (s.dev.rd .frameTick 0 + 116640) fun n d =>
    if d.rd .unitRole 0 = 1 ∧ d.rd .mateState 0 ≠ 0 ∧ d.mateKey.isSome = true ∧ allTrees.all (fun t => !d.mirrorTooLate t) = true then
      d.sendSet n (d.rd .superframe 0 + 1) d.mirrorRecords
    else d)

/-! ### Profile changes (R33, R35) -/

/-- PROFILE_CHANGE_DARKEN (R33, step 1): at the first frame start after the write. -/
def execProfileChangeDarken (q : Nat) (s : State) : Host.Outcome State Fault Refusal :=
  onElement q 8 s fun s => s.at_ (s.dev.rd .frameTick 0) fun n d =>
    if (d.quad q).change = 1 ∧ d.changeRuns q = true then
      (d.each (treesOfQuad q) fun d t => d.darken n t true).modQuad q fun x => { x with change := 2 }
    else d

/-- The quad's domains whose frequency differs between devices `d` and `e` relock (R33, R329). -/
def Dev.relockQuad (d e : Dev) (q : Nat) : Dev :=
  e.each ((pllDomains q).filter fun c => d.domainKhzNow c != e.domainKhzNow c) fun e c => e.wr .domainLocked c 0

/-- PROFILE_CHANGE_APPLY (R33, steps 2 and 3; R35, R79): the bank discards its keystream, the new profile is in force, its clocks
relock, a slice gated in ECONOMY has its power again (R32), the entries of the trees are loaded with the profile's defaults, and
each adaptation is counted. -/
def execProfileChangeApply (n q : Nat) (s : State) : Host.Outcome State Fault Refusal :=
  onElement q 8 s fun s => s.at_ n fun _ d =>
    if (d.quad q).change = 2 then
      let e := d.relockQuad ((d.wipeBank q).modQuad q fun x => { x with change := 3 }) q
      (e.wr .slicesGated q 0).each (treesOfQuad q) fun d t =>
        (d.loadEntries t).when (d.forced t) fun d => d.bump .rateForced q
    else d

/-- PROFILE_CHANGE_COMPLETE (R33, step 4): the trees restart, the long operation ends. -/
def execProfileChangeComplete (n q : Nat) (s : State) : Host.Outcome State Fault Refusal :=
  onElement q 8 s fun s => s.at_ n fun n d =>
    if (d.quad q).change = 3 then
      let runs := d.changeRuns q
      let d := d.modQuad q fun x => { x with change := 0, formerProfile := 0 }
      let d := (d.wr .profileState q 0).bump .profileChanges q
      let d := d.each (treesOfQuad q) fun d t => d.bump .treeRestarts t
      let d := if d.rd .pdState (quadDomain q) = 2 then d.each (pllDomains q) fun d c => d.wr .domainLocked c 1 else d
      let d := d.each ((treesOfQuad q).filter d.mayLight) fun d t => d.light t
      if runs then d.endOp n else d
    else d

end Sys2Proof.Machine
end

