-- ==== Sys2Proof/Machine/Apply.lean ====
section
/-!
DEFINITION. What an accepted write does: the value stored (R9, R300), the action of each object (R301) and of each window
record (R159), and the durable record that an ACTIVE unit makes of it (R266, R267).
-/
namespace Sys2Proof.Machine
open Sys2Proof

/-! ### Values as stored: reserved bits read as zero -/

/-- The value of a write as an object keeps it. -/
def Dev.stored (d : Dev) (r : Reg) (i v : Nat) : Nat :=
  match r with
  | .inbandEnable | .lagMembers => v % 65536
  | .enableMask => v % 16
  | .mirSource => v / 2 ^ 30 * 2 ^ 30 + v % 32
  | .mgmtMac => v / 256 * 256 + d.rd .mgmtMac i % 256
  | .defaultUplink | .defaultTree => setField v 0 42 0
  | _ => if r.row.ty = .bool then v % 2 else v

/-- A window record as it is kept. -/
def maskRecord (w x : Nat) : Nat :=
  match w with
  | 0x3300 => x / 128 * 128 + x % 4
  | 0x3500 => setField (setField x 0 17 0) 32 17 0
  | 0x3501 => setField x 0 24 0
  | 0x3502 => setField (setField (setField x 0 56 0) 57 7 0) 64 42 0
  | 0x3503 => setField x 0 30 0
  | 0x3600 => setField (setField (setField (setField x 26 4 0) 44 4 0) 48 6 0) 96 96 0
  | 0x3601 => setField (setField (setField x 26 4 0) 44 4 0) 48 6 0
  | 0x3700 => setField x 0 27 0
  | 0x3701 => x % 16
  | 0x3800 => setField x 0 1 0
  | 0x3801 => setField x 0 28 0
  | 0x3803 => setField (setField x 0 112 0) 124 4 0
  | _ => x

/-! ### Actions of single objects -/

/-- A port's or terminal's first `m` queues become strict: their deficits are 0, as no strict queue has one (R202). -/
def Dev.makeStrict (d : Dev) (base m : Nat) : Dev :=
  { d with sched := { d.sched with
    deficits := d.sched.deficits.filter fun p => !(decide (base ≤ p.1) && decide (p.1 < base + m)) } }

/-- The latencies of a tree changed: mirrored (R267). -/
def Dev.mirrorLatency (d : Dev) (n t : Nat) : Dev :=
  d.durable n fun k => .pathLatency k t (d.rd .psyncLatPs t) (d.rd .burstLatPs t) (d.rd .opticsDnPs t) (d.rd .opticsUpPs t)

/-- ALLOC_ENABLE written (R111): 0 clears demand, owed bytes and buckets. -/
def Dev.setAllocEnable (d : Dev) (a v : Nat) : Dev :=
  let d := d.wr .allocEnable a v
  if v = 0 then ((d.modAlloc a fun _ => {}).wr .allocDemand a 0).wr .owedBytes a 0 else d

/-- ADDR_FLUSH (R174): the flush begins, or waits behind those under way (DESIGN CHOICE, log row 108). -/
def Dev.startAddrFlush (d : Dev) (n : Nat) (data : Bytes) : Dev :=
  let f : AddrFlush := { kind := byteAt data 0, domain := numAt data 1 2 % 4096, dest := numAt data 4 4, start := n }
  { d with addr := { d.addr with flushes := d.addr.flushes ++ [f] } }

/-- REDUNDANCY_ENABLE: leaving while a relinquish is undecided answers it with DENIED, and a reset that waits proceeds. -/
def Dev.setRedundancy (d : Dev) (n v : Nat) : Dev :=
  let d := if v = 0 ∧ d.mate.relinquishing.isSome = true then d.answerRelinquish n 2 else d
  let d := d.modMate fun m => if v = 0 then { m with relinquishMaster := none } else m
  d.applyRedundancy n v

/-- PROFILE written (R33): only a new value changes anything. -/
def Dev.setProfile (d : Dev) (n q v : Nat) : Dev :=
  if d.rd .quadProfile q = v then d else (d.startOp n 4 (8 * v + q)).durable n fun k => .profile k q v

/-- FAULT_TEST (R287, R299): source 447, with who wrote it. -/
def Dev.testFault (d : Dev) (n : Nat) (m : Master) (v : Nat) : Dev :=
  match m with
  | .session k => d.raise n { source := 447, master := 2, access := 2, session := k, index := v }
  | .serial => d.raise n { source := 447, master := 3, access := 2, index := v }

/-- The action of a write of value `v` (bytes `data`) to an object's instance, once every check has passed. -/
def Dev.applyReg (d : Dev) (n : Nat) (m : Master) (r : Reg) (i v : Nat) (data : Bytes) : Dev :=
  match r with
  -- management, chip, faults, counters
  | .snapView =>
    match m with
    | .session k => d.modSession k fun x => { x with snapView := v == 1 }
    | .serial => { d with mgmt := { d.mgmt with dspSnapView := v == 1 } }
  | .sessionClose => if v = 1 then d.closeSession i else d
  | .refSelect => d.applyRefSelect n v
  | .pdEnable => d.applyPdEnable n i v
  | .railLowMv => (d.wr .railLowMv i v).judgeRails n
  | .railHighMv => (d.wr .railHighMv i v).judgeRails n
  | .warmReset => if v = 1 then d.orderReset 0 else d
  | .dieReset => d.orderReset (v + 1)
  | .treeRestart => if v = 1 then d.startOp n 3 (2 ^ i) else d
  | .treeReset => if v = 1 then d.applyTreeReset n i else d
  | .quadReset => if v = 1 then d.applyQuadReset n i else d
  | .faultLevel => (d.wr .faultLevel 0 v).judgePins
  | .ffClear => if v = 1 then d.clearFirst else d
  | .faultTest => d.testFault n m v
  | .snapGo => d.takeSnapshot n v
  | .counterClear => d.clearCounters v
  -- profiles, trees, terminals
  | .quadProfile => d.setProfile n i v
  | .treeEnable => d.setTreeEnable n i v
  | .lineMode => d.setLineMode i v
  | .bpValid => d.setBpValid i v
  | .termCommand => d.termCommand n i v
  | .targetRtd => (d.wr .targetRtd i v).modTree i fun x => { x with targetWritten := true }
  | .ospRate => (d.modOsp i fun x => { x with held := d.ospHeld n i, at_ := n }).wr .ospRate i v
  | .allocEnable => d.setAllocEnable i v
  -- keys
  | .keyNext => d.applyKeyNext i v
  | .keyErase => if v = 1 then d.applyKeyErase n i else d
  | .loadGo => if v = 1 then d.startOp n 2 0 else d
  -- tables
  | .defaultUplink => { d with staging := { d.staging with defUplink := v } }
  | .defaultTree => { d with staging := { d.staging with defTree := v } }
  | .graphDefault => if v = 1 then d.stageGraph else d
  | .commitGo => if v = 1 then d.startOp n 1 0 else d
  | .discard => if v = 1 then d.discardStaging else d
  | .addrOp => { d with addr := { d.addr with queue := d.addr.queue ++ [.op (byteAt data 0) (numAt data 1 16)] } }
  | .addrFlush => d.startAddrFlush n data
  -- buffer and scheduling
  | .freeMode => if d.rd .freeMode 0 = v then d else d.rebuildStore v
  | .auditGo => if v = 1 then d.startOp n 5 0 else d
  | .lagMembers => d.setMembers i v
  | .treeShapeKbps => let e := d.wr .treeShapeKbps i v; e.reshape n (d.treeShaper i) (e.treeShaper i)
  | .treeShapeBurst => let e := d.wr .treeShapeBurst i v; e.reshape n (d.treeShaper i) (e.treeShaper i)
  | .portShapeKbps => let e := d.wr .portShapeKbps i v; e.reshape n (d.portShaper i) (e.portShaper i)
  | .portShapeBurst => let e := d.wr .portShapeBurst i v; e.reshape n (d.portShaper i) (e.portShaper i)
  | .hostShapeKbps => let e := d.wr .hostShapeKbps 0 v; e.reshape n d.hostShaper e.hostShaper
  | .portStrictCount => (d.wr .portStrictCount i v).makeStrict (upQueue i 0) v
  | .peakReset => if v = 1 then d.peakReset n else d
  -- time
  | .captureCmd => if v = 1 then d.captureTime n else d
  | .rateSet => d.applyRate n (numAt data 0 6) (numAt data 6 8)
  | .stepSet => d.applyStep n (byteAt data 0) (numAt data 1 12) (numAt data 13 8)
  | .servoAlive => if v = 1 then d.servo n false else d
  | .ptpTx => d.applyPtpTx n data
  | .opticsDnPs => (d.wr .opticsDnPs i v).mirrorLatency n i
  | .opticsUpPs => (d.wr .opticsUpPs i v).mirrorLatency n i
  | .rclkSrc => d.setRclkSrc n v
  -- lanes
  | .portWidth => d.applyPortWidth n v
  | .calibrate => if v = 1 then d.applyCalibrate n else d
  | .ctleMode => d.applyCtleMode i v
  | .ctleSet => d.applyCtleSet i v
  | .portEnable => d.applyPortEnable n i v
  | .mateEnable => d.applyMateEnable n v
  | .eyeScan => if v = 1 then d.modLane i fun x => { x with scanning := true } else d
  -- redundancy
  | .redundancyEnable => d.setRedundancy n v
  | .roleCmd => if v = 2 then d.toStandby n else d.startRelinquish n false (some m)
  | .resync => if v = 1 then d.startResync n else d
  | _ => d.wr r i v

/-- Writes whose mirror record is another than the write itself, or is made where the action is carried out (R267). -/
def mirroredAside (r : Reg) : Bool :=
  r == .commitGo || r == .quadProfile || r == .addrOp

/-- An accepted write: its action, and its durable record on an ACTIVE unit. -/
def Dev.writeReg (d : Dev) (n : Nat) (m : Master) (r : Reg) (i : Nat) (data : Bytes) : Dev :=
  let d := d.applyReg n m r i (d.stored r i (ofBytes data)) data
  if r.row.flags.mirrored && !mirroredAside r then
    d.durable n fun k => .objectWrite k r.row.index i r.row.sub n data
  else d

/-! ### Window records -/

/-- A record that its own content forbids (R159): a prefix too long (R162), a burst too large (R219). -/
def badRecord (w x : Nat) : Bool :=
  match w with
  | 0x3600 => decide (32 < field x 56 8)
  | 0x3601 => decide (128 < field x 56 8)
  | 0x3803 => decide (16777216 < field x 192 32) || decide (16777216 < field x 128 32)
  | _ => false

/-- A METERS record (R210): a changed ALG fills both buckets. -/
def Dev.writeMeter (d : Dev) (n r x : Nat) : Dev :=
  let old := meterCfg (d.win 0x3803 r)
  let new := meterCfg x
  let d := d.setWin 0x3803 r x
  if old.alg = new.alg then d
  else { d with sched := { d.sched with meters := Tab.insert d.sched.meters r ⟨units new.cbs, units new.pbs, n⟩ } }

/-- A QUEUE_SCHED record (R205). -/
def Dev.writeQueueSched (d : Dev) (n r x : Nat) : Dev :=
  let e := d.setWin 0x3800 r x
  e.reshape n (d.queueShaper r) (e.queueShaper r)

/-- A TERM_SCHED record (R205). -/
def Dev.writeTermSched (d : Dev) (n r x : Nat) : Dev :=
  let e := d.setWin 0x3801 r x
  let e := (e.reshape n (d.cirShaper r) (e.cirShaper r)).reshape n (d.pirShaper r) (e.pirShaper r)
  e.makeStrict (downQueue r 0) (e.strictCount r)

/-- A FAULT_SEVERITY record: a source that is enabled again while its condition holds occurs. -/
def Dev.writeSeverity (d : Dev) (n r x : Nat) : Dev :=
  let was := d.disabled r
  let d := d.setWin 0x3300 r x
  if was && !d.disabled r && (d.source r).level && !(d.source r).sticky then d.raise n { source := r } else d

/-- A FAULT_STATUS record (R289): bit 7 clears the sticky bit. -/
def Dev.writeStatus (d : Dev) (n r x : Nat) : Dev := if bitAt x 7 then (d.recoverDomains r).clearSticky n r else d

/-- The effect of an accepted record of a window that is not staged. -/
def Dev.applyRecord (d : Dev) (n w inst r x : Nat) : Dev :=
  match w with
  | 0x3300 => d.writeSeverity n r x
  | 0x3301 => d.writeStatus n r x
  | 0x3400 => d.setWin 0x3400 (inst * 1024 + r) x
  | 0x3401 => { d with mgmt := { d.mgmt with loadRecords := Tab.insert d.mgmt.loadRecords r x } }
  | 0x3800 => d.writeQueueSched n r x
  | 0x3801 => d.writeTermSched n r x
  | 0x3701 => d.writeBucket r x
  | 0x3803 => d.writeMeter n r x
  | _ => d.setWin w r x

/-- One record of a bulk write: its status, and the device. -/
def Dev.writeRecord (d : Dev) (n w inst r : Nat) (data : Bytes) : Nat × Dev :=
  let x := maskRecord w (ofBytes data)
  if badRecord w x then (4, d)
  else
    let (ok, d) := if isStaged w then d.stage w r x else (true, d.applyRecord n w inst r x)
    if !ok then (2, d)
    else if windowMirrored w then (0, d.durable n fun k => .windowWrite k w inst r n data)
    else (0, d)

end Sys2Proof.Machine
end

