-- ==== Sys2Proof/Machine/Dictionary.lean ====
section
/-!
DEFINITION. The Dictionary Engine: the checks of R303 in their order, the commands of R306, window access (R159, R160), BUSY
(R314), and the rows of the table that are one dictionary access.
-/
namespace Sys2Proof.Machine
open Sys2Proof

/-- A command (R306): opcode, INDEX, INSTANCE, SUB, DATA. -/
structure Cmd where
  op : Nat
  index : Nat
  inst : Nat
  sub : Nat
  data : Bytes
  deriving DecidableEq, Repr

/-- What a command names: an object, or a sub-index of a window (R159). -/
inductive Place where
  | reg (r : Reg)
  | lock (w : Nat)
  | data (w : Nat)
  | records (w : Nat)
  deriving DecidableEq, Repr

/-- The target at an address; none where there is no such index or sub-index (R303, step 3). -/
def placeAt (index sub : Nat) : Option Place :=
  match winRow index with
  | some _ => match sub with
    | 0 => some (.lock index)
    | 1 => some (.data index)
    | 2 => some (.records index)
    | _ => none
  | none => (Reg.ofAddr index sub).map .reg

/-- The window at an index that is one. -/
def winOf (w : Nat) : WinRow := (winRow w).getD ⟨0, 0, .ro, false, 0, .device⟩

/-- The target has the instance (step 4). -/
def Place.hasInstance : Place → Nat → Bool
  | .reg r, i => r.hasInstance i
  | .lock w, i => decide (i < (winOf w).count)
  | .data w, i => decide (i < (winOf w).count)
  | .records w, i => decide (i < (winOf w).count)

/-! ### Access rights (R301, step 5) -/

def Place.readable : Place → Bool
  | .reg r => r.row.acc == .ro || r.row.acc == .rw
  | .data _ => false
  | _ => true

def Place.writable : Place → Bool
  | .reg r => r.row.acc != .ro
  | .lock _ => true
  | _ => false

def Place.bulkWritable : Place → Bool
  | .data w => (winOf w).acc != .ro
  | _ => false

def Place.bulkReadable : Place → Bool
  | .data w => (winOf w).acc != .wo
  | _ => false

/-! ### Privilege (R302, R296, step 6) -/

/-- A group is open to OBSERVER. -/
def Dev.groupOpen (d : Dev) (g : Nat) : Bool := bitAt (d.rd .counterOpen 0) g

/-- An OBSERVER may read the target's instance: counters of open groups; METER_COUNTS is of one group. -/
def Dev.observerReads (d : Dev) (i : Nat) : Place → Bool
  | .reg r => r.row.flags.counter && d.groupOpen (r.group i)
  | .data w => (decide (0x3100 ≤ w) && decide (w < 0x3140) && d.groupOpen (w - 0x3100)) || (w == 0x3804 && d.groupOpen 58)
  | _ => false

/-- An OBSERVER may read `back` records of QUEUE_STATS from `first` on, or the first alone where no room is left: counters of open
groups each (R296). A BULK_READ that names none is closed to it. -/
def Dev.observerReadsRecords (d : Dev) (w first count back : Nat) : Bool :=
  w == 0x3805 && decide (0 < count) && (List.range (max 1 back)).all fun k => d.groupOpen (queueGroup (first + k))

def Dev.mayRead (d : Dev) (m : Master) (i : Nat) (x : Place) : Bool := decide (1 ≤ d.privOf m) || d.observerReads i x

/-- ADMIN alone writes the target. -/
def Place.adminOnly : Place → Bool
  | .reg r => r.row.flags.admin
  | .lock w => (winOf w).admin
  | .data w => (winOf w).admin
  | .records _ => false

/-- A key is written (R132). -/
def Place.isKey : Place → Bool
  | .reg r => r.row.index == 0x2401
  | .lock w => w == 0x3401
  | .data w => w == 0x3401
  | .records _ => false

/-- A write is within the master's privilege: key writes over Swijan need an authenticated session, and DSP_PRIV is the port's
own (R315). -/
def Dev.mayWrite (d : Dev) (m : Master) (x : Place) : Bool :=
  let p := d.privOf m
  (if x = .reg .snapView ∨ x = .reg .snapGo then true else if x.adminOnly then p == 2 else decide (1 ≤ p)) &&
    (!x.isKey || d.mayWriteKeys m) && !(x == .reg .dspPriv && m != .serial)

/-- Another master's lease refuses the write (R313, step 7); the lease object is exempt. -/
def Dev.leaseRefuses (d : Dev) (m : Master) (index : Nat) : Bool := index != 0x1110 && d.leasedAway m

/-! ### Values (R300, steps 8 and 9) -/

/-- A value within its stated range. -/
def Chk.allows (c : Chk) (v : Nat) : Bool :=
  let s := toSigned 32 v
  match c with
  | .any => true
  | .range lo hi => decide (lo ≤ v) && decide (v ≤ hi)
  | .zeroOr lo hi => v == 0 || (decide (lo ≤ v) && decide (v ≤ hi))
  | .orOne lo hi one => v == one || (decide (lo ≤ v) && decide (v ≤ hi))
  | .mult lo hi m => decide (lo ≤ v) && decide (v ≤ hi) && v % m == 0
  | .pow2 lo hi => decide (lo ≤ v) && decide (v ≤ hi) && v == 2 ^ Nat.log2 v
  | .srange lo hi => decide (lo ≤ s) && decide (s ≤ hi)
  | .sstep lo hi m => decide (lo ≤ s) && decide (s ≤ hi) && s % m == 0

/-- Values that the object's own rule calls bad. -/
def Dev.badValue (d : Dev) (n : Nat) (r : Reg) (i v : Nat) (data : Bytes) : Bool :=
  match r with
  | .keyNext => d.checkKeyNext i v == 4
  | .rateSet => d.checkRate n (numAt data 0 6) (numAt data 6 8) == 4
  | .stepSet => d.checkStep n (byteAt data 0) (numAt data 1 12) (numAt data 13 8) == 4
  | .ptpTx => d.checkPtpTx data != 0
  | .addrOp => !(decide (1 ≤ byteAt data 0) && decide (byteAt data 0 ≤ 3))
  | .addrFlush => decide (3 < byteAt data 0)
  | .lagMembers => decide (2 ^ d.portCount ≤ v % 65536)
  | _ => !r.row.chk.allows (if r.row.ty = .bool then v % 2 else v)

/-! ### State rules (step 10) -/

/-- A lane is active (R360). -/
def Dev.laneActive (d : Dev) (l : Nat) : Bool :=
  if l < 16 then d.on .portEnable (d.portOfLane l) else d.on .mateEnable 0

/-- The tree, port, lane or lane group of a frozen object is active (R360). -/
def Dev.frozenNow (d : Dev) (r : Reg) (i : Nat) : Bool :=
  match r.row.index with
  | 0x2A01 => d.laneActive i
  | 0x2A02 => d.on .portEnable i
  | 0x2A03 => (List.range 4).any fun k => d.laneActive (4 * i + k)
  | _ => d.on .treeEnable i

/-- The content of a burst-profile entry may not be written now (R50). -/
def Dev.entryHeld (d : Dev) (n i : Nat) : Bool :=
  d.on .treeEnable (i / 4) && (d.on .bpValid i || d.entryNamed n (i / 4) (i % 4))

/-- Other quad domains are on. -/
def Dev.otherQuadOn (d : Dev) (q : Nat) : Bool := (List.range 8).any fun k => k != q && d.on .pdEnable (quadDomain k)

/-- PD_ENABLE 0 is refused (R319, R336). -/
def Dev.mayNotSwitchOff (d : Dev) (w : Nat) : Bool :=
  match domainQuad w with
  | none => true
  | some q => (treesOfQuad q).any (fun t => d.on .treeEnable t) || !d.otherQuadOn q

/-- The object's own state rule refuses the write. -/
def Dev.deniedOwn (d : Dev) (n : Nat) (m : Master) (r : Reg) (i v : Nat) (data : Bytes) : Bool :=
  match r with
  | .refSelect => !d.refIsGood v
  | .pdEnable => v % 2 == 0 && d.on .pdEnable i && d.mayNotSwitchOff i
  | .snapGo => d.privOf m == 0 && v &&& d.rd .counterOpen 0 != v
  | .treeEnable => v % 2 == 1 && d.rd .pdState (quadDomain (quadOf i)) == 0
  | .delinStrict => v % 2 == 1 && decide (8 ≤ (allTrees.filter fun t => t != i && d.on .delinStrict t).length)
  | .bpRate => d.entryHeld n i || (v == 3 && d.rd .lineMode (i / 4) != 3)
  | .bpPreamble | .bpRepeat | .bpDelimiter | .bpFec => d.entryHeld n i
  | .bpValid => v % 2 == 0 && i % 4 == 0 && d.on .treeEnable (i / 4)
  | .onuId => d.rd .termState i != 0
  | .allocTerminal | .allocId => d.on .allocEnable i
  | .keyNext => d.checkKeyNext i v == 2
  | .addrSeed0 | .addrSeed1 => !d.addr.entries.isEmpty
  | .freeMode => allTrees.any (fun t => d.on .treeEnable t) || allPorts.any fun p => d.on .portEnable p
  | .poolSize => decide (393216 < v + (((List.range 35).filter (· != i)).map fun k => d.rd .poolSize k).sum)
  | .lagMembers => (List.range 8).any fun a => a != i && d.rd .lagMembers a &&& v % 65536 != 0
  | .rateSet => d.checkRate n (numAt data 0 6) (numAt data 6 8) == 2
  | .stepSet => d.checkStep n (byteAt data 0) (numAt data 1 12) (numAt data 13 8) == 2
  | .portWidth => allPorts.any d.portUp
  | .eyeScan => d.rd .laneState i != 5
  | .redundancyEnable => v % 2 == 0 && decide (2 ≤ d.rd .unitRole 0)
  | .roleCmd => if v = 1 then d.rd .unitRole 0 != 1 || d.mate.relinquishing.isSome else d.rd .unitRole 0 != 3
  | .resync => d.rd .unitRole 0 != 2
  | _ => false

/-- A mirrored object on a STANDBY or FENCED unit (R264), a frozen one while active (R360), or the object's own rule. -/
def Dev.denied (d : Dev) (n : Nat) (m : Master) (r : Reg) (i v : Nat) (data : Bytes) : Bool :=
  (r.row.flags.mirrored && decide (2 ≤ d.rd .unitRole 0)) || (r.row.flags.frozen && d.frozenNow r i) ||
    d.deniedOwn n m r i v data

/-! ### Reads -/

/-- Reads of latched values fail while the snapshot is being copied (R295). -/
def Dev.copying (d : Dev) (m : Master) (g : Nat) : Bool := d.latched m g && d.rd .snapState 0 == 1

def Dev.readDenied (d : Dev) (m : Master) (i : Nat) : Place → Bool
  | .reg r => r.row.flags.counter && d.copying m (r.group i)
  | _ => false

/-- A record that holds a latched counter while the snapshot is being copied. -/
def Dev.recordDenied (d : Dev) (m : Master) (w k : Nat) : Bool :=
  if 0x3100 ≤ w ∧ w < 0x3140 then d.copying m (w - 0x3100)
  else if 0x3C00 ≤ w then
    (viewRegs (viewed.getD (w - 0x3C00) 0x1001)).any fun r => r.row.flags.counter && r.hasInstance k && d.copying m (r.group k)
  else (w == 0x3804 && d.copying m 58) || (w == 0x3805 && d.copying m (queueGroup k))

/-- The bytes that a readable target reads. -/
def Dev.readTarget (d : Dev) (n : Nat) (m : Master) (i : Nat) : Place → Bytes
  | .reg r => toBytes r.size (d.value n m r i)
  | .lock w => [ofBool (d.lockOf w i).isSome]
  | .records w => toBytes 4 (winOf w).records
  | .data _ => []

/-! ### The commands (R303, R306) -/

/-- READ. `space` is the space left for the response, header included. -/
def Dev.doRead (d : Dev) (n : Nat) (m : Master) (space : Nat) (c : Cmd) : Resp :=
  match placeAt c.index c.sub with
  | none => ⟨5, []⟩
  | some x =>
    if !x.hasInstance c.inst then ⟨6, []⟩
    else if !x.readable then ⟨7, []⟩
    else if !d.mayRead m c.inst x then ⟨2, []⟩
    else if !c.data.isEmpty then ⟨8, []⟩
    else if d.readDenied m c.inst x then ⟨2, []⟩
    else
      let v := d.readTarget n m c.inst x
      if space < 12 + (pad4 v).length then ⟨12, []⟩ else ⟨0, v⟩

/-- Steps 8 to 10 of a WRITE of an object, and its action. -/
def Dev.doWriteReg (d : Dev) (n : Nat) (m : Master) (r : Reg) (i : Nat) (data : Bytes) : Option Resp × Dev :=
  let v := ofBytes data
  if data.length ≠ r.size then (some ⟨8, []⟩, d)
  else if d.badValue n r i v data then (some ⟨4, []⟩, d)
  else if r.row.index = 0x1110 then
    if r = .leaseReg then
      let x := d.writeLease n m (v % 2)
      (some ⟨x.1, []⟩, x.2)
    else if d.leasedAway m then (some ⟨3, []⟩, d.bump .leaseRefused 0)
    else (some ⟨0, []⟩, d.writeReg n m r i data)
  else if d.denied n m r i v data then (some ⟨2, []⟩, d)
  else if r = .roleCmd ∧ v = 1 then (none, d.writeReg n m r i data)
  else (some ⟨0, []⟩, d.writeReg n m r i data)

/-- WRITE. No response yet where the command is decided later (ROLE_CMD 1, R276). -/
def Dev.doWrite (d : Dev) (n : Nat) (m : Master) (c : Cmd) : Option Resp × Dev :=
  match placeAt c.index c.sub with
  | none => (some ⟨5, []⟩, d)
  | some x =>
    if !x.hasInstance c.inst then (some ⟨6, []⟩, d)
    else if !x.writable then (some ⟨7, []⟩, d)
    else if !d.mayWrite m x then (some ⟨2, []⟩, d)
    else if d.leaseRefuses m c.index then (some ⟨3, []⟩, d.bump .leaseRefused 0)
    else match x with
      | .reg r => d.doWriteReg n m r c.inst c.data
      | .lock w =>
        if c.data.length ≠ 1 then (some ⟨8, []⟩, d)
        else
          let y := d.writeLock n m w c.inst (ofBytes c.data % 2)
          (some ⟨y.1, []⟩, y.2)
      | _ => (some ⟨7, []⟩, d)

/-- Whole records of `size` bytes that fit in the space left, with header, FIRST and RETURNED (R306). -/
def recordsThatFit (space size : Nat) : Nat := (space - 20) / size

/-- BULK_READ. -/
def Dev.doBulkRead (d : Dev) (n : Nat) (m : Master) (space : Nat) (c : Cmd) : Resp :=
  match placeAt c.index c.sub with
  | none => ⟨5, []⟩
  | some x =>
    let w := winOf c.index
    let first := numAt c.data 0 4
    let count := numAt c.data 4 4
    let back := min count (recordsThatFit space w.size)
    if !x.hasInstance c.inst then ⟨6, []⟩
    else if !x.bulkReadable then ⟨7, []⟩
    else if !d.mayRead m c.inst x && !(c.data.length == 8 && d.observerReadsRecords c.index first count back) then ⟨2, []⟩
    else if c.data.length ≠ 8 then ⟨8, []⟩
    else if count = 0 ∨ w.records < first + count then ⟨4, []⟩
    else if back = 0 then ⟨12, []⟩
    else if (List.range back).any fun k => d.recordDenied m c.index (first + k) then ⟨2, []⟩
    else
      ⟨0, toBytes 4 first ++ toBytes 4 back ++
        ((List.range back).map fun k => d.winRecord n m c.index c.inst (first + k)).flatten⟩

/-- Records written in ascending order, up to the first that is refused: its status, the number written (R159). -/
def Dev.writeRecords (d : Dev) (n w inst size : Nat) : Nat → Bytes → Nat → Nat → Nat × Nat × Dev
  | 0, _, _, done => (0, done, d)
  | k + 1, data, r, done =>
    let x := d.writeRecord n w inst r (data.take size)
    if x.1 = 0 then x.2.writeRecords n w inst size k (data.drop size) (r + 1) (done + 1) else (x.1, done, x.2)

/-- BULK_WRITE. -/
def Dev.doBulkWrite (d : Dev) (n : Nat) (m : Master) (c : Cmd) : Resp × Dev :=
  match placeAt c.index c.sub with
  | none => (⟨5, []⟩, d)
  | some x =>
    let w := winOf c.index
    let first := numAt c.data 0 4
    let count := numAt c.data 4 4
    if !x.hasInstance c.inst then (⟨6, []⟩, d)
    else if !x.bulkWritable then (⟨7, []⟩, d)
    else if !d.mayWrite m x then (⟨2, []⟩, d)
    else if d.leaseRefuses m c.index then (⟨3, []⟩, d.bump .leaseRefused 0)
    else if c.data.length < 8 then (⟨8, []⟩, d)
    else if c.data.length ≠ 8 + count * w.size then (⟨8, []⟩, d)
    else if count = 0 ∨ w.records < first + count then (⟨4, []⟩, d)
    else if d.lockedAway m c.index c.inst || (windowMirrored c.index && decide (2 ≤ d.rd .unitRole 0)) then (⟨2, []⟩, d)
    else
      let y := d.writeRecords n c.index c.inst w.size count (c.data.drop 8) first 0
      if y.1 = 0 then (⟨0, []⟩, y.2.2) else (⟨y.1, toBytes 4 first ++ toBytes 4 y.2.1⟩, y.2.2)

/-- BUSY DATA (R314). -/
def busyData (n : Nat) (o : LongOp) : Bytes := toBytes 2 (ceilDiv (o.start + o.maxTicks - n) 1244160) ++ [o.code, 0]

/-- The answer of a command that is refused, in the bytes left: its DATA is left out where it does not fit, of which R306
speaks for reads alone (DESIGN CHOICE, log row 116). -/
def Resp.fitted (r : Resp) (space : Nat) : Resp := if space < 12 + r.data.length then ⟨r.status, []⟩ else r

/-- The BUSY answer, where a long operation runs (step 1). -/
def Dev.busy (d : Dev) (n space : Nat) : Option Resp := d.mgmt.longOp.map fun o => Resp.fitted ⟨1, busyData n o⟩ space

/-- CLOSE (R359). -/
def Dev.doClose (d : Dev) : Master → Resp × Dev
  | .session k => (⟨0, []⟩, d.closeSession k)
  | .serial => (⟨11, []⟩, d)

/-- One command of a master, one transaction (R303, R307): its response, none where it is decided later. -/
def Dev.transact (d : Dev) (n : Nat) (m : Master) (space : Nat) (c : Cmd) : Option Resp × Dev :=
  match d.busy n space with
  | some r => (some r, d.bump .busyAnswers 0)
  | none =>
    match c.op with
    | 1 => (some (d.doRead n m space c), d)
    | 2 => d.doWrite n m c
    | 3 => (some (d.doBulkRead n m space c), d)
    | 4 => let x := d.doBulkWrite n m c; (some (x.1.fitted space), x.2)
    | 5 => (some ⟨11, []⟩, d)
    | 6 => let x := d.doClose m; (some x.1, x.2)
    | 7 => (some ⟨0, []⟩, d)
    | _ => (some ⟨9, []⟩, d)

/-! ### Single accesses -/

/-- The space of a Swijan response PDU for its only command (R306), and of a response on the serial port (R315). -/
def soleSpace : Master → Nat
  | .session _ => 1440 - 36
  | .serial => 12 + 4096

/-- The master may act: its session is open. -/
def Dev.masterOpen (d : Dev) : Master → Bool
  | .session k => d.rd .sessionState k == 2
  | .serial => true

/-- A session's idle timer starts again (R311). -/
def Dev.touch (d : Dev) (n : Nat) : Master → Dev
  | .session k => if d.rd .sessionState k = 2 then d.modSession k fun x => { x with lastAt := n } else d
  | .serial => d

/-- A request of one command from a master, with its response; a reset it commands begins after the response (R340). -/
def Dev.serveMaster (d : Dev) (n : Nat) (m : Master) (c : Cmd) : Dev :=
  if d.chip.phase ≠ .up then d
  else
    let d := (d.settleTimes n).settleMgmt
    if !d.masterOpen m && d.mgmt.longOp.isNone then d.emit (.response m ⟨11, []⟩)
    else
      let x := (d.touch n m).transact n m (soleSpace m) c
      let d := match x.1 with
        | some r => x.2.emit (.response m r)
        | none => x.2
      d.startPending n

/-- A command that a master sends. -/
def byMaster (n : Nat) (m : Master) (c : Cmd) (s : State) : Host.Outcome State Fault Refusal :=
  if masterExists m then .next (s.at_ n fun n d => d.serveMaster n m c) else .fault .noSuchElement

/-- A WRITE of an object's instance. -/
def writeCmd (r : Reg) (i : Nat) (data : Bytes) : Cmd := ⟨2, r.row.index, i, r.row.sub, data⟩

/-- A WRITE of number `v` in the bytes of the object's type; a number that does not fit them travels in more. -/
def writeNum (r : Reg) (i v : Nat) : Cmd := writeCmd r i (toBytes (if v < 256 ^ r.size then r.size else r.size + 1) v)

/-- A WRITE of 1, which starts a command's action (R301). -/
def start (r : Reg) (i : Nat) : Cmd := writeNum r i 1

end Sys2Proof.Machine
end

