-- ==== Sys2Proof/Machine/Mirror.lean ====
section
/-!
DEFINITION. Mirrored records applied by a standby (R240, R266-R269): the grants of a mirrored map, and durable records in the
order of DSEQ.
-/
namespace Sys2Proof.Machine
open Sys2Proof

/-! ### Maps (R267) -/

/-- A structure of a mirrored map's burst applied to the standby's own demand, owed bytes and buckets. -/
def Dev.mirrorGrant (d : Dev) (n sfc start : Nat) (g : Grant) : Dev :=
  let d := (d.sealGrant n sfc g.keySlot start g).2
  let owed := d.rd .owedBytes g.alloc
  (d.wr .owedBytes g.alloc (owed - g.owed)).modAlloc g.alloc fun x => { x with
    assured := x.assured - (g.assured * 512 + g.fromAssured), rate := x.rate - (g.assured + g.added) * 512 }

/-- A mirrored map that the standby does not hold yet, of a frame without a mirror gap. -/
def Dev.mirrorMap (d : Dev) (n t : Nat) (m : Map) : Dev :=
  if d.mate.gaps.contains m.sfc || (d.tree t).maps.any fun y => y.sfc == m.sfc && y.point == m.point then d
  else
    let d := d.mapSnapshot (d.plan n t m.sfc m.point)
    let d := d.each m.bursts fun d b => d.each b.grants fun d g => d.mirrorGrant n m.sfc b.start g
    d.modTree t fun x => { x with maps := x.maps ++ [m] }

/-! ### Durable records -/

/-- A rate change that named tick `c` of this unit (R240): before `c` it waits, in place of one that waits already (R227). After `c`
it is made at once by a rebase that keeps the active unit's time, and counted: what was due by `c` is made first, and a change
that it replaces is dropped. -/
def Dev.mirrorRate (d : Dev) (n inc c : Nat) : Dev :=
  if n < c then { d with gnomon := { d.gnomon with rate := some (inc, c) } }.retimeTod c
  else
    let d := d.advanceClock c
    let d := { d with gnomon := { d.gnomon with rate := none } }
    ((d.setClock (d.clock.rebase c inc)).bump .mateTimeLate 0).retimeTod c

/-- A step likewise. -/
def Dev.mirrorStep (d : Dev) (n mode value c : Nat) : Dev :=
  if n < c then { d with gnomon := { d.gnomon with step := some (mode, value, c) } }.retimeTod c
  else
    let d := d.advanceClock c
    let d := { d with gnomon := { d.gnomon with step := none } }
    ((d.setClock (d.clock.step mode (timeUnits value) c)).bump .mateTimeLate 0).retimeTod c

/-- The terminal table is kept equal; a new state starts the timers of R68 that this unit would run after a take-over, and EMPTY and
QUARANTINE flush the terminal's addresses (R175). -/
def Dev.mirrorTerminal (d : Dev) (n g state onuId eqd entry : Nat) : Dev :=
  let old := d.rd .termState g
  let t := treeOfTerm g
  let d := (((d.wr .termState g state).wr .onuId g onuId).wr .eqdBits g eqd).wr .bpEntry g entry
  if old = state then d
  else match state with
    | 0 => (d.modTerm g fun x => { x with lostAt := none, rangeAt := none, eqdSent := none }).flushTermAddrs g
    | 4 => (d.modTerm g fun x => { x with lostAt := none, rangeAt := none, eqdSent := none }).flushTermAddrs g
    | 1 =>
      let d := d.modTerm g fun x => { x with
        rangeAt := some n, lostTicks := msTicks (d.rd .rangeTimeout t), triesLeft := d.rd .rangeTries t, eqdSent := none,
        windowPs := d.targetRtd t * 1000 - d.rangingNs t * 500, lostAt := none }
      d.modTree t fun x => { x with rangeWanted := x.rangeWanted.filter (· != g) ++ [g] }
    | 3 => d.modTerm g fun x => { x with lostAt := some n, lostTicks := msTicks (d.rd .lostTimeout t) }
    | _ => d.modTerm g fun x => { x with lostAt := none, rangeAt := none, eqdSent := none }

/-- A mirrored LOAD_GO: the load key written last is in use and the records written are used up (R133); the keys of a load that
passed come as KEY_NEXT writes (R126). -/
def Dev.mirrorLoad (d : Dev) : Dev :=
  let d := d.takeKey 32837
  { d with mgmt := { d.mgmt with loadRecords := [] } }

/-- A mirrored write of an object; a terminal's COMMAND travels as the terminal's record. -/
def Dev.mirrorObject (d : Dev) (n index inst sub : Nat) (data : Bytes) : Dev :=
  match Reg.ofAddr index sub with
  | none => d
  | some r =>
    if r = .termCommand then d
    else if r = .loadGo then d.mirrorLoad
    else d.applyReg n .serial r inst (d.stored r inst (ofBytes data)) data

/-- A half of a key slot as a record carries it. -/
def keyFrom (k : Option (Nat × Nat × Nat)) : Option Key := k.map fun x => ⟨x.1, x.2.1, x.2.2⟩
def keyParts (k : Option Key) : Option (Nat × Nat × Nat) := k.map fun x => (x.a, x.b, x.index)

/-- The effect of a durable record. A static entry goes to the Learning Engine, as the host's operations do (R161, R174). -/
def Dev.mirrorEffect (d : Dev) (n : Nat) : MirrorRecord → Dev
  | .objectWrite _ index inst sub _ data => d.mirrorObject n index inst sub data
  | .windowWrite _ index inst record _ data => (d.writeRecord n index inst record data).2
  | .commit _ => d.swapTables
  | .profile _ q v => d.setProfile n q v
  | .terminal _ g state onuId eqd entry => d.mirrorTerminal n g state onuId eqd entry
  | .staticAddress _ ins rec => { d with addr := { d.addr with queue := d.addr.queue ++ [.op (if ins then 1 else 3) rec] } }
  | .pathLatency _ t psync burst dn up => d.modTree t fun x => { x with peer := (psync, burst, dn, up) }
  | .rate _ inc tick => d.mirrorRate n inc (d.translate tick)
  | .step _ mode value tick => d.mirrorStep n mode value (d.translate tick)
  | .keyRetired _ s => d.modSlot s fun x => if x.retiring then { x with next := none, retiring := false } else x
  | .keySlot _ s cur next ret era sw at_ => d.modSlot s fun _ => ⟨keyFrom cur, keyFrom next, ret, era, sw, at_⟩
  | .model _ offset base inc => d.setClock ⟨timeUnits offset, d.translate base, inc⟩
  | .map t m => d.mirrorMap n t m

/-- The tick of this unit at which a record takes effect; records of the clock model wait by themselves. -/
def Dev.mirrorTick (d : Dev) : MirrorRecord → Nat
  | .objectWrite _ _ _ _ tick _ => d.translate tick
  | .windowWrite _ _ _ _ tick _ => d.translate tick
  | _ => 0

/-- A durable record is the next one, or the first of a resync, which may begin anywhere (R268, R269). -/
def Dev.mirrorNext (d : Dev) (k : Nat) : Bool :=
  (d.rd .mirrorState 0 == 1 && !d.mate.resynced) || k == (d.rd .dseqApplied 0 + 1) % 2 ^ 32

/-- A durable record whose turn and tick have come. -/
def Dev.mirrorDurable (d : Dev) (n : Nat) (r : MirrorRecord) : Dev :=
  let k := mirrorDseq r
  if d.mirrorNext k && decide (d.mirrorTick r ≤ n) then
    ((d.mirrorEffect n r).wr .dseqApplied 0 k).modMate fun m => { m with resynced := true }
  else d

/-- A record that has come to a standby. -/
def Dev.takeRecord (d : Dev) (n : Nat) (r : MirrorRecord) : Dev :=
  match r with
  | .map t m => d.mirrorMap n t m
  | r => d.mirrorDurable n r

/-- A record still waits: a durable one that has not been applied. -/
def Dev.recordWaits (d : Dev) : MirrorRecord → Bool
  | .map .. => false
  | r => !d.mate.resynced || !dseqUpTo (d.rd .dseqApplied 0) (mirrorDseq r)

/-- The elements a record names are the device's (R14, R119). -/
def recordExists : MirrorRecord → Bool
  | .objectWrite _ index inst sub _ _ => (Reg.ofAddr index sub).any fun r => r.hasInstance inst
  | .windowWrite _ index inst record _ _ => decide (inst < (winOf index).count) && decide (record < (winOf index).records)
  | .profile _ q v => decide (q < 8) && decide (v < 4)
  | .terminal _ g state _ _ entry => decide (g < 16384) && decide (state < 5) && decide (entry < 4)
  | .pathLatency _ t .. => decide (t < 32)
  | .keyRetired _ s => decide (s < 32838)
  | .keySlot _ s .. => decide (s < 32838)
  | .map t _ => decide (t < 32)
  | _ => true

/-- The records that have come are taken in their order; those whose turn or tick has not come wait. -/
def Dev.takeArrived (d : Dev) (n : Nat) : Dev :=
  if d.rd .unitRole 0 ≠ 2 then d
  else
    let d := d.each (d.mate.arrived.filter recordExists) fun d r => d.takeRecord n r
    d.modMate fun m => { m with arrived := (m.arrived.filter recordExists).filter d.recordWaits }

/-! ### The stream of a resync (R269) -/

/-- Every mirrored object that holds a value: a profile as a profile record. -/
def Dev.streamObjects (d : Dev) (n : Nat) : List (Nat → MirrorRecord) :=
  (objRows.map fun p =>
    if p.2.flags.mirrored && p.2.acc == .rw then
      ((List.range p.2.count).map fun i =>
        if p.1 = .quadProfile then fun k => MirrorRecord.profile k i (d.rd p.1 i)
        else fun k => MirrorRecord.objectWrite k p.2.index (p.2.first + i) p.2.sub n (toBytes p.1.size (d.live n p.1 (p.2.first + i))))
    else []).flatten

/-- The records of window `w` as `value` gives them. -/
def streamWindow (n w : Nat) (value : Nat → Nat → Bytes) : List (Nat → MirrorRecord) :=
  ((List.range (winOf w).count).map fun i => (List.range (winOf w).records).map fun r k =>
    MirrorRecord.windowWrite k w i r n (value i r)).flatten

/-- Every mirrored window: the staged ones as the active version has them, a commit, and then as they are staged. -/
def Dev.streamWindows (d : Dev) (n : Nat) : List (Nat → MirrorRecord) :=
  let all := windowIndices.filter windowMirrored
  let staged := all.filter isStaged
  let value : Tables → Nat → Nat → Nat → Bytes := fun x w _ r => toBytes (winOf w).size (x.record w r)
  let load := d.mgmt.loadRecords.map fun p k => MirrorRecord.windowWrite k 0x3401 0 p.1 n (toBytes 64 p.2)
  (staged.map fun w => streamWindow n w (value d.active w)).flatten ++ [MirrorRecord.commit] ++
    (staged.map fun w => streamWindow n w (value d.staging w)).flatten ++
    ((all.filter fun w => !isStaged w && w != 0x3401).map fun w =>
      streamWindow n w fun i r => d.winRecord n .serial w i r).flatten ++ load

/-- Every key slot. -/
def Dev.streamSlots (d : Dev) : List (Nat → MirrorRecord) :=
  (List.range 32838).map fun s k =>
    let x := d.slot s
    MirrorRecord.keySlot k s (keyParts x.current) (keyParts x.next) x.retiring x.erased x.switchSfc x.retireAt

/-- Every static entry, and what else the mirror keeps equal: the terminal table, the latencies and the clock model (DEDUCED, log
row 73). -/
def Dev.streamRest (d : Dev) : List (Nat → MirrorRecord) :=
  ((d.addr.entries.filter fun p => p.2.static).map fun p k => MirrorRecord.staticAddress k true p.2.record) ++
    ((List.range 16384).map fun g k =>
      MirrorRecord.terminal k g (d.rd .termState g) (d.rd .onuId g) (d.rd .eqdBits g) (d.rd .bpEntry g)) ++
    (allTrees.map fun t k =>
      MirrorRecord.pathLatency k t (d.rd .psyncLatPs t) (d.rd .burstLatPs t) (d.rd .opticsDnPs t) (d.rd .opticsUpPs t)) ++
    [fun k => MirrorRecord.model k (d.rd .clockModelOffset 0) (d.rd .baseTick 0) (d.rd .clkInc 0)]

/-- The stream that an ACTIVE unit owes: durable records that the next mirror sets carry, before any made meanwhile. -/
def Dev.startStream (d : Dev) (n : Nat) : Dev :=
  if d.mate.streamDue && d.rd .unitRole 0 == 1 then
    let d := (d.modMate fun m => { m with streamDue := false }).wr .mirrorState 0 1
    d.each (d.streamObjects n ++ d.streamWindows n ++ d.streamSlots ++ d.streamRest) fun d r => d.durable n r
  else d

/-! ### The commands -/

/-- MIRROR_RECORD_APPLY (R266): a record that has come to a standby, and what waited for it. -/
def execMirrorRecordApply (n : Nat) (r : MirrorRecord) (s : State) : Host.Outcome State Fault Refusal :=
  if recordExists r then
    .next (s.at_ n fun n d =>
      if d.on .redundancyEnable 0 = false ∨ d.rd .unitRole 0 ≠ 2 then d else (d.takeRecord n r).takeArrived n)
  else .fault .noSuchElement

/-- A mate frame with what it brings: records for a standby (R268), or the stream of a resync. -/
def Dev.mateArrival (d : Dev) (n : Nat) (f : MateFrameIn) : Dev := ((d.mateFrame n f).takeArrived n).startStream n

/-- MATE_FRAME_RECEIVE (R131, R260). -/
def execMateFrameReceive (n : Nat) (f : MateFrameIn) (s : State) : Host.Outcome State Fault Refusal :=
  .next (s.at_ n fun n d => d.mateArrival n f)

/-- HEARTBEAT_RECEIVE (R270, R271): a TYPE 1 frame on the lanes, or a word on the pins. -/
def execHeartbeatReceive (n : Nat) (h : HeartbeatIn) (s : State) : Host.Outcome State Fault Refusal :=
  .next (s.at_ n fun n d => match h with
    | .lanes f => if mateType f.header = 1 then d.mateArrival n f else d
    | .pins w => d.pinBeat n w)

end Sys2Proof.Machine
end

