-- ==== Sys2Proof/Machine/Rows.lean ====
section
/-!
DEFINITION. The rows of the table that are one access of the dictionary by a master: each is the access its rule names.
-/
namespace Sys2Proof.Machine
open Sys2Proof

/-! ### Profile and tree objects -/

/-- PROFILE_WRITE (R33). -/
def execProfileWrite (n : Nat) (m : Master) (q v : Nat) (s : State) : Host.Outcome State Fault Refusal :=
  byMaster n m (writeNum .quadProfile q v) s

/-- TREE_ENABLE_WRITE (R66, R360). -/
def execTreeEnableWrite (n : Nat) (m : Master) (t v : Nat) (s : State) : Host.Outcome State Fault Refusal :=
  byMaster n m (writeNum .treeEnable t v) s

/-- LINE_MODE_WRITE (R66, R79). -/
def execLineModeWrite (n : Nat) (m : Master) (t v : Nat) (s : State) : Host.Outcome State Fault Refusal :=
  byMaster n m (writeNum .lineMode t v) s

/-- BP_VALID_WRITE (R50). -/
def execBpValidWrite (n : Nat) (m : Master) (i v : Nat) (s : State) : Host.Outcome State Fault Refusal :=
  byMaster n m (writeNum .bpValid i v) s

/-- TERMINAL_DEACTIVATE (R68). -/
def execTerminalDeactivate (n : Nat) (m : Master) (g : Nat) (s : State) : Host.Outcome State Fault Refusal :=
  byMaster n m (writeNum .termCommand g 1) s

/-- TERMINAL_QUARANTINE (R83). -/
def execTerminalQuarantine (n : Nat) (m : Master) (g : Nat) (s : State) : Host.Outcome State Fault Refusal :=
  byMaster n m (writeNum .termCommand g 2) s

/-- TERMINAL_RELEASE (R68, R83). -/
def execTerminalRelease (n : Nat) (m : Master) (g : Nat) (s : State) : Host.Outcome State Fault Refusal :=
  byMaster n m (writeNum .termCommand g 3) s

/-! ### Keys -/

/-- KEY_NEXT (R120). -/
def execKeyNext (n : Nat) (m : Master) (k : Nat) (data : Bytes) (s : State) : Host.Outcome State Fault Refusal :=
  byMaster n m (writeCmd .keyNext k data) s

/-- KEY_ERASE (R124). -/
def execKeyErase (n : Nat) (m : Master) (k : Nat) (s : State) : Host.Outcome State Fault Refusal :=
  byMaster n m (start .keyErase k) s

/-- LOAD_GO (R133). -/
def execLoadGo (n : Nat) (m : Master) (s : State) : Host.Outcome State Fault Refusal :=
  byMaster n m (start .loadGo 0) s

/-! ### Tables and buffer -/

/-- GRAPH_DEFAULT (R142). -/
def execGraphDefault (n : Nat) (m : Master) (s : State) : Host.Outcome State Fault Refusal :=
  byMaster n m (start .graphDefault 0) s

/-- COMMIT (R154). -/
def execCommit (n : Nat) (m : Master) (s : State) : Host.Outcome State Fault Refusal :=
  byMaster n m (start .commitGo 0) s

/-- DISCARD (R153). -/
def execDiscard (n : Nat) (m : Master) (s : State) : Host.Outcome State Fault Refusal :=
  byMaster n m (start .discard 0) s

/-- ADDR_INSERT_STATIC (R174). -/
def execAddrInsertStatic (n : Nat) (m : Master) (rec : Nat) (s : State) : Host.Outcome State Fault Refusal :=
  byMaster n m (writeCmd .addrOp 0 (1 :: toBytes 16 rec)) s

/-- ADDR_INSERT_DYNAMIC (R174). -/
def execAddrInsertDynamic (n : Nat) (m : Master) (rec : Nat) (s : State) : Host.Outcome State Fault Refusal :=
  byMaster n m (writeCmd .addrOp 0 (2 :: toBytes 16 rec)) s

/-- ADDR_DELETE (R174). -/
def execAddrDelete (n : Nat) (m : Master) (rec : Nat) (s : State) : Host.Outcome State Fault Refusal :=
  byMaster n m (writeCmd .addrOp 0 (3 :: toBytes 16 rec)) s

/-- ADDR_FLUSH (R174). -/
def execAddrFlush (n : Nat) (m : Master) (data : Bytes) (s : State) : Host.Outcome State Fault Refusal :=
  byMaster n m (writeCmd .addrFlush 0 data) s

/-- FREE_MODE_WRITE (R186). -/
def execFreeModeWrite (n : Nat) (m : Master) (v : Nat) (s : State) : Host.Outcome State Fault Refusal :=
  byMaster n m (writeNum .freeMode 0 v) s

/-- AUDIT_GO (R190). -/
def execAuditGo (n : Nat) (m : Master) (s : State) : Host.Outcome State Fault Refusal :=
  byMaster n m (start .auditGo 0) s

/-- MEMBERS_WRITE (R196, R197). -/
def execMembersWrite (n : Nat) (m : Master) (a v : Nat) (s : State) : Host.Outcome State Fault Refusal :=
  byMaster n m (writeNum .lagMembers a v) s

/-- PORT_WIDTH_WRITE (R248). -/
def execPortWidthWrite (n : Nat) (m : Master) (v : Nat) (s : State) : Host.Outcome State Fault Refusal :=
  byMaster n m (writeNum .portWidth 0 v) s

/-- PEAK_RESET (R214). -/
def execPeakReset (n : Nat) (m : Master) (s : State) : Host.Outcome State Fault Refusal :=
  byMaster n m (start .peakReset 0) s

/-! ### Time -/

/-- RATE_SET (R224). -/
def execRateSet (n : Nat) (m : Master) (inc c1 : Nat) (s : State) : Host.Outcome State Fault Refusal :=
  byMaster n m (writeCmd .rateSet 0 (toBytes 6 inc ++ toBytes 8 c1)) s

/-- STEP_ADD (R225). -/
def execStepAdd (n : Nat) (m : Master) (value c1 : Nat) (s : State) : Host.Outcome State Fault Refusal :=
  byMaster n m (writeCmd .stepSet 0 (0 :: (toBytes 12 value ++ toBytes 8 c1))) s

/-- STEP_SUBTRACT (R225). -/
def execStepSubtract (n : Nat) (m : Master) (value c1 : Nat) (s : State) : Host.Outcome State Fault Refusal :=
  byMaster n m (writeCmd .stepSet 0 (1 :: (toBytes 12 value ++ toBytes 8 c1))) s

/-- STEP_SET_TIME (R225). -/
def execStepSetTime (n : Nat) (m : Master) (value c1 : Nat) (s : State) : Host.Outcome State Fault Refusal :=
  byMaster n m (writeCmd .stepSet 0 (2 :: (toBytes 12 value ++ toBytes 8 c1))) s

/-- SERVO_ALIVE (R228). -/
def execServoAlive (n : Nat) (m : Master) (s : State) : Host.Outcome State Fault Refusal :=
  byMaster n m (start .servoAlive 0) s

/-- CAPTURE (R223). -/
def execCapture (n : Nat) (m : Master) (s : State) : Host.Outcome State Fault Refusal :=
  byMaster n m (start .captureCmd 0) s

/-- PTP_TX (R233). -/
def execPtpTx (n : Nat) (m : Master) (data : Bytes) (s : State) : Host.Outcome State Fault Refusal :=
  byMaster n m (writeCmd .ptpTx 0 data) s

/-- RCLK_SRC_WRITE (R239). -/
def execRclkSrcWrite (n : Nat) (m : Master) (v : Nat) (s : State) : Host.Outcome State Fault Refusal :=
  byMaster n m (writeNum .rclkSrc 0 v) s

/-! ### Lanes and redundancy -/

/-- CALIBRATE (R253). -/
def execCalibrate (n : Nat) (m : Master) (s : State) : Host.Outcome State Fault Refusal :=
  byMaster n m (start .calibrate 0) s

/-- PORT_ENABLE_WRITE (R249, R251). -/
def execPortEnableWrite (n : Nat) (m : Master) (p v : Nat) (s : State) : Host.Outcome State Fault Refusal :=
  byMaster n m (writeNum .portEnable p v) s

/-- MATE_ENABLE_WRITE (R249, R261). -/
def execMateEnableWrite (n : Nat) (m : Master) (v : Nat) (s : State) : Host.Outcome State Fault Refusal :=
  byMaster n m (writeNum .mateEnable 0 v) s

/-- EYE_SCAN (R320). -/
def execEyeScan (n : Nat) (m : Master) (l : Nat) (s : State) : Host.Outcome State Fault Refusal :=
  byMaster n m (start .eyeScan l) s

/-- REDUNDANCY_ENABLE_WRITE (R265). -/
def execRedundancyEnableWrite (n : Nat) (m : Master) (v : Nat) (s : State) : Host.Outcome State Fault Refusal :=
  byMaster n m (writeNum .redundancyEnable 0 v) s

/-- REJOIN (R279). -/
def execRejoin (n : Nat) (m : Master) (s : State) : Host.Outcome State Fault Refusal :=
  byMaster n m (writeNum .roleCmd 0 2) s

/-- RESYNC (R269). -/
def execResync (n : Nat) (m : Master) (s : State) : Host.Outcome State Fault Refusal :=
  byMaster n m (start .resync 0) s

/-! ### Faults and counters -/

/-- FF_CLEAR (R289). -/
def execFfClear (n : Nat) (m : Master) (s : State) : Host.Outcome State Fault Refusal :=
  byMaster n m (start .ffClear 0) s

/-- FAULT_TEST (R299). -/
def execFaultTest (n : Nat) (m : Master) (v : Nat) (s : State) : Host.Outcome State Fault Refusal :=
  byMaster n m (writeNum .faultTest 0 v) s

/-- FAULT_LEVEL_WRITE (R290). -/
def execFaultLevelWrite (n : Nat) (m : Master) (v : Nat) (s : State) : Host.Outcome State Fault Refusal :=
  byMaster n m (writeNum .faultLevel 0 v) s

/-- SNAP_GO (R295). -/
def execSnapGo (n : Nat) (m : Master) (mask : Nat) (s : State) : Host.Outcome State Fault Refusal :=
  byMaster n m (writeNum .snapGo 0 mask) s

/-- COUNTER_CLEAR (R295). -/
def execCounterClear (n : Nat) (m : Master) (mask : Nat) (s : State) : Host.Outcome State Fault Refusal :=
  byMaster n m (writeNum .counterClear 0 mask) s

/-! ### Lease and sessions -/

/-- LEASE_WRITE (R313). -/
def execLeaseWrite (n : Nat) (m : Master) (v : Nat) (s : State) : Host.Outcome State Fault Refusal :=
  byMaster n m (writeNum .leaseReg 0 v) s

/-- SESSION_CLOSE (R311). -/
def execSessionClose (n : Nat) (m : Master) (k : Nat) (s : State) : Host.Outcome State Fault Refusal :=
  byMaster n m (start .sessionClose k) s

/-! ### References, power domains and resets -/

/-- REF_SELECT_WRITE (R327). -/
def execRefSelectWrite (n : Nat) (m : Master) (v : Nat) (s : State) : Host.Outcome State Fault Refusal :=
  byMaster n m (writeNum .refSelect 0 v) s

/-- PD_ENABLE_WRITE (R336). -/
def execPdEnableWrite (n : Nat) (m : Master) (w v : Nat) (s : State) : Host.Outcome State Fault Refusal :=
  byMaster n m (writeNum .pdEnable w v) s

/-- WARM_RESET (R340). -/
def execWarmReset (n : Nat) (m : Master) (s : State) : Host.Outcome State Fault Refusal :=
  byMaster n m (start .warmReset 0) s

/-- DIE_RESET (R340). -/
def execDieReset (n : Nat) (m : Master) (e : Nat) (s : State) : Host.Outcome State Fault Refusal :=
  byMaster n m (writeNum .dieReset 0 e) s

/-- QUAD_RESET (R340). -/
def execQuadReset (n : Nat) (m : Master) (q : Nat) (s : State) : Host.Outcome State Fault Refusal :=
  byMaster n m (start .quadReset q) s

/-- TREE_RESET (R340). -/
def execTreeReset (n : Nat) (m : Master) (t : Nat) (s : State) : Host.Outcome State Fault Refusal :=
  byMaster n m (start .treeReset t) s

/-- TREE_RESTART (R319, R340). -/
def execTreeRestart (n : Nat) (m : Master) (t : Nat) (s : State) : Host.Outcome State Fault Refusal :=
  byMaster n m (start .treeRestart t) s

/-! ### Any object -/

/-- READ (R306). -/
def execRead (n : Nat) (m : Master) (index inst sub : Nat) (s : State) : Host.Outcome State Fault Refusal :=
  byMaster n m ⟨1, index, inst, sub, []⟩ s

/-- WRITE (R306). -/
def execWrite (n : Nat) (m : Master) (index inst sub : Nat) (data : Bytes) (s : State) :
    Host.Outcome State Fault Refusal :=
  byMaster n m ⟨2, index, inst, sub, data⟩ s

/-- BULK_READ (R159, R306). -/
def execBulkRead (n : Nat) (m : Master) (index inst sub first count : Nat) (s : State) :
    Host.Outcome State Fault Refusal :=
  byMaster n m ⟨3, index, inst, sub, toBytes 4 first ++ toBytes 4 count⟩ s

/-- BULK_WRITE (R159, R306). -/
def execBulkWrite (n : Nat) (m : Master) (index inst sub first count : Nat) (data : Bytes) (s : State) :
    Host.Outcome State Fault Refusal :=
  byMaster n m ⟨4, index, inst, sub, toBytes 4 first ++ toBytes 4 count ++ data⟩ s

/-- CLOSE (R359). -/
def execClose (n : Nat) (m : Master) (s : State) : Host.Outcome State Fault Refusal := byMaster n m ⟨6, 0, 0, 0, []⟩ s

/-- NOP (R359). -/
def execNop (n : Nat) (m : Master) (s : State) : Host.Outcome State Fault Refusal := byMaster n m ⟨7, 0, 0, 0, []⟩ s

/-- LOCK_WRITE (R160). -/
def execLockWrite (n : Nat) (m : Master) (index inst v : Nat) (s : State) : Host.Outcome State Fault Refusal :=
  byMaster n m ⟨2, index, inst, 0, toBytes (if v < 256 then 1 else 2) v⟩ s

/-- FAULT_STATUS_CLEAR (R289): 1 written to bit 7 of source `x`'s record. -/
def execFaultStatusClear (n : Nat) (m : Master) (x : Nat) (s : State) : Host.Outcome State Fault Refusal :=
  byMaster n m ⟨4, 0x3301, 0, 1, toBytes 4 x ++ toBytes 4 1 ++ [128]⟩ s

/-- RELINQUISH (R276, R340): ROLE_CMD 1, the DEVICE reaction to a fault of S3, or a reset that waits for it. -/
def execRelinquish (n : Nat) (c : RelinquishCause) (s : State) : Host.Outcome State Fault Refusal :=
  match c with
  | .command m => byMaster n m (writeNum .roleCmd 0 1) s
  | .fault => .next (s.at_ n fun n d =>
      let d := d.collect n
      if d.stickySevs.any fun x => decide (3 ≤ x) then d.deviceReaction n else d)
  | .reset => .next (s.at_ n fun n d => d.startPending n)

end Sys2Proof.Machine
end

