-- ==== Sys2Proof/Machine/Swijan.lean ====
section
/-!
DEFINITION. Requests as they arrive: Swijan frames (R308-R312, R130, R359), OPEN (R309), the Dictionary Serial Port (R315).
-/
namespace Sys2Proof.Machine
open Sys2Proof

/-! ### Requests -/

/-- The `k` commands of a request, which fill its bytes exactly: header and command. None where they do not. -/
def parseCmds : Nat → Bytes → Option (List (Bytes × Cmd))
  | 0, b => if b.isEmpty then some [] else none
  | k + 1, b =>
    let len := numAt b 8 2
    let whole := 12 + (len + 3) / 4 * 4
    if b.length < whole then none
    else
      let c : Cmd := ⟨byteAt b 0, numAt b 2 2, numAt b 4 2, byteAt b 6, (b.drop 12).take len⟩
      (parseCmds k (b.drop whole)).map fun l => (b.take 12, c) :: l

/-- A reply's route: port of arrival, source, tags. -/
structure Route where
  arrival : RxPort
  dest : Nat
  tags : Bytes
  deriving DecidableEq, Repr

def frameRoute (f : SwijanFrame) : Route := ⟨f.arrival, f.source, f.tags⟩

/-- A reply that answers every command alike and is not stored. -/
def Dev.replyAll (d : Dev) (n : Nat) (r : Route) (session seq : Nat) (key : Option (Nat × Nat)) (l : List (Bytes × Cmd))
    (x : Resp) : Dev :=
  let out := l.map fun c => (c.1, x)
  match key with
  | none => d.replyClear n r.arrival r.dest r.tags session seq out
  | some (k, v) => d.replySealed n r.arrival r.dest r.tags session seq k v out

/-! ### Applying a request (R306, R307) -/

/-- A request being applied: the responses so far, the deferred command's header with the responses before it, whether a
TOO_LONG has been met, the bytes of the PDU so far. -/
structure Progress where
  out : List (Bytes × Resp) := []
  before : Option (List (Bytes × Resp) × Bytes) := none
  tooLong : Bool := false
  used : Nat := 36
  deriving DecidableEq, Repr

/-- A response is appended. -/
def Progress.push (p : Progress) (h : Bytes) (r : Resp) : Progress :=
  { p with out := p.out ++ [(h, r)], used := p.used + 12 + (pad4 r.data).length, tooLong := p.tooLong || r.status == 12 }

/-- What a command of a session that is no longer open gets: BUSY comes first. -/
def Dev.commandOf (d : Dev) (n : Nat) (m : Master) (space : Nat) (c : Cmd) : Option Resp × Dev :=
  if !d.masterOpen m && d.mgmt.longOp.isNone then (some ⟨11, []⟩, d) else d.transact n m space c

/-- The commands of a request applied in order. -/
def Dev.applyCmds (d : Dev) (n : Nat) (m : Master) (p : Progress) : List (Bytes × Cmd) → Progress × Dev
  | [] => (p, d)
  | (h, c) :: rest =>
    if p.tooLong then d.applyCmds n m (p.push h ⟨12, []⟩) rest
    else
      let x := d.commandOf n m (1440 - p.used - 12 * rest.length) c
      match x.1 with
      | some r => x.2.applyCmds n m (p.push h r) rest
      | none => x.2.applyCmds n m { p with out := [], before := some (p.out, h), used := p.used + 12 } rest

/-- A request of open session `k` in its sequence is applied and answered; a response that waits for a relinquish is held. -/
def Dev.applyRequest (d : Dev) (n : Nat) (r : Route) (k seq : Nat) (key : Option (Nat × Nat)) (l : List (Bytes × Cmd)) :
    Dev :=
  let x := d.applyCmds n (.session k) {} l
  let d := x.2.wr .lastSeq k seq
  match x.1.before with
  | some (before, h) =>
    let held : Held := ⟨r.arrival, r.dest, r.tags, some k, key, seq, before, h, x.1.out⟩
    { d with mgmt := { d.mgmt with held := some held }, mate := { d.mate with relinquishMaster := none } }
  | none =>
    let d := (d.noteStatus (some k) x.1.out).reply n r.arrival r.dest r.tags k seq key x.1.out
    d.startPending n

/-- A request of open session `k` (R308): its sequence is judged. -/
def Dev.sessionRequest (d : Dev) (n : Nat) (r : Route) (k seq : Nat) (key : Option (Nat × Nat)) (l : List (Bytes × Cmd)) :
    Dev :=
  let d := d.touch n (.session k)
  let last := d.rd .lastSeq k
  if seq = (last + 1) % 2 ^ 32 then d.applyRequest n r k seq key l
  else if key = none ∧ seq = last ∧ (d.session k).stored ≠ [] then
    (d.bump .dupRequests 0).sendPdu n r.arrival r.dest r.tags (d.session k).stored
  else (d.bump .seqErrors 0).replyAll n r k seq key l ⟨10, []⟩

/-! ### OPEN (R309) -/

/-- The pending session that was opened first, where four are pending. -/
def Dev.fifthPending (d : Dev) : Option Nat :=
  let ps := d.sessionsIn 1
  if ps.length < 4 then none
  else ps.find? fun k => ps.all fun j => decide ((d.session k).openedAt ≤ (d.session j).openedAt)

/-- An OPEN request: refused in the clear with session 0, or answered with the new session, sealed where it is to be
authenticated. -/
def Dev.openRequest (d : Dev) (n : Nat) (r : Route) (keyId : Nat) (h data : Bytes) : Dev :=
  let auth := bitAt (byteAt data 0) 0
  let key := (d.slot (32832 + keyId)).current
  let refuse : Dev → Dev := fun d => d.replyClear n r.arrival r.dest r.tags 0 0 [(h, ⟨2, []⟩)]
  if (!auth && d.on .authRequired 0) || (auth && key.isNone) then refuse d
  else
    let d := match auth, d.fifthPending with
      | true, some k => d.closeSession k
      | _, _ => d
    match (d.sessionsIn 0).head? with
    | none => refuse d
    | some k =>
      let ceiling := if auth then d.rd .keyPriv keyId else d.rd .unauthPriv 0
      let priv := min (byteAt data 1) ceiling
      let d := ((d.wr .sessionState k (if auth then 1 else 2)).wr .sessionPriv k priv).wr .sessionKey k (if auth then keyId else 255)
      let d := ((d.wr .sessionSrc k r.dest).wr .lastSeq k 0).wr .lastStatus k 0
      let d := d.modSession k fun _ => { openedAt := n, lastAt := n }
      let out := [(h, (⟨0, [priv, k]⟩ : Resp))]
      match auth, key with
      | true, some v => d.replySealed n r.arrival r.dest r.tags k 0 keyId v.a out
      | _, _ => d.replyClear n r.arrival r.dest r.tags k 0 out

/-! ### Swijan frames (R308, R310) -/

/-- A request with AUTH 0. -/
def Dev.clearRequest (d : Dev) (n : Nat) (f : SwijanFrame) (l : List (Bytes × Cmd)) : Dev :=
  let r := frameRoute f
  let k := byteAt f.body 2
  let seq := numAt f.body 4 4
  match d.busy n (1440 - 36) with
  | some x => (d.add .busyAnswers 0 l.length).replyAll n r k seq none l x
  | none =>
    match k, seq, l with
    | 0, 0, [(h, ⟨5, _, _, _, data⟩)] => d.openRequest n r (byteAt f.body 3 % 4) h data
    | _, _, _ =>
      if 1 ≤ k ∧ k ≤ 16 ∧ d.rd .sessionState k = 2 ∧ d.rd .sessionKey k = 255 then d.sessionRequest n r k seq none l
      else d.replyAll n r k seq none l ⟨11, []⟩

/-- A request with AUTH 1 (R130, R310): judged by session, nonce and tag. -/
def Dev.sealedRequest (d : Dev) (n : Nat) (f : SwijanFrame) (count length : Nat) : Dev :=
  let k := byteAt f.body 2
  let seq := numAt f.body 4 4
  if k = 0 ∨ 16 < k ∨ d.rd .sessionState k = 0 then d.bump .staleSession 0
  else
    let kid := d.rd .sessionKey k
    if kid = 255 then d.bump .nonceReject (byteAt f.body 3 % 4)
    else if numAt f.body 8 12 ≠ (d.session k).nonce then d.bump .nonceReject kid
    else
      let d := d.gcmJob n (length - 36)
      let sealedText := (f.body.drop 36).take (length - 36 + 16)
      let key := (d.slot (32832 + kid)).current
      match key, key.bind fun v => Config.gcmOpen v.a (numAt f.body 8 12) (f.body.take 36) sealedText with
      | some v, some plain =>
        match parseCmds count plain with
        | none => d.bump .malformed 0
        | some l =>
          let d := if d.rd .sessionState k = 1 then d.wr .sessionState k 2 else d
          match d.busy n (1440 - 36) with
          | some x => ((d.touch n (.session k)).add .busyAnswers 0 l.length).replyAll n (frameRoute f) k seq (some (kid, v.a)) l x
          | none => d.sessionRequest n (frameRoute f) k seq (some (kid, v.a)) l
      | _, _ => (d.bump .tagFail kid).raise n { source := 441, master := 2, session := k, index := kid }

/-- The frame's own fields are well formed (R308). -/
def Dev.pduGood (d : Dev) (f : SwijanFrame) : Bool :=
  let b := f.body
  let length := numAt b 32 2
  let tag := if bitAt (byteAt b 1) 6 then 16 else 0
  f.limitsOk && decide (36 ≤ b.length) && byteAt b 0 == 1 && !bitAt (byteAt b 1) 7 && decide (48 ≤ length) &&
    decide (length + 34 ≤ d.rd .maxlen 0) && decide (1 ≤ numAt b 34 2) && decide (numAt b 34 2 ≤ 32) &&
    decide (length + tag ≤ b.length)

/-- A request that carries an OPEN alone, in the clear, with SESSION and SEQ 0. -/
def isOpenFrame (b : Bytes) : Bool :=
  !bitAt (byteAt b 1) 6 && byteAt b 2 == 0 && numAt b 4 4 == 0 && numAt b 34 2 == 1 && byteAt b 36 == 5

/-- A request frame in the engine. -/
def Dev.takePdu (d : Dev) (n : Nat) (f : SwijanFrame) : Dev :=
  if !d.pduGood f then d.bump .malformed 0
  else if f.arrival = .mgmt ∧ f.dest = 0xFFFFFFFFFFFF ∧ isOpenFrame f.body = false then d.bump .mgmtOther 0
  else
    let d := (d.settleTimes n).settleMgmt
    let count := numAt f.body 34 2
    let length := numAt f.body 32 2
    if bitAt (byteAt f.body 1) 6 then d.sealedRequest n f count length
    else match parseCmds count ((f.body.take length).drop 36) with
      | none => d.bump .malformed 0
      | some l => d.clearRequest n f l

/-- A frame leaves the engine's input queue: an in-band one frees its descriptor, and passes the isolation check (R213; log row
110). -/
def Dev.leaveQueue (d : Dev) (n : Nat) : RxPort → Bool × Dev
  | .mgmt => (true, { d with mgmt := { d.mgmt with rxWaiting := d.mgmt.rxWaiting - 1 } })
  | .uplink _ =>
    match d.mgmt.inband with
    | [] => (true, d)
    | k :: rest =>
      let (ok, d) := d.inbandPasses n k
      (ok, ({ d with mgmt := { d.mgmt with inband := rest } }).dropDesc n k (if ok then 0 else 5))

/-- A Swijan frame that the engine has taken (R308). -/
def Dev.takeSwijan (d : Dev) (n : Nat) (f : SwijanFrame) : Dev :=
  match f.arrival with
  | .mgmt =>
    if f.etype ≠ d.rd .swijanEtype 0 ∨ (f.dest ≠ d.rd .mgmtMac 0 ∧ f.dest ≠ 0xFFFFFFFFFFFF) then d.bump .mgmtOther 0
    else d.takePdu n f
  | .uplink p =>
    if !bitAt (d.rd .inbandEnable 0) p then d
    else if f.etype ≠ d.rd .swijanEtype 0 then d.bump .malformed 0
    else d.takePdu n f

/-- A Swijan frame, as its port hands it to the engine. -/
def Dev.swijanFrame (d : Dev) (n : Nat) (f : SwijanFrame) : Dev :=
  if d.chip.phase ≠ .up then d
  else
    match d.leaveQueue n f.arrival with
    | (true, d) => d.takeSwijan n f
    | (false, d) => d

/-- SWIJAN_REQUEST. -/
def execSwijanRequest (n : Nat) (f : SwijanFrame) (s : State) : Host.Outcome State Fault Refusal :=
  match f.arrival with
  | .mgmt => .next (s.at_ n fun n d => d.swijanFrame n f)
  | .uplink p => onElement p 16 s fun s => s.at_ n fun n d => d.swijanFrame n f

/-- OPEN (R309): an OPEN request with KEY_ID `keyId` and DATA `data` from `source` on the management port. -/
def execOpenSession (n source keyId : Nat) (data : Bytes) (s : State) : Host.Outcome State Fault Refusal :=
  .next (s.at_ n fun n d =>
    if d.chip.phase ≠ .up then d
    else
      let d := (d.settleTimes n).settleMgmt
      let r : Route := ⟨.mgmt, source % 2 ^ 48, []⟩
      let h := [5, 0, 0, 0, 0, 0, 0, 0] ++ toBytes 2 data.length ++ [0, 0]
      match d.busy n (1440 - 36) with
      | some x => (d.bump .busyAnswers 0).replyClear n r.arrival r.dest r.tags 0 0 [(h, x)]
      | none => d.openRequest n r (keyId % 4) h data)

/-! ### The Dictionary Serial Port (R315) -/

/-- The request of the port waits for its response. -/
def Dev.dspPending (d : Dev) : Bool :=
  match d.mgmt.held with
  | some h => h.session == none
  | none => false

/-- A REQUEST frame is whole and its CRC is right. -/
def dspGood (b : Bytes) : Bool :=
  let len := numAt b 10 2
  decide (len ≤ 4096) && b.length == 16 + (len + 3) / 4 * 4 && byteAt b 0 == 1 &&
    crc16 (b.take (b.length - 2)) == numAt b (b.length - 2) 2

/-- DSP_REQUEST. -/
def execDspRequest (n : Nat) (b : Bytes) (s : State) : Host.Outcome State Fault Refusal :=
  .next (s.at_ n fun n d =>
    if d.chip.phase ≠ .up then d
    else if d.dspPending then d.bump .dspOverrun 0
    else if !dspGood b then
      ({ d with mgmt := { d.mgmt with dspReady := 0x3C, dspResponse := [] } }).bump .dspCrcErr 0
    else
      let h := (b.drop 2).take 12
      let c : Cmd := ⟨byteAt h 0, numAt h 2 2, numAt h 4 2, byteAt h 6, (b.drop 14).take (numAt h 8 2)⟩
      let x := (d.settleTimes n).settleMgmt.transact n .serial (soleSpace .serial) c
      let d := { x.2 with mgmt := { x.2.mgmt with dspSeq := byteAt b 1, dspReady := 0, dspResponse := [] } }
      match x.1 with
      | some r => (d.dspAnswer (h, r)).startPending n
      | none =>
        { d with
          mgmt := { d.mgmt with held := some ⟨.mgmt, 0, [], none, none, 0, [], h, []⟩ },
          mate := { d.mate with relinquishMaster := none } })

/-- DSP_FETCH: what the host reads, CRC-16 over all bytes before it. -/
def execDspFetch (n : Nat) (s : State) : Host.Outcome State Fault Refusal :=
  .next (s.at_ n fun _ d =>
    if d.chip.phase ≠ .up then d.emit (.dspReply [0xFF, 0xFF])
    else if d.mgmt.dspReady = 0xA5 then
      let b := [0, 0xA5, d.mgmt.dspSeq] ++ d.mgmt.dspResponse
      d.emit (.dspReply (b ++ toBytes 2 (crc16 b)))
    else
      let r := d.mgmt.dspReady
      ({ d with mgmt := { d.mgmt with dspReady := if r = 0x3C then 0x0F else r } }).emit (.dspReply [0, r]))

end Sys2Proof.Machine
end

