-- ==== Sys2Proof/Machine/Dispatch.lean ====
section
/-!
DEFINITION. The effect of each command: one arm per constructor, each one direct call of its meaning.
-/
namespace Sys2Proof.Machine
open Sys2Proof

/-- What a command does to everything but the queue of waiting commands. -/
def exec (i : Instr) (s : State) : Host.Outcome State Fault Refusal :=
  match i with
  | .frameStart => Sys2Proof.Machine.execFrameStart s
  | .creditSnapshot p => Sys2Proof.Machine.execCreditSnapshot p s
  | .buildStart p late => Sys2Proof.Machine.execBuildStart p late s
  | .mapSeal p => Sys2Proof.Machine.execMapSeal p s
  | .fanOutDeadline p late => Sys2Proof.Machine.execFanOutDeadline p late s
  | .headerLock p => Sys2Proof.Machine.execHeaderLock p s
  | .mirrorDeadline => Sys2Proof.Machine.execMirrorDeadline s
  | .heartbeatMidframe => Sys2Proof.Machine.execHeartbeatMidframe s
  | .bridgeLockLoss n d up down => Sys2Proof.Machine.execBridgeLockLoss n d up down s
  | .profileWrite n m q v => Sys2Proof.Machine.execProfileWrite n m q v s
  | .profileChangeDarken q => Sys2Proof.Machine.execProfileChangeDarken q s
  | .profileChangeApply n q => Sys2Proof.Machine.execProfileChangeApply n q s
  | .profileChangeComplete n q => Sys2Proof.Machine.execProfileChangeComplete n q s
  | .sliceWake n t => Sys2Proof.Machine.execSliceWake n t s
  | .sliceGate n t => Sys2Proof.Machine.execSliceGate n t s
  | .rxrstPulse n t b => Sys2Proof.Machine.execRxrstPulse n t b s
  | .burstReceive n t b o => Sys2Proof.Machine.execBurstReceive n t b o s
  | .treeDefectDeclare n t d => Sys2Proof.Machine.execTreeDefectDeclare n t d s
  | .treeDefectClear n t d => Sys2Proof.Machine.execTreeDefectClear n t d s
  | .terminalDefectDeclare n g d => Sys2Proof.Machine.execTerminalDefectDeclare n g d s
  | .terminalDefectClear n g d => Sys2Proof.Machine.execTerminalDefectClear n g d s
  | .mateDefectDeclare n d => Sys2Proof.Machine.execMateDefectDeclare n d s
  | .mateDefectClear n d => Sys2Proof.Machine.execMateDefectClear n d s
  | .indicationRepeat n t => Sys2Proof.Machine.execIndicationRepeat n t s
  | .pmSecondEnd n => Sys2Proof.Machine.execPmSecondEnd n s
  | .pmSecondCommit n => Sys2Proof.Machine.execPmSecondCommit n s
  | .ospHostMessage n p wire => Sys2Proof.Machine.execOspHostMessage n p wire s
  | .ospCredit n t => Sys2Proof.Machine.execOspCredit n t s
  | .treeEnableWrite n m t v => Sys2Proof.Machine.execTreeEnableWrite n m t v s
  | .lineModeWrite n m t v => Sys2Proof.Machine.execLineModeWrite n m t v s
  | .bpValidWrite n m e v => Sys2Proof.Machine.execBpValidWrite n m e v s
  | .discoveryWindowOpen n t => Sys2Proof.Machine.execDiscoveryWindowOpen n t s
  | .discListAgeOut n e => Sys2Proof.Machine.execDiscListAgeOut n e s
  | .rangeRetry n g => Sys2Proof.Machine.execRangeRetry n g s
  | .rangeTimeout n g => Sys2Proof.Machine.execRangeTimeout n g s
  | .lostTimeout n g => Sys2Proof.Machine.execLostTimeout n g s
  | .jumpRerange n g => Sys2Proof.Machine.execJumpRerange n g s
  | .terminalDeactivate n m g => Sys2Proof.Machine.execTerminalDeactivate n m g s
  | .terminalQuarantine n m g => Sys2Proof.Machine.execTerminalQuarantine n m g s
  | .terminalRelease n m g => Sys2Proof.Machine.execTerminalRelease n m g s
  | .rogueWatch n t o => Sys2Proof.Machine.execRogueWatch n t o s
  | .reportMissLimit n a => Sys2Proof.Machine.execReportMissLimit n a s
  | .keyNext n m k data => Sys2Proof.Machine.execKeyNext n m k data s
  | .keyErase n m k => Sys2Proof.Machine.execKeyErase n m k s
  | .keyRetire n k => Sys2Proof.Machine.execKeyRetire n k s
  | .jobQueued n q j => Sys2Proof.Machine.execJobQueued n q j s
  | .jobResume n q id => Sys2Proof.Machine.execJobResume n q id s
  | .jobPromote n q id => Sys2Proof.Machine.execJobPromote n q id s
  | .downstreamFrameEncipher n t sfc => Sys2Proof.Machine.execDownstreamFrameEncipher n t sfc s
  | .entropyFail n => Sys2Proof.Machine.execEntropyFail n s
  | .loadGo n m => Sys2Proof.Machine.execLoadGo n m s
  | .loadComplete n => Sys2Proof.Machine.execLoadComplete n s
  | .mateFrameReceive n f => Sys2Proof.Machine.execMateFrameReceive n f s
  | .macFrameReceive n p bytes fcsGood => Sys2Proof.Machine.execMacFrameReceive n p bytes fcsGood s
  | .classify n p => Sys2Proof.Machine.execClassify n p s
  | .fragAgeOut n k => Sys2Proof.Machine.execFragAgeOut n k s
  | .graphDefault n m => Sys2Proof.Machine.execGraphDefault n m s
  | .commit n m => Sys2Proof.Machine.execCommit n m s
  | .commitSwap n => Sys2Proof.Machine.execCommitSwap n s
  | .commitTimeout n => Sys2Proof.Machine.execCommitTimeout n s
  | .discard n m => Sys2Proof.Machine.execDiscard n m s
  | .learnRequest n => Sys2Proof.Machine.execLearnRequest n s
  | .stashRetry n => Sys2Proof.Machine.execStashRetry n s
  | .holdSweep n => Sys2Proof.Machine.execHoldSweep n s
  | .agerVisit n rec => Sys2Proof.Machine.execAgerVisit n rec s
  | .addrInsertStatic n m rec => Sys2Proof.Machine.execAddrInsertStatic n m rec s
  | .addrInsertDynamic n m rec => Sys2Proof.Machine.execAddrInsertDynamic n m rec s
  | .addrDelete n m rec => Sys2Proof.Machine.execAddrDelete n m rec s
  | .addrFlush n m data => Sys2Proof.Machine.execAddrFlush n m data s
  | .tableSweep n b differs restarts => Sys2Proof.Machine.execTableSweep n b differs restarts s
  | .freeModeWrite n m v => Sys2Proof.Machine.execFreeModeWrite n m v s
  | .leakSweep n => Sys2Proof.Machine.execLeakSweep n s
  | .auditGo n m => Sys2Proof.Machine.execAuditGo n m s
  | .auditDone n => Sys2Proof.Machine.execAuditDone n s
  | .portHoldExpiry n p => Sys2Proof.Machine.execPortHoldExpiry n p s
  | .termHoldExpiry n g => Sys2Proof.Machine.execTermHoldExpiry n g s
  | .membersWrite n m a v => Sys2Proof.Machine.execMembersWrite n m a v s
  | .lagRevert n a p => Sys2Proof.Machine.execLagRevert n a p s
  | .portWidthWrite n m v => Sys2Proof.Machine.execPortWidthWrite n m v s
  | .scheduleDecision n e => Sys2Proof.Machine.execScheduleDecision n e s
  | .peakReset n m => Sys2Proof.Machine.execPeakReset n m s
  | .rateSet n m inc c1 => Sys2Proof.Machine.execRateSet n m inc c1 s
  | .rateChangeApply n => Sys2Proof.Machine.execRateChangeApply n s
  | .stepAdd n m value c1 => Sys2Proof.Machine.execStepAdd n m value c1 s
  | .stepSubtract n m value c1 => Sys2Proof.Machine.execStepSubtract n m value c1 s
  | .stepSetTime n m value c1 => Sys2Proof.Machine.execStepSetTime n m value c1 s
  | .stepApply n => Sys2Proof.Machine.execStepApply n s
  | .servoAlive n m => Sys2Proof.Machine.execServoAlive n m s
  | .timeHoldover n => Sys2Proof.Machine.execTimeHoldover n s
  | .capture n m => Sys2Proof.Machine.execCapture n m s
  | .ptpTx n m data => Sys2Proof.Machine.execPtpTx n m data s
  | .todUpdate n t => Sys2Proof.Machine.execTodUpdate n t s
  | .ppsOutEdge n => Sys2Proof.Machine.execPpsOutEdge n s
  | .ppsInEdge n ps => Sys2Proof.Machine.execPpsInEdge n ps s
  | .rclkSrcWrite n m v => Sys2Proof.Machine.execRclkSrcWrite n m v s
  | .rclkRestore n => Sys2Proof.Machine.execRclkRestore n s
  | .heartbeatReceive n h => Sys2Proof.Machine.execHeartbeatReceive n h s
  | .calibrate n m => Sys2Proof.Machine.execCalibrate n m s
  | .calibrationDone n l => Sys2Proof.Machine.execCalibrationDone n l s
  | .portEnableWrite n m p v => Sys2Proof.Machine.execPortEnableWrite n m p v s
  | .mateEnableWrite n m v => Sys2Proof.Machine.execMateEnableWrite n m v s
  | .laneStageAdvance n l r => Sys2Proof.Machine.execLaneStageAdvance n l r s
  | .detectRetry n l => Sys2Proof.Machine.execDetectRetry n l s
  | .capabilityFrameSend n p => Sys2Proof.Machine.execCapabilityFrameSend n p s
  | .laneStageTimeout n l => Sys2Proof.Machine.execLaneStageTimeout n l s
  | .exchangeWaitEnd n p => Sys2Proof.Machine.execExchangeWaitEnd n p s
  | .linkDown n k => Sys2Proof.Machine.execLinkDown n k s
  | .idleEntry n l => Sys2Proof.Machine.execIdleEntry n l s
  | .idleExit n l => Sys2Proof.Machine.execIdleExit n l s
  | .pauseExpiry n p => Sys2Proof.Machine.execPauseExpiry n p s
  | .pauseTx n p => Sys2Proof.Machine.execPauseTx n p s
  | .pauseRepeat n p => Sys2Proof.Machine.execPauseRepeat n p s
  | .pauseStorm n p => Sys2Proof.Machine.execPauseStorm n p s
  | .pauseStormEnd n p => Sys2Proof.Machine.execPauseStormEnd n p s
  | .fecDegradeCheck n l symbols corrected uncorrectable => Sys2Proof.Machine.execFecDegradeCheck n l symbols corrected uncorrectable s
  | .eyeScan n m l => Sys2Proof.Machine.execEyeScan n m l s
  | .redundancyEnableWrite n m v => Sys2Proof.Machine.execRedundancyEnableWrite n m v s
  | .joinDecide n => Sys2Proof.Machine.execJoinDecide n s
  | .relinquish n c => Sys2Proof.Machine.execRelinquish n c s
  | .rejoin n m => Sys2Proof.Machine.execRejoin n m s
  | .relinquishRefused n => Sys2Proof.Machine.execRelinquishRefused n s
  | .heartbeatMiss n => Sys2Proof.Machine.execHeartbeatMiss n s
  | .pathSilent n p => Sys2Proof.Machine.execPathSilent n p s
  | .takeover n c => Sys2Proof.Machine.execTakeover n c s
  | .mirrorRecordApply n r => Sys2Proof.Machine.execMirrorRecordApply n r s
  | .mirrorStale n => Sys2Proof.Machine.execMirrorStale n s
  | .resync n m => Sys2Proof.Machine.execResync n m s
  | .resyncDone n => Sys2Proof.Machine.execResyncDone n s
  | .selfFence n => Sys2Proof.Machine.execSelfFence n s
  | .dualActiveFence n => Sys2Proof.Machine.execDualActiveFence n s
  | .faultOccurrence n reports => Sys2Proof.Machine.execFaultOccurrence n reports s
  | .brokenWire n collector source => Sys2Proof.Machine.execBrokenWire n collector source s
  | .faultStatusClear n m k => Sys2Proof.Machine.execFaultStatusClear n m k s
  | .ffClear n m => Sys2Proof.Machine.execFfClear n m s
  | .faultTest n m v => Sys2Proof.Machine.execFaultTest n m v s
  | .faultLevelWrite n m v => Sys2Proof.Machine.execFaultLevelWrite n m v s
  | .counterVisit n index inst c => Sys2Proof.Machine.execCounterVisit n index inst c s
  | .snapGo n m mask => Sys2Proof.Machine.execSnapGo n m mask s
  | .snapReady n => Sys2Proof.Machine.execSnapReady n s
  | .counterClear n m mask => Sys2Proof.Machine.execCounterClear n m mask s
  | .swijanRequest n f => Sys2Proof.Machine.execSwijanRequest n f s
  | .dspRequest n frame => Sys2Proof.Machine.execDspRequest n frame s
  | .dspFetch n => Sys2Proof.Machine.execDspFetch n s
  | .read n m index inst sub => Sys2Proof.Machine.execRead n m index inst sub s
  | .write n m index inst sub data => Sys2Proof.Machine.execWrite n m index inst sub data s
  | .bulkRead n m index inst sub first count => Sys2Proof.Machine.execBulkRead n m index inst sub first count s
  | .bulkWrite n m index inst sub first count data => Sys2Proof.Machine.execBulkWrite n m index inst sub first count data s
  | .openSession n source keyId data => Sys2Proof.Machine.execOpenSession n source keyId data s
  | .close n m => Sys2Proof.Machine.execClose n m s
  | .nop n m => Sys2Proof.Machine.execNop n m s
  | .lockWrite n m index inst v => Sys2Proof.Machine.execLockWrite n m index inst v s
  | .lockExpiry n index inst => Sys2Proof.Machine.execLockExpiry n index inst s
  | .leaseWrite n m v => Sys2Proof.Machine.execLeaseWrite n m v s
  | .leaseExpiry n => Sys2Proof.Machine.execLeaseExpiry n s
  | .sessionIdleExpiry n k => Sys2Proof.Machine.execSessionIdleExpiry n k s
  | .pendingSessionExpiry n k => Sys2Proof.Machine.execPendingSessionExpiry n k s
  | .sessionClose n m k => Sys2Proof.Machine.execSessionClose n m k s
  | .refLost n => Sys2Proof.Machine.execRefLost n s
  | .refGood n r => Sys2Proof.Machine.execRefGood n r s
  | .refRelock n r residual => Sys2Proof.Machine.execRefRelock n r residual s
  | .refHoldoverFault n => Sys2Proof.Machine.execRefHoldoverFault n s
  | .refSelectWrite n m v => Sys2Proof.Machine.execRefSelectWrite n m v s
  | .pdEnableWrite n m w v => Sys2Proof.Machine.execPdEnableWrite n m w v s
  | .pdOnDone n w => Sys2Proof.Machine.execPdOnDone n w s
  | .powerDomainFault n w => Sys2Proof.Machine.execPowerDomainFault n w s
  | .sidebandFrame n q sbdi => Sys2Proof.Machine.execSidebandFrame n q sbdi s
  | .powerOnReset n ns => Sys2Proof.Machine.execPowerOnReset n ns s
  | .dictionaryReady n => Sys2Proof.Machine.execDictionaryReady n s
  | .warmReset n m => Sys2Proof.Machine.execWarmReset n m s
  | .dieReset n m d => Sys2Proof.Machine.execDieReset n m d s
  | .quadReset n m q => Sys2Proof.Machine.execQuadReset n m q s
  | .treeReset n m t => Sys2Proof.Machine.execTreeReset n m t s
  | .treeRestart n m t => Sys2Proof.Machine.execTreeRestart n m t s
  | .resetEnd n r => Sys2Proof.Machine.execResetEnd n r s
  | .treeRelight n t => Sys2Proof.Machine.execTreeRelight n t s
  | .bridgeRelock n d => Sys2Proof.Machine.execBridgeRelock n d s
  | .entropyRecovery n => Sys2Proof.Machine.execEntropyRecovery n s
  | .porstRelease n straps => Sys2Proof.Machine.execPorstRelease n straps s
  | .mgmtLinkUp n => Sys2Proof.Machine.execMgmtLinkUp n s
  | .mgmtLinkDown n => Sys2Proof.Machine.execMgmtLinkDown n s
  | .otherRefLost n r => Sys2Proof.Machine.execOtherRefLost n r s
  | .relinquishDrainEnd n => Sys2Proof.Machine.execRelinquishDrainEnd n s
  | .eyeScanDone n l height width => Sys2Proof.Machine.execEyeScanDone n l height width s
  | .addrFlushDone n => Sys2Proof.Machine.execAddrFlushDone n s
  | .resyncFailed n => Sys2Proof.Machine.execResyncFailed n s

end Sys2Proof.Machine
end

