-- ==== Sys2Proof/WellFormed.lean ====
section
/-!
DEFINITION. The checks of a command's operands: every number names an element of the device (R14, R119, R282, R319,
R356), and every byte of a byte string is below 256 (R5). Values and addresses that a master sends are not checked
here: the dictionary answers for them (R303).
-/
namespace Sys2Proof

/-! ### Numbers that name an element -/

/-- A fixed point of the frame, or of one of its eight sub-periods (R26). -/
def Machine.pointExists : MapPoint → Bool
  | .frame => true
  | .sub k => decide (k < 8)

/-- A receive port: one of the sixteen uplink ports, or the management port (R14). -/
def Machine.rxPortExists : RxPort → Bool
  | .uplink p => decide (p < 16)
  | .mgmt => true

/-- What goes down: one of the sixteen uplink ports, or the mate link. -/
def Machine.linkExists : LinkId → Bool
  | .port p => decide (p < 16)
  | .mate => true

/-- The master of a relinquish that a master commands exists. -/
def Machine.causeExists : RelinquishCause → Bool
  | .command m => Machine.masterExists m
  | .fault => true
  | .reset => true

/-- Every number of the command names an element of the device. -/
def Instr.namesElements (i : Instr) : Bool :=
  match i with
  | .frameStart => true
  | .creditSnapshot p => Machine.pointExists p
  | .buildStart p _ => Machine.pointExists p
  | .mapSeal p => Machine.pointExists p
  | .fanOutDeadline p _ => Machine.pointExists p
  | .headerLock p => Machine.pointExists p
  | .mirrorDeadline => true
  | .heartbeatMidframe => true
  | .bridgeLockLoss _ d _ _ => decide (d < 2)
  | .profileWrite _ m _ _ => Machine.masterExists m
  | .profileChangeDarken q => decide (q < 8)
  | .profileChangeApply _ q => decide (q < 8)
  | .profileChangeComplete _ q => decide (q < 8)
  | .sliceWake _ t => decide (t < 32)
  | .sliceGate _ t => decide (t < 32)
  | .rxrstPulse _ t _ => decide (t < 32)
  | .burstReceive _ t _ _ => decide (t < 32)
  | .treeDefectDeclare _ t _ => decide (t < 32)
  | .treeDefectClear _ t _ => decide (t < 32)
  | .terminalDefectDeclare _ g _ => decide (g < 16384)
  | .terminalDefectClear _ g _ => decide (g < 16384)
  | .mateDefectDeclare _ _ => true
  | .mateDefectClear _ _ => true
  | .indicationRepeat _ t => decide (t < 32)
  | .pmSecondEnd _ => true
  | .pmSecondCommit _ => true
  | .ospHostMessage _ p _ => decide (p < 2)
  | .ospCredit _ t => decide (t < 32)
  | .treeEnableWrite _ m _ _ => Machine.masterExists m
  | .lineModeWrite _ m _ _ => Machine.masterExists m
  | .bpValidWrite _ m _ _ => Machine.masterExists m
  | .discoveryWindowOpen _ t => decide (t < 32)
  | .discListAgeOut _ i => decide (i < 1024)
  | .rangeRetry _ g => decide (g < 16384)
  | .rangeTimeout _ g => decide (g < 16384)
  | .lostTimeout _ g => decide (g < 16384)
  | .jumpRerange _ g => decide (g < 16384)
  | .terminalDeactivate _ m _ => Machine.masterExists m
  | .terminalQuarantine _ m _ => Machine.masterExists m
  | .terminalRelease _ m _ => Machine.masterExists m
  | .rogueWatch _ t _ => decide (t < 32)
  | .reportMissLimit _ a => decide (a < 65536)
  | .keyNext _ m _ _ => Machine.masterExists m
  | .keyErase _ m _ => Machine.masterExists m
  | .keyRetire _ k => decide (k < 32838)
  | .jobQueued _ q _ => decide (q < 8)
  | .jobResume _ q _ => decide (q < 8)
  | .jobPromote _ q _ => decide (q < 8)
  | .downstreamFrameEncipher _ t _ => decide (t < 32)
  | .entropyFail _ => true
  | .loadGo _ m => Machine.masterExists m
  | .loadComplete _ => true
  | .mateFrameReceive _ _ => true
  | .macFrameReceive _ p _ _ => Machine.rxPortExists p
  | .classify _ p => decide (p < 16)
  | .fragAgeOut _ k => decide (k < 8192)
  | .graphDefault _ m => Machine.masterExists m
  | .commit _ m => Machine.masterExists m
  | .commitSwap _ => true
  | .commitTimeout _ => true
  | .discard _ m => Machine.masterExists m
  | .learnRequest _ => true
  | .stashRetry _ => true
  | .holdSweep _ => true
  | .agerVisit _ rec => decide (rec < 524352)
  | .addrInsertStatic _ m _ => Machine.masterExists m
  | .addrInsertDynamic _ m _ => Machine.masterExists m
  | .addrDelete _ m _ => Machine.masterExists m
  | .addrFlush _ m _ => Machine.masterExists m
  | .tableSweep _ b _ _ => (Machine.sweptBlock b).isSome
  | .freeModeWrite _ m _ => Machine.masterExists m
  | .leakSweep _ => true
  | .auditGo _ m => Machine.masterExists m
  | .auditDone _ => true
  | .portHoldExpiry _ p => decide (p < 16)
  | .termHoldExpiry _ g => decide (g < 16384)
  | .membersWrite _ m _ _ => Machine.masterExists m
  | .lagRevert _ a p => decide (a < 8) && decide (p < 16)
  | .portWidthWrite _ m _ => Machine.masterExists m
  | .scheduleDecision _ e => Machine.egressExists e
  | .peakReset _ m => Machine.masterExists m
  | .rateSet _ m _ _ => Machine.masterExists m
  | .rateChangeApply _ => true
  | .stepAdd _ m _ _ => Machine.masterExists m
  | .stepSubtract _ m _ _ => Machine.masterExists m
  | .stepSetTime _ m _ _ => Machine.masterExists m
  | .stepApply _ => true
  | .servoAlive _ m => Machine.masterExists m
  | .timeHoldover _ => true
  | .capture _ m => Machine.masterExists m
  | .ptpTx _ m _ => Machine.masterExists m
  | .todUpdate _ t => decide (t < 32)
  | .ppsOutEdge _ => true
  | .ppsInEdge _ _ => true
  | .rclkSrcWrite _ m _ => Machine.masterExists m
  | .rclkRestore _ => true
  | .heartbeatReceive _ _ => true
  | .calibrate _ m => Machine.masterExists m
  | .calibrationDone _ l => decide (l < 20)
  | .portEnableWrite _ m _ _ => Machine.masterExists m
  | .mateEnableWrite _ m _ => Machine.masterExists m
  | .laneStageAdvance _ l _ => decide (l < 20)
  | .detectRetry _ l => decide (l < 20)
  | .capabilityFrameSend _ p => decide (p < 16)
  | .laneStageTimeout _ l => decide (l < 20)
  | .exchangeWaitEnd _ p => decide (p < 17)
  | .linkDown _ k => Machine.linkExists k
  | .idleEntry _ l => decide (l < 20)
  | .idleExit _ l => decide (l < 20)
  | .pauseExpiry _ p => decide (p < 16)
  | .pauseTx _ p => decide (p < 16)
  | .pauseRepeat _ p => decide (p < 16)
  | .pauseStorm _ p => decide (p < 16)
  | .pauseStormEnd _ p => decide (p < 16)
  | .fecDegradeCheck _ l _ _ _ => decide (l < 20)
  | .eyeScan _ m _ => Machine.masterExists m
  | .redundancyEnableWrite _ m _ => Machine.masterExists m
  | .joinDecide _ => true
  | .relinquish _ c => Machine.causeExists c
  | .rejoin _ m => Machine.masterExists m
  | .relinquishRefused _ => true
  | .heartbeatMiss _ => true
  | .pathSilent _ _ => true
  | .takeover _ _ => true
  | .mirrorRecordApply _ r => Machine.recordExists r
  | .mirrorStale _ => true
  | .resync _ m => Machine.masterExists m
  | .resyncDone _ => true
  | .selfFence _ => true
  | .dualActiveFence _ => true
  | .faultOccurrence _ reports => reports.all Machine.reportExists
  | .brokenWire _ collector source => decide (source < 448) && [290, 298, 428, 444, 445].contains collector
  | .faultStatusClear _ m _ => Machine.masterExists m
  | .ffClear _ m => Machine.masterExists m
  | .faultTest _ m _ => Machine.masterExists m
  | .faultLevelWrite _ m _ => Machine.masterExists m
  | .counterVisit _ index inst c => Machine.isCounter index inst c.sub
  | .snapGo _ m _ => Machine.masterExists m
  | .snapReady _ => true
  | .counterClear _ m _ => Machine.masterExists m
  | .swijanRequest _ f => Machine.rxPortExists f.arrival
  | .dspRequest _ _ => true
  | .dspFetch _ => true
  | .read _ m _ _ _ => Machine.masterExists m
  | .write _ m _ _ _ _ => Machine.masterExists m
  | .bulkRead _ m _ _ _ _ _ => Machine.masterExists m
  | .bulkWrite _ m _ _ _ _ _ _ => Machine.masterExists m
  | .openSession _ _ _ _ => true
  | .close _ m => Machine.masterExists m
  | .nop _ m => Machine.masterExists m
  | .lockWrite _ m _ _ _ => Machine.masterExists m
  | .lockExpiry _ _ _ => true
  | .leaseWrite _ m _ => Machine.masterExists m
  | .leaseExpiry _ => true
  | .sessionIdleExpiry _ k => decide (1 ≤ k) && decide (k ≤ 16)
  | .pendingSessionExpiry _ k => decide (1 ≤ k) && decide (k ≤ 16)
  | .sessionClose _ m _ => Machine.masterExists m
  | .refLost _ => true
  | .refGood _ r => decide (r < 2)
  | .refRelock _ r _ => decide (r < 2)
  | .refHoldoverFault _ => true
  | .refSelectWrite _ m _ => Machine.masterExists m
  | .pdEnableWrite _ m _ _ => Machine.masterExists m
  | .pdOnDone _ w => decide (w < 20)
  | .powerDomainFault _ w => decide (w < 20)
  | .sidebandFrame _ q _ => decide (q < 8)
  | .powerOnReset _ _ => true
  | .dictionaryReady _ => true
  | .warmReset _ m => Machine.masterExists m
  | .dieReset _ m _ => Machine.masterExists m
  | .quadReset _ m _ => Machine.masterExists m
  | .treeReset _ m _ => Machine.masterExists m
  | .treeRestart _ m _ => Machine.masterExists m
  | .resetEnd _ r => Machine.resetPartExists r
  | .treeRelight _ t => decide (t < 32)
  | .bridgeRelock _ d => decide (d < 2)
  | .entropyRecovery _ => true
  | .porstRelease _ _ => true
  | .mgmtLinkUp _ => true
  | .mgmtLinkDown _ => true
  | .otherRefLost _ r => decide (r < 2)
  | .relinquishDrainEnd _ => true
  | .eyeScanDone _ l _ _ => decide (l < 20)
  | .addrFlushDone _ => true
  | .resyncFailed _ => true

/-! ### Byte strings -/

/-- Every element of a byte string is below 256. -/
def areBytes (bs : Bytes) : Bool := bs.all fun x => decide (x < 256)

/-- The byte strings of what a burst carried: message payloads and frame bytes. -/
def BurstObs.areBytes (o : BurstObs) : Bool :=
  (o.messages.all fun m => Sys2Proof.areBytes m.payload) &&
  o.intervals.all fun v => v.cands.all fun c => Sys2Proof.areBytes c.frame.bytes

/-- The byte string of a heartbeat of the lanes. -/
def HeartbeatIn.areBytes : HeartbeatIn → Bool
  | .lanes f => Sys2Proof.areBytes f.payload
  | .pins _ => true

/-- The byte string of a mirrored write. -/
def MirrorRecord.areBytes : MirrorRecord → Bool
  | .objectWrite _ _ _ _ _ data => Sys2Proof.areBytes data
  | .windowWrite _ _ _ _ _ data => Sys2Proof.areBytes data
  | .commit _ => true
  | .profile _ _ _ => true
  | .terminal _ _ _ _ _ _ => true
  | .staticAddress _ _ _ => true
  | .pathLatency _ _ _ _ _ _ => true
  | .rate _ _ _ => true
  | .step _ _ _ _ => true
  | .keyRetired _ _ => true
  | .keySlot _ _ _ _ _ _ _ _ => true
  | .model _ _ _ _ => true
  | .map _ _ => true

/-- Every byte string of the command is one. -/
def Instr.bytesOk (i : Instr) : Bool :=
  match i with
  | .frameStart => true
  | .creditSnapshot _ => true
  | .buildStart _ _ => true
  | .mapSeal _ => true
  | .fanOutDeadline _ _ => true
  | .headerLock _ => true
  | .mirrorDeadline => true
  | .heartbeatMidframe => true
  | .bridgeLockLoss _ _ _ _ => true
  | .profileWrite _ _ _ _ => true
  | .profileChangeDarken _ => true
  | .profileChangeApply _ _ => true
  | .profileChangeComplete _ _ => true
  | .sliceWake _ _ => true
  | .sliceGate _ _ => true
  | .rxrstPulse _ _ _ => true
  | .burstReceive _ _ _ o => o.areBytes
  | .treeDefectDeclare _ _ _ => true
  | .treeDefectClear _ _ _ => true
  | .terminalDefectDeclare _ _ _ => true
  | .terminalDefectClear _ _ _ => true
  | .mateDefectDeclare _ _ => true
  | .mateDefectClear _ _ => true
  | .indicationRepeat _ _ => true
  | .pmSecondEnd _ => true
  | .pmSecondCommit _ => true
  | .ospHostMessage _ _ wire => areBytes wire
  | .ospCredit _ _ => true
  | .treeEnableWrite _ _ _ _ => true
  | .lineModeWrite _ _ _ _ => true
  | .bpValidWrite _ _ _ _ => true
  | .discoveryWindowOpen _ _ => true
  | .discListAgeOut _ _ => true
  | .rangeRetry _ _ => true
  | .rangeTimeout _ _ => true
  | .lostTimeout _ _ => true
  | .jumpRerange _ _ => true
  | .terminalDeactivate _ _ _ => true
  | .terminalQuarantine _ _ _ => true
  | .terminalRelease _ _ _ => true
  | .rogueWatch _ _ _ => true
  | .reportMissLimit _ _ => true
  | .keyNext _ _ _ data => areBytes data
  | .keyErase _ _ _ => true
  | .keyRetire _ _ => true
  | .jobQueued _ _ _ => true
  | .jobResume _ _ _ => true
  | .jobPromote _ _ _ => true
  | .downstreamFrameEncipher _ _ _ => true
  | .entropyFail _ => true
  | .loadGo _ _ => true
  | .loadComplete _ => true
  | .mateFrameReceive _ f => areBytes f.payload
  | .macFrameReceive _ _ bytes _ => areBytes bytes
  | .classify _ _ => true
  | .fragAgeOut _ _ => true
  | .graphDefault _ _ => true
  | .commit _ _ => true
  | .commitSwap _ => true
  | .commitTimeout _ => true
  | .discard _ _ => true
  | .learnRequest _ => true
  | .stashRetry _ => true
  | .holdSweep _ => true
  | .agerVisit _ _ => true
  | .addrInsertStatic _ _ _ => true
  | .addrInsertDynamic _ _ _ => true
  | .addrDelete _ _ _ => true
  | .addrFlush _ _ data => areBytes data
  | .tableSweep _ _ _ _ => true
  | .freeModeWrite _ _ _ => true
  | .leakSweep _ => true
  | .auditGo _ _ => true
  | .auditDone _ => true
  | .portHoldExpiry _ _ => true
  | .termHoldExpiry _ _ => true
  | .membersWrite _ _ _ _ => true
  | .lagRevert _ _ _ => true
  | .portWidthWrite _ _ _ => true
  | .scheduleDecision _ _ => true
  | .peakReset _ _ => true
  | .rateSet _ _ _ _ => true
  | .rateChangeApply _ => true
  | .stepAdd _ _ _ _ => true
  | .stepSubtract _ _ _ _ => true
  | .stepSetTime _ _ _ _ => true
  | .stepApply _ => true
  | .servoAlive _ _ => true
  | .timeHoldover _ => true
  | .capture _ _ => true
  | .ptpTx _ _ data => areBytes data
  | .todUpdate _ _ => true
  | .ppsOutEdge _ => true
  | .ppsInEdge _ _ => true
  | .rclkSrcWrite _ _ _ => true
  | .rclkRestore _ => true
  | .heartbeatReceive _ h => h.areBytes
  | .calibrate _ _ => true
  | .calibrationDone _ _ => true
  | .portEnableWrite _ _ _ _ => true
  | .mateEnableWrite _ _ _ => true
  | .laneStageAdvance _ _ _ => true
  | .detectRetry _ _ => true
  | .capabilityFrameSend _ _ => true
  | .laneStageTimeout _ _ => true
  | .exchangeWaitEnd _ _ => true
  | .linkDown _ _ => true
  | .idleEntry _ _ => true
  | .idleExit _ _ => true
  | .pauseExpiry _ _ => true
  | .pauseTx _ _ => true
  | .pauseRepeat _ _ => true
  | .pauseStorm _ _ => true
  | .pauseStormEnd _ _ => true
  | .fecDegradeCheck _ _ _ _ _ => true
  | .eyeScan _ _ _ => true
  | .redundancyEnableWrite _ _ _ => true
  | .joinDecide _ => true
  | .relinquish _ _ => true
  | .rejoin _ _ => true
  | .relinquishRefused _ => true
  | .heartbeatMiss _ => true
  | .pathSilent _ _ => true
  | .takeover _ _ => true
  | .mirrorRecordApply _ r => r.areBytes
  | .mirrorStale _ => true
  | .resync _ _ => true
  | .resyncDone _ => true
  | .selfFence _ => true
  | .dualActiveFence _ => true
  | .faultOccurrence _ _ => true
  | .brokenWire _ _ _ => true
  | .faultStatusClear _ _ _ => true
  | .ffClear _ _ => true
  | .faultTest _ _ _ => true
  | .faultLevelWrite _ _ _ => true
  | .counterVisit _ _ _ _ => true
  | .snapGo _ _ _ => true
  | .snapReady _ => true
  | .counterClear _ _ _ => true
  | .swijanRequest _ f => areBytes f.tags && areBytes f.body
  | .dspRequest _ frame => areBytes frame
  | .dspFetch _ => true
  | .read _ _ _ _ _ => true
  | .write _ _ _ _ _ data => areBytes data
  | .bulkRead _ _ _ _ _ _ _ => true
  | .bulkWrite _ _ _ _ _ _ _ data => areBytes data
  | .openSession _ _ _ data => areBytes data
  | .close _ _ => true
  | .nop _ _ => true
  | .lockWrite _ _ _ _ _ => true
  | .lockExpiry _ _ _ => true
  | .leaseWrite _ _ _ => true
  | .leaseExpiry _ => true
  | .sessionIdleExpiry _ _ => true
  | .pendingSessionExpiry _ _ => true
  | .sessionClose _ _ _ => true
  | .refLost _ => true
  | .refGood _ _ => true
  | .refRelock _ _ _ => true
  | .refHoldoverFault _ => true
  | .refSelectWrite _ _ _ => true
  | .pdEnableWrite _ _ _ _ => true
  | .pdOnDone _ _ => true
  | .powerDomainFault _ _ => true
  | .sidebandFrame _ _ _ => true
  | .powerOnReset _ _ => true
  | .dictionaryReady _ => true
  | .warmReset _ _ => true
  | .dieReset _ _ _ => true
  | .quadReset _ _ _ => true
  | .treeReset _ _ _ => true
  | .treeRestart _ _ _ => true
  | .resetEnd _ _ => true
  | .treeRelight _ _ => true
  | .bridgeRelock _ _ => true
  | .entropyRecovery _ => true
  | .porstRelease _ _ => true
  | .mgmtLinkUp _ => true
  | .mgmtLinkDown _ => true
  | .otherRefLost _ _ => true
  | .relinquishDrainEnd _ => true
  | .eyeScanDone _ _ _ _ => true
  | .addrFlushDone _ => true
  | .resyncFailed _ => true

/-- A command whose numbers name elements of the device and whose byte strings are bytes. -/
def Instr.wellFormed (i : Instr) : Bool := i.namesElements && i.bytesOk

/-! ### The tick of a command -/

/-- The tick a command carries; a fixed point of the frame carries none. -/
def Instr.tick (i : Instr) : Option Nat :=
  match i with
  | .frameStart => none
  | .creditSnapshot _ => none
  | .buildStart _ _ => none
  | .mapSeal _ => none
  | .fanOutDeadline _ _ => none
  | .headerLock _ => none
  | .mirrorDeadline => none
  | .heartbeatMidframe => none
  | .bridgeLockLoss n _ _ _ => some n
  | .profileWrite n _ _ _ => some n
  | .profileChangeDarken _ => none
  | .profileChangeApply n _ => some n
  | .profileChangeComplete n _ => some n
  | .sliceWake n _ => some n
  | .sliceGate n _ => some n
  | .rxrstPulse n _ _ => some n
  | .burstReceive n _ _ _ => some n
  | .treeDefectDeclare n _ _ => some n
  | .treeDefectClear n _ _ => some n
  | .terminalDefectDeclare n _ _ => some n
  | .terminalDefectClear n _ _ => some n
  | .mateDefectDeclare n _ => some n
  | .mateDefectClear n _ => some n
  | .indicationRepeat n _ => some n
  | .pmSecondEnd n => some n
  | .pmSecondCommit n => some n
  | .ospHostMessage n _ _ => some n
  | .ospCredit n _ => some n
  | .treeEnableWrite n _ _ _ => some n
  | .lineModeWrite n _ _ _ => some n
  | .bpValidWrite n _ _ _ => some n
  | .discoveryWindowOpen n _ => some n
  | .discListAgeOut n _ => some n
  | .rangeRetry n _ => some n
  | .rangeTimeout n _ => some n
  | .lostTimeout n _ => some n
  | .jumpRerange n _ => some n
  | .terminalDeactivate n _ _ => some n
  | .terminalQuarantine n _ _ => some n
  | .terminalRelease n _ _ => some n
  | .rogueWatch n _ _ => some n
  | .reportMissLimit n _ => some n
  | .keyNext n _ _ _ => some n
  | .keyErase n _ _ => some n
  | .keyRetire n _ => some n
  | .jobQueued n _ _ => some n
  | .jobResume n _ _ => some n
  | .jobPromote n _ _ => some n
  | .downstreamFrameEncipher n _ _ => some n
  | .entropyFail n => some n
  | .loadGo n _ => some n
  | .loadComplete n => some n
  | .mateFrameReceive n _ => some n
  | .macFrameReceive n _ _ _ => some n.tick
  | .classify n _ => some n
  | .fragAgeOut n _ => some n
  | .graphDefault n _ => some n
  | .commit n _ => some n
  | .commitSwap n => some n
  | .commitTimeout n => some n
  | .discard n _ => some n
  | .learnRequest n => some n
  | .stashRetry n => some n
  | .holdSweep n => some n
  | .agerVisit n _ => some n
  | .addrInsertStatic n _ _ => some n
  | .addrInsertDynamic n _ _ => some n
  | .addrDelete n _ _ => some n
  | .addrFlush n _ _ => some n
  | .tableSweep n _ _ _ => some n
  | .freeModeWrite n _ _ => some n
  | .leakSweep n => some n
  | .auditGo n _ => some n
  | .auditDone n => some n
  | .portHoldExpiry n _ => some n
  | .termHoldExpiry n _ => some n
  | .membersWrite n _ _ _ => some n
  | .lagRevert n _ _ => some n
  | .portWidthWrite n _ _ => some n
  | .scheduleDecision n _ => some n.tick
  | .peakReset n _ => some n
  | .rateSet n _ _ _ => some n
  | .rateChangeApply n => some n
  | .stepAdd n _ _ _ => some n
  | .stepSubtract n _ _ _ => some n
  | .stepSetTime n _ _ _ => some n
  | .stepApply n => some n
  | .servoAlive n _ => some n
  | .timeHoldover n => some n
  | .capture n _ => some n
  | .ptpTx n _ _ => some n
  | .todUpdate n _ => some n
  | .ppsOutEdge n => some n
  | .ppsInEdge n _ => some n
  | .rclkSrcWrite n _ _ => some n
  | .rclkRestore n => some n
  | .heartbeatReceive n _ => some n
  | .calibrate n _ => some n
  | .calibrationDone n _ => some n
  | .portEnableWrite n _ _ _ => some n
  | .mateEnableWrite n _ _ => some n
  | .laneStageAdvance n _ _ => some n
  | .detectRetry n _ => some n
  | .capabilityFrameSend n _ => some n
  | .laneStageTimeout n _ => some n
  | .exchangeWaitEnd n _ => some n
  | .linkDown n _ => some n
  | .idleEntry n _ => some n
  | .idleExit n _ => some n
  | .pauseExpiry n _ => some n
  | .pauseTx n _ => some n
  | .pauseRepeat n _ => some n
  | .pauseStorm n _ => some n
  | .pauseStormEnd n _ => some n
  | .fecDegradeCheck n _ _ _ _ => some n
  | .eyeScan n _ _ => some n
  | .redundancyEnableWrite n _ _ => some n
  | .joinDecide n => some n
  | .relinquish n _ => some n
  | .rejoin n _ => some n
  | .relinquishRefused n => some n
  | .heartbeatMiss n => some n
  | .pathSilent n _ => some n
  | .takeover n _ => some n
  | .mirrorRecordApply n _ => some n
  | .mirrorStale n => some n
  | .resync n _ => some n
  | .resyncDone n => some n
  | .selfFence n => some n
  | .dualActiveFence n => some n
  | .faultOccurrence n _ => some n
  | .brokenWire n _ _ => some n
  | .faultStatusClear n _ _ => some n
  | .ffClear n _ => some n
  | .faultTest n _ _ => some n
  | .faultLevelWrite n _ _ => some n
  | .counterVisit n _ _ _ => some n
  | .snapGo n _ _ => some n
  | .snapReady n => some n
  | .counterClear n _ _ => some n
  | .swijanRequest n _ => some n
  | .dspRequest n _ => some n
  | .dspFetch n => some n
  | .read n _ _ _ _ => some n
  | .write n _ _ _ _ _ => some n
  | .bulkRead n _ _ _ _ _ _ => some n
  | .bulkWrite n _ _ _ _ _ _ _ => some n
  | .openSession n _ _ _ => some n
  | .close n _ => some n
  | .nop n _ => some n
  | .lockWrite n _ _ _ _ => some n
  | .lockExpiry n _ _ => some n
  | .leaseWrite n _ _ => some n
  | .leaseExpiry n => some n
  | .sessionIdleExpiry n _ => some n
  | .pendingSessionExpiry n _ => some n
  | .sessionClose n _ _ => some n
  | .refLost n => some n
  | .refGood n _ => some n
  | .refRelock n _ _ => some n
  | .refHoldoverFault n => some n
  | .refSelectWrite n _ _ => some n
  | .pdEnableWrite n _ _ _ => some n
  | .pdOnDone n _ => some n
  | .powerDomainFault n _ => some n
  | .sidebandFrame n _ _ => some n
  | .powerOnReset n _ => some n
  | .dictionaryReady n => some n
  | .warmReset n _ => some n
  | .dieReset n _ _ => some n
  | .quadReset n _ _ => some n
  | .treeReset n _ _ => some n
  | .treeRestart n _ _ => some n
  | .resetEnd n _ => some n
  | .treeRelight n _ => some n
  | .bridgeRelock n _ => some n
  | .entropyRecovery n => some n
  | .porstRelease n _ => some n
  | .mgmtLinkUp n => some n
  | .mgmtLinkDown n => some n
  | .otherRefLost n _ => some n
  | .relinquishDrainEnd n => some n
  | .eyeScanDone n _ _ _ => some n
  | .addrFlushDone n => some n
  | .resyncFailed n => some n

/-- The same command `k` ticks later. -/
def Instr.delay (i : Instr) (k : Nat) : Instr :=
  match i with
  | .frameStart => .frameStart
  | .creditSnapshot a0 => .creditSnapshot a0
  | .buildStart a0 a1 => .buildStart a0 a1
  | .mapSeal a0 => .mapSeal a0
  | .fanOutDeadline a0 a1 => .fanOutDeadline a0 a1
  | .headerLock a0 => .headerLock a0
  | .mirrorDeadline => .mirrorDeadline
  | .heartbeatMidframe => .heartbeatMidframe
  | .bridgeLockLoss n a1 a2 a3 => .bridgeLockLoss (n + k) a1 a2 a3
  | .profileWrite n a1 a2 a3 => .profileWrite (n + k) a1 a2 a3
  | .profileChangeDarken a0 => .profileChangeDarken a0
  | .profileChangeApply n a1 => .profileChangeApply (n + k) a1
  | .profileChangeComplete n a1 => .profileChangeComplete (n + k) a1
  | .sliceWake n a1 => .sliceWake (n + k) a1
  | .sliceGate n a1 => .sliceGate (n + k) a1
  | .rxrstPulse n a1 a2 => .rxrstPulse (n + k) a1 a2
  | .burstReceive n a1 a2 a3 => .burstReceive (n + k) a1 a2 a3
  | .treeDefectDeclare n a1 a2 => .treeDefectDeclare (n + k) a1 a2
  | .treeDefectClear n a1 a2 => .treeDefectClear (n + k) a1 a2
  | .terminalDefectDeclare n a1 a2 => .terminalDefectDeclare (n + k) a1 a2
  | .terminalDefectClear n a1 a2 => .terminalDefectClear (n + k) a1 a2
  | .mateDefectDeclare n a1 => .mateDefectDeclare (n + k) a1
  | .mateDefectClear n a1 => .mateDefectClear (n + k) a1
  | .indicationRepeat n a1 => .indicationRepeat (n + k) a1
  | .pmSecondEnd n => .pmSecondEnd (n + k)
  | .pmSecondCommit n => .pmSecondCommit (n + k)
  | .ospHostMessage n a1 a2 => .ospHostMessage (n + k) a1 a2
  | .ospCredit n a1 => .ospCredit (n + k) a1
  | .treeEnableWrite n a1 a2 a3 => .treeEnableWrite (n + k) a1 a2 a3
  | .lineModeWrite n a1 a2 a3 => .lineModeWrite (n + k) a1 a2 a3
  | .bpValidWrite n a1 a2 a3 => .bpValidWrite (n + k) a1 a2 a3
  | .discoveryWindowOpen n a1 => .discoveryWindowOpen (n + k) a1
  | .discListAgeOut n a1 => .discListAgeOut (n + k) a1
  | .rangeRetry n a1 => .rangeRetry (n + k) a1
  | .rangeTimeout n a1 => .rangeTimeout (n + k) a1
  | .lostTimeout n a1 => .lostTimeout (n + k) a1
  | .jumpRerange n a1 => .jumpRerange (n + k) a1
  | .terminalDeactivate n a1 a2 => .terminalDeactivate (n + k) a1 a2
  | .terminalQuarantine n a1 a2 => .terminalQuarantine (n + k) a1 a2
  | .terminalRelease n a1 a2 => .terminalRelease (n + k) a1 a2
  | .rogueWatch n a1 a2 => .rogueWatch (n + k) a1 a2
  | .reportMissLimit n a1 => .reportMissLimit (n + k) a1
  | .keyNext n a1 a2 a3 => .keyNext (n + k) a1 a2 a3
  | .keyErase n a1 a2 => .keyErase (n + k) a1 a2
  | .keyRetire n a1 => .keyRetire (n + k) a1
  | .jobQueued n a1 a2 => .jobQueued (n + k) a1 a2
  | .jobResume n a1 a2 => .jobResume (n + k) a1 a2
  | .jobPromote n a1 a2 => .jobPromote (n + k) a1 a2
  | .downstreamFrameEncipher n a1 a2 => .downstreamFrameEncipher (n + k) a1 a2
  | .entropyFail n => .entropyFail (n + k)
  | .loadGo n a1 => .loadGo (n + k) a1
  | .loadComplete n => .loadComplete (n + k)
  | .mateFrameReceive n a1 => .mateFrameReceive (n + k) a1
  | .macFrameReceive n a1 a2 a3 => .macFrameReceive { n with tick := n.tick + k } a1 a2 a3
  | .classify n a1 => .classify (n + k) a1
  | .fragAgeOut n a1 => .fragAgeOut (n + k) a1
  | .graphDefault n a1 => .graphDefault (n + k) a1
  | .commit n a1 => .commit (n + k) a1
  | .commitSwap n => .commitSwap (n + k)
  | .commitTimeout n => .commitTimeout (n + k)
  | .discard n a1 => .discard (n + k) a1
  | .learnRequest n => .learnRequest (n + k)
  | .stashRetry n => .stashRetry (n + k)
  | .holdSweep n => .holdSweep (n + k)
  | .agerVisit n a1 => .agerVisit (n + k) a1
  | .addrInsertStatic n a1 a2 => .addrInsertStatic (n + k) a1 a2
  | .addrInsertDynamic n a1 a2 => .addrInsertDynamic (n + k) a1 a2
  | .addrDelete n a1 a2 => .addrDelete (n + k) a1 a2
  | .addrFlush n a1 a2 => .addrFlush (n + k) a1 a2
  | .tableSweep n a1 a2 a3 => .tableSweep (n + k) a1 a2 a3
  | .freeModeWrite n a1 a2 => .freeModeWrite (n + k) a1 a2
  | .leakSweep n => .leakSweep (n + k)
  | .auditGo n a1 => .auditGo (n + k) a1
  | .auditDone n => .auditDone (n + k)
  | .portHoldExpiry n a1 => .portHoldExpiry (n + k) a1
  | .termHoldExpiry n a1 => .termHoldExpiry (n + k) a1
  | .membersWrite n a1 a2 a3 => .membersWrite (n + k) a1 a2 a3
  | .lagRevert n a1 a2 => .lagRevert (n + k) a1 a2
  | .portWidthWrite n a1 a2 => .portWidthWrite (n + k) a1 a2
  | .scheduleDecision n a1 => .scheduleDecision { n with tick := n.tick + k } a1
  | .peakReset n a1 => .peakReset (n + k) a1
  | .rateSet n a1 a2 a3 => .rateSet (n + k) a1 a2 a3
  | .rateChangeApply n => .rateChangeApply (n + k)
  | .stepAdd n a1 a2 a3 => .stepAdd (n + k) a1 a2 a3
  | .stepSubtract n a1 a2 a3 => .stepSubtract (n + k) a1 a2 a3
  | .stepSetTime n a1 a2 a3 => .stepSetTime (n + k) a1 a2 a3
  | .stepApply n => .stepApply (n + k)
  | .servoAlive n a1 => .servoAlive (n + k) a1
  | .timeHoldover n => .timeHoldover (n + k)
  | .capture n a1 => .capture (n + k) a1
  | .ptpTx n a1 a2 => .ptpTx (n + k) a1 a2
  | .todUpdate n a1 => .todUpdate (n + k) a1
  | .ppsOutEdge n => .ppsOutEdge (n + k)
  | .ppsInEdge n a1 => .ppsInEdge (n + k) a1
  | .rclkSrcWrite n a1 a2 => .rclkSrcWrite (n + k) a1 a2
  | .rclkRestore n => .rclkRestore (n + k)
  | .heartbeatReceive n a1 => .heartbeatReceive (n + k) a1
  | .calibrate n a1 => .calibrate (n + k) a1
  | .calibrationDone n a1 => .calibrationDone (n + k) a1
  | .portEnableWrite n a1 a2 a3 => .portEnableWrite (n + k) a1 a2 a3
  | .mateEnableWrite n a1 a2 => .mateEnableWrite (n + k) a1 a2
  | .laneStageAdvance n a1 a2 => .laneStageAdvance (n + k) a1 a2
  | .detectRetry n a1 => .detectRetry (n + k) a1
  | .capabilityFrameSend n a1 => .capabilityFrameSend (n + k) a1
  | .laneStageTimeout n a1 => .laneStageTimeout (n + k) a1
  | .exchangeWaitEnd n a1 => .exchangeWaitEnd (n + k) a1
  | .linkDown n a1 => .linkDown (n + k) a1
  | .idleEntry n a1 => .idleEntry (n + k) a1
  | .idleExit n a1 => .idleExit (n + k) a1
  | .pauseExpiry n a1 => .pauseExpiry (n + k) a1
  | .pauseTx n a1 => .pauseTx (n + k) a1
  | .pauseRepeat n a1 => .pauseRepeat (n + k) a1
  | .pauseStorm n a1 => .pauseStorm (n + k) a1
  | .pauseStormEnd n a1 => .pauseStormEnd (n + k) a1
  | .fecDegradeCheck n a1 a2 a3 a4 => .fecDegradeCheck (n + k) a1 a2 a3 a4
  | .eyeScan n a1 a2 => .eyeScan (n + k) a1 a2
  | .redundancyEnableWrite n a1 a2 => .redundancyEnableWrite (n + k) a1 a2
  | .joinDecide n => .joinDecide (n + k)
  | .relinquish n a1 => .relinquish (n + k) a1
  | .rejoin n a1 => .rejoin (n + k) a1
  | .relinquishRefused n => .relinquishRefused (n + k)
  | .heartbeatMiss n => .heartbeatMiss (n + k)
  | .pathSilent n a1 => .pathSilent (n + k) a1
  | .takeover n a1 => .takeover (n + k) a1
  | .mirrorRecordApply n a1 => .mirrorRecordApply (n + k) a1
  | .mirrorStale n => .mirrorStale (n + k)
  | .resync n a1 => .resync (n + k) a1
  | .resyncDone n => .resyncDone (n + k)
  | .selfFence n => .selfFence (n + k)
  | .dualActiveFence n => .dualActiveFence (n + k)
  | .faultOccurrence n a1 => .faultOccurrence (n + k) a1
  | .brokenWire n a1 a2 => .brokenWire (n + k) a1 a2
  | .faultStatusClear n a1 a2 => .faultStatusClear (n + k) a1 a2
  | .ffClear n a1 => .ffClear (n + k) a1
  | .faultTest n a1 a2 => .faultTest (n + k) a1 a2
  | .faultLevelWrite n a1 a2 => .faultLevelWrite (n + k) a1 a2
  | .counterVisit n a1 a2 a3 => .counterVisit (n + k) a1 a2 a3
  | .snapGo n a1 a2 => .snapGo (n + k) a1 a2
  | .snapReady n => .snapReady (n + k)
  | .counterClear n a1 a2 => .counterClear (n + k) a1 a2
  | .swijanRequest n a1 => .swijanRequest (n + k) a1
  | .dspRequest n a1 => .dspRequest (n + k) a1
  | .dspFetch n => .dspFetch (n + k)
  | .read n a1 a2 a3 a4 => .read (n + k) a1 a2 a3 a4
  | .write n a1 a2 a3 a4 a5 => .write (n + k) a1 a2 a3 a4 a5
  | .bulkRead n a1 a2 a3 a4 a5 a6 => .bulkRead (n + k) a1 a2 a3 a4 a5 a6
  | .bulkWrite n a1 a2 a3 a4 a5 a6 a7 => .bulkWrite (n + k) a1 a2 a3 a4 a5 a6 a7
  | .openSession n a1 a2 a3 => .openSession (n + k) a1 a2 a3
  | .close n a1 => .close (n + k) a1
  | .nop n a1 => .nop (n + k) a1
  | .lockWrite n a1 a2 a3 a4 => .lockWrite (n + k) a1 a2 a3 a4
  | .lockExpiry n a1 a2 => .lockExpiry (n + k) a1 a2
  | .leaseWrite n a1 a2 => .leaseWrite (n + k) a1 a2
  | .leaseExpiry n => .leaseExpiry (n + k)
  | .sessionIdleExpiry n a1 => .sessionIdleExpiry (n + k) a1
  | .pendingSessionExpiry n a1 => .pendingSessionExpiry (n + k) a1
  | .sessionClose n a1 a2 => .sessionClose (n + k) a1 a2
  | .refLost n => .refLost (n + k)
  | .refGood n a1 => .refGood (n + k) a1
  | .refRelock n a1 a2 => .refRelock (n + k) a1 a2
  | .refHoldoverFault n => .refHoldoverFault (n + k)
  | .refSelectWrite n a1 a2 => .refSelectWrite (n + k) a1 a2
  | .pdEnableWrite n a1 a2 a3 => .pdEnableWrite (n + k) a1 a2 a3
  | .pdOnDone n a1 => .pdOnDone (n + k) a1
  | .powerDomainFault n a1 => .powerDomainFault (n + k) a1
  | .sidebandFrame n a1 a2 => .sidebandFrame (n + k) a1 a2
  | .powerOnReset n a1 => .powerOnReset (n + k) a1
  | .dictionaryReady n => .dictionaryReady (n + k)
  | .warmReset n a1 => .warmReset (n + k) a1
  | .dieReset n a1 a2 => .dieReset (n + k) a1 a2
  | .quadReset n a1 a2 => .quadReset (n + k) a1 a2
  | .treeReset n a1 a2 => .treeReset (n + k) a1 a2
  | .treeRestart n a1 a2 => .treeRestart (n + k) a1 a2
  | .resetEnd n a1 => .resetEnd (n + k) a1
  | .treeRelight n a1 => .treeRelight (n + k) a1
  | .bridgeRelock n a1 => .bridgeRelock (n + k) a1
  | .entropyRecovery n => .entropyRecovery (n + k)
  | .porstRelease n a1 => .porstRelease (n + k) a1
  | .mgmtLinkUp n => .mgmtLinkUp (n + k)
  | .mgmtLinkDown n => .mgmtLinkDown (n + k)
  | .otherRefLost n a1 => .otherRefLost (n + k) a1
  | .relinquishDrainEnd n => .relinquishDrainEnd (n + k)
  | .eyeScanDone n a1 a2 a3 => .eyeScanDone (n + k) a1 a2 a3
  | .addrFlushDone n => .addrFlushDone (n + k)
  | .resyncFailed n => .resyncFailed (n + k)

end Sys2Proof
end

