-- ==== Sys2Proof/Safety.lean ====
section
/-!
DEFINITION. What counts as a safe run, and the words the statements use: a command that completes, and what it leaves
as it was.
-/
namespace Sys2Proof.Machine
open Sys2Proof

/-! ### Safe runs -/

/-- Every waiting command names elements of the device. -/
def State.queueNamed (s : State) : Prop := ∀ c ∈ s.pending, c.namesElements = true

/-- Every waiting command is well-formed. -/
def State.safe (s : State) : Prop := ∀ c ∈ s.pending, c.wellFormed = true

/-- A command that sets the tick counter back: power-on reset (R220, R340). -/
def isPowerOn : Instr → Bool
  | .powerOnReset _ _ => true
  | _ => false

/-! ### Completion -/

/-- The command completes at tick `n`: the machine goes on, its tick counter reads at least `n`, its queue is as it was, and
of the device afterwards `p` holds. -/
def Completes (c : Instr) (s : State) (n : Nat) (p : Dev → Prop) : Prop :=
  ∃ t, exec c s = .next t ∧ t.now = max s.now n ∧ t.pending = s.pending ∧ p t.dev

/-- The tick of a fixed point: `frame` ticks into the frame, or `sub` ticks into its sub-period (R19, R26). -/
def Dev.pointTick (d : Dev) (p : MapPoint) (frame sub : Nat) : Nat :=
  d.pointStart p + (if p = .frame then frame else sub)

/-- No change of role, no take-over and no restart is due at the next frame start. -/
def Dev.quietFrame (d : Dev) : Prop :=
  d.mate.relinquishing = none ∧ d.mate.firstFrame = none ∧ ∀ t < 32, (d.tree t).restarting = false ∨ (d.tree t).lit = false

/-- The tick of the first preamble bit expected of a burst, or of the start of a window, rounded down (R45). -/
def Dev.pulseTick (d : Dev) (t : Nat) (b : BurstRef) (x : MapBurst) : Nat :=
  d.psTick b (d.pulsePs t b x)

/-- The condition of level source `k` holds no longer: only a broken wire, its own or its bridge's, keeps the source asserted
(R286). -/
def Dev.released (d e : Dev) (k : Nat) : Prop :=
  (e.source k).level = true → (d.source k).broken = true ∨ (d.source k).cutOff = true

/-! ### A master's accesses -/

/-- The device as a request of master `m` finds it at tick `n`: what acts from the next request has acted (R312), and the
session's idle timer has started again (R311). -/
def Dev.asked (d : Dev) (n : Nat) (m : Master) : Dev := (d.settleTimes n).settleMgmt.touch n m

/-- The dictionary serves master `m` at tick `n`: it is up, the master is the serial port or an open session, no long
operation runs (R314), and no reset waits. -/
def Dev.hears (d : Dev) (n : Nat) (m : Master) : Bool :=
  masterExists m && d.chip.phase == .up && (d.settleTimes n).settleMgmt.masterOpen m && (d.asked n m).mgmt.longOp.isNone &&
    (d.asked n m).chip.pendingReset.isNone

/-- A write of `data` to instance `i` of register `r` by master `m` at tick `n` passes every check of R303. -/
def Dev.accepts (d : Dev) (n : Nat) (m : Master) (r : Reg) (i : Nat) (data : Bytes) : Bool :=
  d.hears n m && r.hasInstance i && (Place.reg r).writable && (d.asked n m).mayWrite m (.reg r) &&
    !(d.asked n m).leasedAway m && data.length == r.size &&
    !(d.asked n m).badValue n r i (ofBytes data) data && !(d.asked n m).denied n m r i (ofBytes data) data

/-- The same of the number `v` in the bytes of the register's type. -/
def Dev.acceptsNum (d : Dev) (n : Nat) (m : Master) (r : Reg) (i v : Nat) : Bool :=
  decide (v < 256 ^ r.size) && d.accepts n m r i (toBytes r.size v)

/-- A write of the object has an action of its own, beyond keeping the value (the arms of `Dev.applyReg`). -/
def actsOnWrite (r : Reg) : Bool :=
  (List.contains [
    .snapView, .sessionClose, .refSelect, .pdEnable, .warmReset, .dieReset, .treeRestart, .treeReset, .quadReset,
    .faultLevel, .ffClear, .faultTest, .snapGo, .counterClear, .quadProfile, .treeEnable, .lineMode, .bpValid,
    .termCommand, .targetRtd, .ospRate, .allocEnable, .keyNext, .keyErase, .loadGo, .defaultUplink, .defaultTree,
    .graphDefault, .commitGo, .discard, .addrOp, .addrFlush, .freeMode, .auditGo, .lagMembers, .treeShapeKbps,
    .treeShapeBurst, .portShapeKbps, .portShapeBurst, .hostShapeKbps, .portStrictCount, .peakReset, .captureCmd, .rateSet,
    .stepSet, .servoAlive, .ptpTx, .opticsDnPs, .opticsUpPs, .rclkSrc, .portWidth, .calibrate, .ctleMode, .ctleSet,
    .portEnable, .mateEnable, .eyeScan, .redundancyEnable, .roleCmd, .resync, .leaseReg, .railLowMv, .railHighMv] r)

/-- What the object reads is computed by the device, not kept (the arms of `Dev.live`, and SNAP_VIEW). -/
def computed (r : Reg) : Bool :=
  (List.contains [
    .tickNow, .timeNow, .clkPending, .firstFault, .shutTrees, .shutPorts, .deviceAction, .stickyS0, .stickyS1, .stickyS2,
    .stickyS3, .pinLevels, .ploamFree, .targetRtd, .listAge, .assuredTokens, .rateTokens, .keyState, .nonceCounter,
    .loadNonce, .cuttersBusy, .suspInUse, .defaultUplink, .defaultTree, .spareRowsUsed, .fragEntries, .addrEntries,
    .stashUsed, .sigReg, .lagActive, .todCorrPs, .todTerm, .snapView, .domainKhz] r)

/-- The command completes at tick `n` and master `m` has its response OK; `p` holds of the device as the request found it and as
it is afterwards. -/
def Answered (c : Instr) (s : State) (n : Nat) (m : Master) (p : Dev → Dev → Prop) : Prop :=
  Completes c s n fun e => e.wire.getLast? = some (.response m ⟨0, []⟩) ∧ p (s.dev.asked (max s.now n) m) e

/-! ### Frames -/

/-- Every register instance but those listed reads as before. -/
def Dev.regsKept (d e : Dev) (l : List (Reg × Nat)) : Prop := ∀ r i, (r, i) ∉ l → e.rd r i = d.rd r i

/-- Every register but those listed, in whatever instance, reads as before. -/
def Dev.rdKept (d e : Dev) (l : List Reg) : Prop := ∀ r i, r ∉ l → e.rd r i = d.rd r i

/-- The registers that a job given to a Quarry bank may change: what is ready, what is suspended, and what the management
bank has done (R113, R114, R116). -/
def cipherRegs : List Reg := [.ksReady, .suspensions, .suspFull, .mgmtJobs]

/-- The superframe count in the content header of a mate frame that carries a mirror set (TYPE 2, R260, R268). -/
def Emission.setSfc : Emission → Option Nat
  | .mateFrame _ header content => if header / 2 ^ 46 % 16 = 2 then some (numAt content 12 8) else none
  | _ => none

/-- Nothing but the listed register instances differs. -/
def Dev.onlyRegs (d e : Dev) (l : List (Reg × Nat)) : Prop := d.regsKept e l ∧ e = { d with regs := e.regs }

end Sys2Proof.Machine
end

