-- ==== Sys2Proof/Certificates/Slice0/Obligations.lean ====
section
/-!
DEFINITION. The statements for the provers, from the numbered rules of the spec. `Completes` and `Answered` say that a
command answers a next state under hypotheses on the state and the operands alone.
-/
open Sys2Proof Sys2Proof.Machine

/-! ### The queue of waiting commands -/

/-- A step takes the command at the front of the queue and is its effect on the state with the queue's rest. With nothing
waiting the block idles (the model's choice, log row 14). (Rests on 95_what_each_step_holds.md, 01_architecture.md.) -/
def Obligations.StepRunsTheFront : Prop :=
  (∀ (s : State) (c : Instr) (rest : List Instr), s.pending = c :: rest →
     step s = exec c { s with pending := rest }) ∧
  (∀ s : State, s.pending = [] → step s = .next s)

/-- A command that names elements of the device completes. It leaves the queue as it was; and but for a power-on reset it
never sets the tick counter back, which afterwards reads at least the command's own tick. (Rests on R14, R220.) -/
def Obligations.NamedCommandsComplete : Prop :=
  ∀ (c : Instr) (s : State), c.namesElements = true →
    ∃ t, exec c s = .next t ∧ t.pending = s.pending ∧
      (isPowerOn c = false → s.now ≤ t.now ∧ ∀ n, c.tick = some n → n ≤ t.now)

/-- A command that names an element outside the numbering stops the model, and no other command does. (Rests on R14.) -/
def Obligations.OnlyUnnamedElementsStop : Prop :=
  ∀ (c : Instr) (s : State), c.namesElements = false → exec c s = .fault .noSuchElement

/-- No command reads the queue behind it: its effect on the rest of the state is the same whatever waits. (Rests on
95_what_each_step_holds.md.) -/
def Obligations.CommandsIgnoreTheQueue : Prop :=
  ∀ (c : Instr) (s : State) (q : List Instr),
    exec c { s with pending := q } =
      match exec c s with
      | .next t => .next { t with pending := q }
      | .fault r => .fault r
      | .refused r => .refused r

/-- A queue of commands that all name elements of the device runs to its end: as many steps as commands wait, no stop, an
empty queue; and where no power-on reset is among them, the tick counter has reached the tick of every one of them. (Rests
on R14, R220.) -/
def Obligations.NamedQueueRunsToItsEnd : Prop :=
  ∀ s : State, s.queueNamed →
    ∃ t : State, Sys2Proof.core.run s.pending.length s = .next t ∧ t.pending = [] ∧
      ((∀ c ∈ s.pending, isPowerOn c = false) →
        s.now ≤ t.now ∧ ∀ c ∈ s.pending, ∀ n, c.tick = some n → n ≤ t.now)

/-- Every step keeps the queue free of commands that name no element, and shortens it by the command taken. (Rests on R14.)
-/
def Obligations.StepKeepsQueueNamed : Prop :=
  ∀ s t : State, s.queueNamed → step s = .next t → t.queueNamed ∧ t.pending = s.pending.tail

/-- At reset nothing waits, so the queue names only elements of the device; the tick counter reads 0, every register its
reset value of the object map, no tree is lit, no terminal is past EMPTY, nothing is stored, shut or sticky, and nothing has
left. (Rests on R7, R220, R301.) -/
def Obligations.ResetIsQuiet : Prop :=
  State.reset.queueNamed ∧ State.reset.pending = [] ∧ State.reset.now = 0 ∧ State.reset.dev.wire = [] ∧
    State.reset.dev.chip.phase = .porst ∧ State.reset.dev.mgmt.longOp = none ∧ State.reset.dev.faults.shut = [] ∧
    (∀ r i, State.reset.dev.rd r i = r.dflt i) ∧ (∀ g, State.reset.dev.rd .termState g = 0) ∧
    (∀ t, (State.reset.dev.tree t).lit = false) ∧ (∀ q, State.reset.dev.queue q = []) ∧
    ∀ k, (State.reset.dev.source k).sticky = false

/-! ### The frame and its fixed points (R17-R26) -/

/-- FRAME_START with no change of role, take-over or restart due: the superframe count advances by one modulo 2^51, the
frame start by 155,520 ticks and the sign of the phase left to slew, which is counted; every lit tree sends its header, which
names the frame's start, its count and its line bytes, and, where the tree's quad changes no profile, carries the locked map
and every locked message. While PORST_L is asserted nothing happens. (Rests on R17, R19, R40, R41, R327.) -/
def Obligations.FrameStartAdvances : Prop :=
  ∀ s : State,
    (s.dev.chip.phase = .porst → exec .frameStart s = .next s) ∧
    (s.dev.chip.phase ≠ .porst → s.dev.quietFrame → ∃ t, exec .frameStart s = .next t ∧ t.pending = s.pending ∧
      t.dev.rd .superframe 0 = (s.dev.rd .superframe 0 + 1) % 2 ^ 51 ∧
      t.dev.rd .frameTick 0 = (((s.dev.rd .frameTick 0 + 155520 : Nat) : Int) + s.dev.gnomon.residual.sign).toNat % 2 ^ 64 ∧
      t.dev.rd .frameShift 0 =
        (if s.dev.gnomon.residual = 0 then s.dev.rd .frameShift 0 else (s.dev.rd .frameShift 0 + 1) % 2 ^ 64) ∧
      t.dev.gnomon.residual = s.dev.gnomon.residual - s.dev.gnomon.residual.sign ∧
      t.now = max s.now (t.dev.rd .frameTick 0) ∧
      ∀ x < 32, (s.dev.tree x).lit = true → ∃ h, .downstream x h ∈ t.dev.wire ∧ h.psync = t.dev.rd .frameTick 0 ∧
        h.sfc = t.dev.rd .superframe 0 ∧ h.lineBytes = s.dev.frameBytes x ∧
        ((s.dev.quad (quadOf x)).change = 0 →
          h.map = mapRecords (s.dev.tree x).lockedMap ∧ h.messages.length = (s.dev.tree x).locked.length))

/-- HEARTBEAT_MIDFRAME, half a frame after the frame start: with redundancy enabled a word leaves on the pins and one more
heartbeat is counted; without it an idle frame keeps a mate link that is up alive, and nothing leaves where it is down or idle.
MIRROR_DEADLINE, 116,640 ticks into the frame: an ACTIVE unit with its mate link up and a mate key, whose Mate Link has all the
maps, sends the mirror set of the next frame, as one mate frame of TYPE 2 for each part that its records are cut into; the
records not yet acknowledged are all in it. Any other unit sends nothing. No register changes but those that count the work of
the cipher banks and, on a link that was idle, MATE_STATE. (Rests on R19, R24, R264, R266, R268, R270, R271.) -/
def Obligations.MateSendingPoints : Prop :=
  (∀ s : State,
     (s.dev.on .redundancyEnable 0 = true →
       Completes .heartbeatMidframe s (s.dev.rd .frameTick 0 + 77760) fun e =>
         (∃ w, e.wire.getLast? = some (.pinWord w)) ∧
         e.rd .hbSent 0 = (s.dev.rd .hbSent 0 + 1) % 2 ^ 64 ∧ s.dev.rdKept e (.hbSent :: .mateState :: cipherRegs)) ∧
     (s.dev.on .redundancyEnable 0 = false → s.dev.rd .mateState 0 = 1 →
       Completes .heartbeatMidframe s (s.dev.rd .frameTick 0 + 77760) fun e =>
         (∃ h k, e.wire = s.dev.wire ++ [.mateIdle (max s.now (s.dev.rd .frameTick 0 + 77760)) h k]) ∧ e.regs = s.dev.regs) ∧
     (s.dev.on .redundancyEnable 0 = false → s.dev.rd .mateState 0 ≠ 1 →
       Completes .heartbeatMidframe s (s.dev.rd .frameTick 0 + 77760) fun e => e = s.dev)) ∧
  (∀ s : State,
     let sends : Prop := s.dev.rd .unitRole 0 = 1 ∧ s.dev.rd .mateState 0 ≠ 0 ∧ s.dev.mateKey.isSome = true ∧
       ∀ t < 32, s.dev.mirrorTooLate t = false
     (sends → Completes .mirrorDeadline s (s.dev.rd .frameTick 0 + 116640) fun e =>
       let records := (s.dev.mirrorRecords.map recordBytes).flatten
       (∃ l, e.wire = s.dev.wire ++ l ∧ l.filterMap Emission.setSfc =
         List.replicate (cutParts partBytes records.length records).length ((s.dev.rd .superframe 0 + 1) % 2 ^ 64)) ∧
       (∀ r ∈ s.dev.mate.unacked, r.2 ∈ s.dev.mirrorRecords) ∧ s.dev.rdKept e (.mateState :: cipherRegs)) ∧
     (¬sends → Completes .mirrorDeadline s (s.dev.rd .frameTick 0 + 116640) fun e => e = s.dev))

/-- CREDIT_SNAPSHOT: every tree of the point but those of ECONOMY quads has its credit computed, which CREDIT_LAST reads as a
signed number; the tree takes it where its bridge is up, and has none where it is down. No register changes but CREDIT_LAST and
the ports' DRAIN_EST, beside what the sends that have ended by then leave. BUILD_START: a tree of the point that will carry the
map, is not gated and has no such map yet, has the map of the named superframe count and point under construction
afterwards. (Rests on R12, R19, R20, R93, R103, R107.) -/
def Obligations.MapBuildingPoints : Prop :=
  (∀ (s : State) (p : MapPoint), pointExists p = true →
     Completes (.creditSnapshot p) s (s.dev.pointTick p 38880 1944) fun e =>
       let a := s.dev.settleSends (max s.now (s.dev.pointTick p 38880 1944))
       (∀ x ∈ s.dev.treesAt p, s.dev.treeProfile x ≠ 3 → ∃ k : Int,
         (e.tree x).credit = (if s.dev.bridgeUp x then some k else none) ∧ e.rd .creditLast x = ofSigned 32 k) ∧
       (∀ x, x ∉ s.dev.treesAt p ∨ s.dev.treeProfile x = 3 → e.tree x = s.dev.tree x) ∧
       a.rdKept e [.creditLast, .drainEst]) ∧
  (∀ (s : State) (p : MapPoint) (late : List Nat), pointExists p = true →
     Completes (.buildStart p late) s (s.dev.pointTick p 46656 3888) fun e =>
       ∀ x ∈ s.dev.treesAt p, s.dev.carries x (s.dev.nextMap p).1 = true → s.dev.gated x = false →
         (∀ m ∈ (s.dev.tree x).maps, ¬(m.sfc = (s.dev.nextMap p).1 ∧ m.point = (s.dev.nextMap p).2)) →
         ∃ m, (e.tree x).building = some m ∧ m.sfc = (s.dev.nextMap p).1 ∧ m.point = (s.dev.nextMap p).2 ∧ m.empty = false)

/-- MAP_SEAL: a map under construction becomes the newest sealed map of its tree, with every burst it had, and MAPS_SEALED
counts it; the grants of its data bursts name their terminals' key slots, and those with a key have their keystream asked for
where the bank is on. Nothing else of any tree changes but keystream. FAN_OUT_DEADLINE: where the Quarry or the Burst Receiver
has not accepted a tree's map, the map is replaced by an empty one and MAPS_EMPTIED counts it; where neither is late it goes as
built, with its late consumers noted, and over a bridge that is down to none of the hub's. HEADER_LOCK: the header of each tree
that will carry the next frame is fixed. At the frame's own point a tree takes its sealed map, at the last sub-period a LATENCY
tree the first sub-map of the next frame, and at the frame's own point every such tree holds at most sixteen messages. A
sub-map of a later sub-period leaves at once on every lit LATENCY tree. (Rests on R19, R20, R22, R23, R24, R26, R117, R118.) -/
def Obligations.MapSendingPoints : Prop :=
  (∀ (s : State) (p : MapPoint), pointExists p = true →
     Completes (.mapSeal p) s (s.dev.pointTick p 93312 11664) fun e =>
       (∀ x ∈ s.dev.treesAt p, ∀ m, (s.dev.tree x).building = some m → ∃ bs : List MapBurst,
         bs.length = m.bursts.length ∧
         e.tree x = { s.dev.tree x with building := none, maps := (s.dev.tree x).maps ++ [{ m with bursts := bs }],
                                        keystream := (e.tree x).keystream } ∧
         e.rd .mapsSealed x = (s.dev.rd .mapsSealed x + 1) % 2 ^ 64 ∧
         ∀ y ∈ bs, y.kind = .data → ∀ g ∈ y.grants, g.keySlot = x * 512 + y.terminal) ∧
       (∀ x, x ∉ s.dev.treesAt p ∨ (s.dev.tree x).building = none →
         e.tree x = { s.dev.tree x with keystream := (e.tree x).keystream } ∧
         e.rd .mapsSealed x = s.dev.rd .mapsSealed x)) ∧
  (∀ (s : State) (p : MapPoint) (late : List (Nat × Consumer)), pointExists p = true →
     Completes (.fanOutDeadline p late) s (s.dev.pointTick p 101088 13608) fun e =>
       ∀ x ∈ s.dev.treesAt p, s.dev.carries x (s.dev.nextMap p).1 = true →
         (∃ m ∈ (s.dev.tree x).maps, m.sfc = (s.dev.nextMap p).1 ∧ m.point = (s.dev.nextMap p).2 ∧ m.empty = false) →
         (((x, Consumer.quarry) ∈ late ∨ (x, Consumer.burstReceiver) ∈ late) →
           e.rd .mapsEmptied x = (s.dev.rd .mapsEmptied x + 1) % 2 ^ 64 ∧
           ∀ m ∈ (e.tree x).maps, m.sfc = (s.dev.nextMap p).1 ∧ m.point = (s.dev.nextMap p).2 → m.empty = true ∧ m.bursts = []) ∧
         ((x, Consumer.quarry) ∉ late ∧ (x, Consumer.burstReceiver) ∉ late →
           e.rd .mapsEmptied x = s.dev.rd .mapsEmptied x ∧
           ∀ m ∈ (e.tree x).maps, m.sfc = (s.dev.nextMap p).1 ∧ m.point = (s.dev.nextMap p).2 →
             ∀ c, c ∈ m.late ↔ (x, c) ∈ late ∨ s.dev.bridgeUp x = false ∧ c ∈ [Consumer.mateLink, .gnomon, .admission])) ∧
  (∀ (s : State) (p : MapPoint), pointExists p = true →
     Completes (.headerLock p) s (s.dev.pointTick p 108864 15552) fun e =>
       (∀ x < 32, s.dev.carries x (s.dev.nextMap p).1 = true →
         (p = .frame ∨ p = .sub 7 → x ∈ s.dev.treesAt p →
           (e.tree x).lockedMap = s.dev.mapOf x ⟨(s.dev.nextMap p).1, (s.dev.nextMap p).2, 0⟩) ∧
         (p = .frame → (e.tree x).locked.length ≤ 16) ∧
         (p ≠ .frame → (e.tree x).locked = (s.dev.tree x).locked)) ∧
       ∀ k < 7, p = .sub k → e = { s.dev with wire := s.dev.wire ++
         (((s.dev.treesAt p).filter fun x => (s.dev.tree x).lit && s.dev.carries x (s.dev.rd .superframe 0)).map fun x =>
           .subMap x (s.dev.rd .superframe 0) (k + 1)
             (mapRecords (s.dev.mapOf x ⟨s.dev.rd .superframe 0, .sub (k + 1), 0⟩))) })

/-- R105, whole. At the snapshot E_p is 0 if port p is down, in its hold time, or paused by flow control; otherwise the port
rate times 250 us: 3,125,000 bytes for 100GE, 6,250,000 for 200GE, 12,500,000 for 400GE. DRAIN_EST reads the latest value.
-/
def Obligations.DrainEstimates : Prop :=
  ∀ (s : State) (x : MapPoint), pointExists x = true →
    Completes (.creditSnapshot x) s (s.dev.pointTick x 38880 1944) fun e =>
      ∀ p < 16, e.rd .drainEst p =
        (if s.dev.portUp p = false ∨ (s.dev.port p).hold ≠ none ∨
            s.dev.paused (max s.now (s.dev.pointTick x 38880 1944)) p = true then 0
          else if s.dev.rd .portWidth 0 = 0 then 3125000
          else if s.dev.rd .portWidth 0 = 1 then 6250000
          else 12500000)

/-! ### Bridges, profiles, slices (R11-R13, R31-R36) -/

/-- BRIDGE_LOCK_LOSS of a bridge that is locked: it trains, the frames lost on the way up are counted in the hub core's domain
74 and those lost on the way down in 72 plus the bridge, no tree of the other die loses any, and its lock-loss source 288 + 8b
holds; of one that is not locked it changes nothing. BRIDGE_RELOCK, once the device has started, of a bridge that is not
locked: its state is 2, the retraining is counted, the source no longer holds. No other register changes, but for the count of
occurrences and the samples that end. SLICE_WAKE of a gated tree with discovery on whose next window starts within 2 ms: its
slice is no longer gated. SLICE_GATE of an ECONOMY tree with no terminal past capture whose last window captured nothing and has
passed, while it is not awake for the next one: its slice is gated. Nothing but SLICES_GATED of the quad changes. (Rests on R11,
R13, R36.) -/
def Obligations.BridgesAndSlices : Prop :=
  (∀ (s : State) (n b : Nat) (up down : List Nat), b < 2 →
     (s.dev.rd (bridgeState b) 0 = 2 → Completes (.bridgeLockLoss n b up down) s n fun e =>
       e.rd (bridgeState b) 0 = 1 ∧
       e.rd .crossFlushes 74 =
         (s.dev.rd .crossFlushes 74 + (s.dev.treeWaiting.length - e.treeWaiting.length)) % 2 ^ 64 ∧
       e.rd .crossFlushes (72 + b) = (s.dev.rd .crossFlushes (72 + b) +
         ((treesOfDie b).map fun t => (s.dev.tree t).payload.length - (e.tree t).payload.length).sum) % 2 ^ 64 ∧
       (∀ t < 32, dieOf t ≠ b → e.tree t = s.dev.tree t) ∧
       (e.source (288 + 8 * b)).level = true ∧
       ∀ r i, r ≠ .occurrences → r ≠ .sampleNext →
         (r, i) ∉ [(bridgeState b, 0), (.crossFlushes, 74), (.crossFlushes, 72 + b)] → e.rd r i = s.dev.rd r i) ∧
     (s.dev.rd (bridgeState b) 0 ≠ 2 → Completes (.bridgeLockLoss n b up down) s n fun e => e = s.dev) ∧
     (s.dev.rd (bridgeState b) 0 ≠ 2 → s.dev.chip.phase ≠ .porst → s.dev.chip.phase ≠ .starting →
       Completes (.bridgeRelock n b) s n fun e =>
         e.rd (bridgeState b) 0 = 2 ∧ e.rd .bridgeRetrains b = (s.dev.rd .bridgeRetrains b + 1) % 2 ^ 64 ∧
         s.dev.released e (288 + 8 * b) ∧ s.dev.regsKept e [(bridgeState b, 0), (.bridgeRetrains, b)])) ∧
  (∀ (s : State) (n t : Nat), t < 32 →
     (s.dev.gated t = true → s.dev.on .discEnable t = true →
       s.dev.rd .frameTick 0 + s.dev.framesToWindow t (s.dev.rd .superframe 0) * 155520 ≤ max s.now n + msTicks 2 →
       Completes (.sliceWake n t) s n fun e => e.gated t = false ∧ s.dev.onlyRegs e [(.slicesGated, quadOf t)]) ∧
     (∀ c, (s.dev.tree t).windowFrame = some c → s.dev.treeProfile t = 3 → s.dev.anyCaptured t = false →
       (s.dev.tree t).captures = 0 → s.dev.quietEnd t c ≤ max s.now n →
       (s.dev.wakeDue (max s.now n) t = false ∨ c = s.dev.rd .superframe 0) →
       Completes (.sliceGate n t) s n fun e => e.gated t = true ∧ s.dev.onlyRegs e [(.slicesGated, quadOf t)]))

/-- The three steps of a profile change. DARKEN, at a frame start, of quads whose terminals are all EMPTY: the four trees go
dark and the change is at its second step. APPLY: the new profile is in force, the bank's keystream is gone, no slice is
gated, every clock of the quad whose frequency changes is to relock, each tree at another rate than its LINE_MODE is counted,
and entry 0 alone of each tree is valid. COMPLETE, with no long operation waiting: the change is over and counted,
PROFILE_STATE is 0, each tree's restart is counted, and every tree that may light is lit. (Rests on R31, R32, R33, R35, R79,
R329.) -/
def Obligations.ProfileChangeSteps : Prop :=
  ∀ (s : State) (n q : Nat), q < 8 →
    ((s.dev.quad q).change = 1 → s.dev.changeRuns q = true →
      (∀ x ∈ treesOfQuad q, ∀ g ∈ termsOfTree x, s.dev.rd .termState g = 0) →
      Completes (.profileChangeDarken q) s (s.dev.rd .frameTick 0) fun e =>
        (e.quad q).change = 2 ∧ ∀ x ∈ treesOfQuad q,
          (e.tree x).lit = false ∧ (e.tree x).maps = [] ∧ bitAt (e.rd .txdisNow q) (x % 4) = true) ∧
    ((s.dev.quad q).change = 2 → Completes (.profileChangeApply n q) s n fun e =>
      (e.quad q).change = 3 ∧ e.profile q = s.dev.rd .quadProfile q ∧ e.rd .ksReady q = 0 ∧ e.bank q = {} ∧
      e.rd .slicesGated q = 0 ∧
      e.rd .rateForced q % 2 ^ 64 = (s.dev.rd .rateForced q + ((treesOfQuad q).filter e.forced).length) % 2 ^ 64 ∧
      (∀ c ∈ pllDomains q, e.domainKhzNow c ≠ s.dev.domainKhzNow c → e.rd .domainLocked c = 0) ∧
      ∀ x ∈ treesOfQuad q, (e.tree x).announced = [0] ∧ (e.tree x).keystream = [] ∧ ∀ k < 4,
        e.rd .bpValid (4 * x + k) = (if k = 0 then 1 else 0) ∧
        e.rd .bpRepeat (4 * x + k) = defaultRepeat (e.rd .quadProfile q) (e.upRate x) k) ∧
    ((s.dev.quad q).change = 3 → s.dev.mgmt.waitingOps = [] → Completes (.profileChangeComplete n q) s n fun e =>
      (e.quad q).change = 0 ∧ e.rd .profileState q = 0 ∧
      e.rd .profileChanges q = (s.dev.rd .profileChanges q + 1) % 2 ^ 64 ∧
      ∀ x ∈ treesOfQuad q, e.rd .treeRestarts x = (s.dev.rd .treeRestarts x + 1) % 2 ^ 64 ∧
        (e.mayLight x = true → (e.tree x).lit = true))

/-! ### Bursts, defects, seconds (R45-R66) -/

/-- RXRST_PULSE for a burst of a sealed map that has had no pulse, its slice receiving: one pulse of RXRST_WIDTH leaves,
RXRST_LEAD ticks before the expected or window start; where the lead is below the width the pulse starts at an open value. No
register changes. A second command, or one of a slice that does not receive, does nothing. BURST_RECEIVE of an ALONE or ACTIVE
unit. A terminal's data burst without lock is missed: counted for the terminal, and over. A response in a discovery window that
locks without an accepted delimiter is a collision, and the receiver is reset for a further one. A burst of no sealed map
changes nothing, nor does one that is over or one of a slice that does not receive. (Rests on R36, R45, R46, R47, R53, R283.)
-/
def Obligations.BurstsPulsedAndReceived : Prop :=
  (∀ (s : State) (n t : Nat) (b : BurstRef) (x : MapBurst), t < 32 → s.dev.burstOf t b = some x →
     (x.pulsed = false → s.dev.receives t = true →
       (s.dev.rd .rxrstWidth t ≤ s.dev.rd .rxrstLead t → Completes (.rxrstPulse n t b) s n fun e =>
         e.wire = s.dev.wire ++ [.rxrst t (s.dev.pulseTick t b x - s.dev.rd .rxrstLead t) (s.dev.rd .rxrstWidth t)] ∧
         e.regs = s.dev.regs) ∧
       (s.dev.rd .rxrstLead t < s.dev.rd .rxrstWidth t → Completes (.rxrstPulse n t b) s n fun e =>
         e.wire = s.dev.wire ++ [.rxrst t (Config.freeValue s.dev.free) (s.dev.rd .rxrstWidth t)] ∧ e.regs = s.dev.regs)) ∧
     (x.pulsed = true ∨ s.dev.receives t = false → Completes (.rxrstPulse n t b) s n fun e => e = s.dev)) ∧
  (∀ (s : State) (n t : Nat) (b : BurstRef) (o : BurstObs), t < 32 → s.dev.rd .unitRole 0 ≠ 2 →
     (s.dev.burstOf t b = none → Completes (.burstReceive n t b o) s n fun e => e = s.dev) ∧
     (∀ x, s.dev.burstOf t b = some x →
       ((x.ended = true ∨ s.dev.receives t = false) → Completes (.burstReceive n t b o) s n fun e => e = s.dev) ∧
       (x.ended = false → s.dev.receives t = true →
         (x.kind = .data → x.orphan = false → o.locked = false → Completes (.burstReceive n t b o) s n fun e =>
           e.rd .burstsMissed (t * 512 + x.terminal) = (s.dev.rd .burstsMissed (t * 512 + x.terminal) + 1) % 2 ^ 64 ∧
           (∀ y, e.burstOf t b = some y → y.ended = true) ∧ e.wire = s.dev.wire) ∧
         (x.kind = .discovery → o.locked = true → s.dev.arrivalOf t b x o = none →
           Completes (.burstReceive n t b o) s n fun e =>
             e.rd .discCollide t = (s.dev.rd .discCollide t + 1) % 2 ^ 64 ∧
             e.wire = s.dev.wire ++ [.rxrst t (max s.now n) (s.dev.rd .rxrstWidth t)] ∧
             s.dev.regsKept e [(.discCollide, t)]))))

/-- TREE_DEFECT_DECLARE and TREE_DEFECT_CLEAR of a tree that is not shut and whose indications are off. AIS is declared after
AIS_FRAMES frames without a feed: its bit, its event and its source; it clears after as many with one. LOS, its timing ripe and
no terminal in OPERATION or LOST or with a defect, is declared and masks LOF; it clears once its clear timing is ripe with the
judged frame, if it is over, closed. TERMINAL_DEFECT_DECLARE and TERMINAL_DEFECT_CLEAR with no mask on, the tree's RDI
indication off and a hold time set: LOSi of a terminal in OPERATION, once its bursts are missed, sets bit 0 and the terminal
goes to LOST; when it clears, no other loss defect being declared and tree LOS not the cause, the terminal is in OPERATION
again. MATE_DEFECT_DECLARE and MATE_DEFECT_CLEAR: AIS, after two periods with the bit set, is declared while LOS is not, and
holds its source 390; it clears after two without. LOS, once its timing is ripe, is declared and takes the other three away; it
clears once its clear timing is ripe. No other register changes, but for the count of occurrences. (Rests on R53, R54, R55, R56,
R68.) -/
def Obligations.DefectsDeclareAndClear : Prop :=
  (∀ (s : State) (n t : Nat), t < 32 → s.dev.rd .enableMask t = 0 → s.dev.treeShut t = false →
     ((s.dev.tree t).feed = false → s.dev.rd .aisFrames t ≤ (s.dev.tree t).feedRun → s.dev.treeDefect t .ais = false →
       Completes (.treeDefectDeclare n t .ais) s n fun e =>
         e.treeDefect t .ais = true ∧ e.rd .defectEvents t = (s.dev.rd .defectEvents t + 1) % 2 ^ 64 ∧
         (e.source (8 * t + 2)).level = true ∧
         ∀ r i, r ≠ .occurrences → (r, i) ∉ [(.treeDefects, t), (.defectEvents, t)] → e.rd r i = s.dev.rd r i) ∧
     ((s.dev.tree t).feed = true → s.dev.rd .aisFrames t ≤ (s.dev.tree t).feedRun → s.dev.treeDefect t .ais = true →
       Completes (.treeDefectClear n t .ais) s n fun e =>
         e.treeDefect t .ais = false ∧ s.dev.released e (8 * t + 2) ∧ s.dev.regsKept e [(.treeDefects, t)]) ∧
     (Timed.ripe (s.dev.tree t).losSet (max s.now n) = true → s.dev.treeDefect t .los = false →
       (∀ g ∈ termsOfTree t, s.dev.rd .termState g ≠ 2 ∧ s.dev.rd .termState g ≠ 3 ∧ s.dev.rd .termDefects g = 0) →
       Completes (.treeDefectDeclare n t .los) s n fun e =>
         e.treeDefect t .los = true ∧ e.treeDefect t .lof = false ∧ (e.source (8 * t)).level = true) ∧
     (Timed.ripe ((s.dev.closeFrame (max s.now n) t).tree t).losClr (max s.now n) = true → s.dev.treeDefect t .los = true →
       Completes (.treeDefectClear n t .los) s n fun e =>
         e.treeDefect t .los = false ∧ s.dev.released e (8 * t) ∧ s.dev.regsKept e [(.treeDefects, t)])) ∧
  (∀ (s : State) (n g : Nat), g < 16384 → s.dev.unmasked (treeOfTerm g) .losi = true →
     bitAt (s.dev.rd .enableMask (treeOfTerm g)) 3 = false → s.dev.rd .termHoldMs (treeOfTerm g) ≠ 0 →
     (s.dev.rd .losiBursts (treeOfTerm g) ≤ (s.dev.term g).missRun → bitAt (s.dev.rd .termDefects g) 0 = false →
       s.dev.rd .termState g = 2 →
       Completes (.terminalDefectDeclare n g .losi) s n fun e =>
         bitAt (e.rd .termDefects g) 0 = true ∧ e.rd .termState g = 3 ∧ (e.term g).lostAt = some (max s.now n)) ∧
     (s.dev.rd .losiBursts (treeOfTerm g) ≤ (s.dev.term g).lockRun → s.dev.rd .termDefects g = 1 →
       s.dev.rd .termState g = 3 → (s.dev.term g).treeLos = false →
       Completes (.terminalDefectClear n g .losi) s n fun e =>
         e.rd .termDefects g = 0 ∧ e.rd .termState g = 2 ∧ (e.term g).hold = none)) ∧
  (∀ (s : State) (n : Nat),
     (s.dev.mateDefect .los = false → 2 ≤ s.dev.mate.aisRun → s.dev.mateDefect .ais = false →
       Completes (.mateDefectDeclare n .ais) s n fun e =>
         e.mateDefect .ais = true ∧ (e.source 390).level = true ∧
         ∀ r i, r ≠ .occurrences → r ≠ .mateDefects → e.rd r i = s.dev.rd r i) ∧
     (2 ≤ s.dev.mate.noAisRun → s.dev.mateDefect .ais = true → Completes (.mateDefectClear n .ais) s n fun e =>
       e.mateDefect .ais = false ∧ s.dev.released e 390 ∧ s.dev.regsKept e [(.mateDefects, 0)]) ∧
     (Timed.ripe s.dev.mate.losSet (max s.now n) = true → s.dev.mateDefect .los = false →
       Completes (.mateDefectDeclare n .los) s n fun e =>
         e.mateDefect .los = true ∧ e.mateDefect .lof = false ∧ e.mateDefect .ais = false ∧ e.mateDefect .rdi = false ∧
         (e.source 388).level = true) ∧
     (Timed.ripe s.dev.mate.losClr (max s.now n) = true → s.dev.mateDefect .los = true →
       Completes (.mateDefectClear n .los) s n fun e =>
         e.mateDefect .los = false ∧ s.dev.released e 388))

/-- PM_SECOND_END, once the superframe count has left the running second: the new second runs, and the end of the old one
waits for its commit. PM_SECOND_COMMIT, 80,000 frames after the oldest end: that second waits no more. INDICATION_REPEAT of
a tree with an enabled defect declared, REPEAT_MS after its last indication: the sequence number advances and the next
repeat is timed from now. OSP_HOST_MESSAGE, once the dictionary answers: a message that fails the checks of R65, or a PLOAM
message for which its tree's queue has no free slot, is counted as discarded and nothing else changes; a PLOAM message that
passes joins the queue while it has one; an OMCI message that passes is counted. OSP_CREDIT, when one is due and none went in
this frame: it goes, naming the free slots, and none is due. Before the dictionary answers neither has an effect. (Rests on R57,
R58, R59, R60, R61, R62, R63, R64, R65, R350.) -/
def Obligations.SecondsAndSerialPorts : Prop :=
  (∀ (s : State) (n : Nat),
     (s.dev.rd .superframe 0 / 8000 ≠ s.dev.pmSecond → Completes (.pmSecondEnd n) s n fun e =>
       e.pmSecond = s.dev.rd .superframe 0 / 8000 ∧
       e.pmEnds = s.dev.pmEnds ++ [s.dev.rd .superframe 0 / 8000 * 8000]) ∧
     (∀ k rest, s.dev.pmEnds = k :: rest → k + 80000 ≤ s.dev.rd .superframe 0 →
       Completes (.pmSecondCommit n) s n fun e => e.pmEnds = rest ∧
         s.dev.rdKept e [.treePmEs, .treePmSes, .treePmUas, .termPmEs, .termPmSes, .termPmUas, .mateLineEs, .mateLineSes,
           .mateLineUas])) ∧
  (∀ (s : State) (n t b : Nat), t < 32 → b < 4 → s.dev.rd .repeatMs t ≠ 0 →
     bitAt (s.dev.rd .treeDefects t) b = true → bitAt (s.dev.rd .enableMask t) b = true →
     (s.dev.tree t).indAt + msTicks (s.dev.rd .repeatMs t) ≤ max s.now n →
     Completes (.indicationRepeat n t) s n fun e =>
       (e.tree t).indSeq = ((s.dev.tree t).indSeq + 1) % 256 ∧ (e.tree t).indAt = max s.now n ∧
       (e.tree t).indEvent = (s.dev.tree t).indEvent) ∧
  (∀ (s : State) (n : Nat), s.dev.chip.phase = .up →
     (∀ (p : Nat) (wire : Bytes), p < 2 →
       (s.dev.hostMessage wire = none → Completes (.ospHostMessage n p wire) s n fun e =>
         e.rd .rxDiscarded p = (s.dev.rd .rxDiscarded p + 1) % 2 ^ 64 ∧ s.dev.onlyRegs e [(.rxDiscarded, p)]) ∧
       (∀ broadcast g payload, s.dev.hostMessage wire = some (1, broadcast, g, payload) →
         64 ≤ (s.dev.tree (treeOfTerm g)).hostMsgs.length → Completes (.ospHostMessage n p wire) s n fun e =>
           e.rd .rxDiscarded p = (s.dev.rd .rxDiscarded p + 1) % 2 ^ 64 ∧ s.dev.onlyRegs e [(.rxDiscarded, p)]) ∧
       (∀ broadcast g payload, s.dev.hostMessage wire = some (2, broadcast, g, payload) →
         Completes (.ospHostMessage n p wire) s n fun e =>
           e.rd .rxMessages p = (s.dev.rd .rxMessages p + 1) % 2 ^ 64 ∧ e.wire = s.dev.wire) ∧
       (∀ broadcast g payload, s.dev.hostMessage wire = some (1, broadcast, g, payload) →
         (s.dev.tree (treeOfTerm g)).hostMsgs.length < 64 → Completes (.ospHostMessage n p wire) s n fun e =>
           (e.tree (treeOfTerm g)).hostMsgs = (s.dev.tree (treeOfTerm g)).hostMsgs ++ [.host broadcast g payload] ∧
           e.rd .rxMessages p = (s.dev.rd .rxMessages p + 1) % 2 ^ 64 ∧ s.dev.regsKept e [(.rxMessages, p)])) ∧
     (∀ t < 32, (s.dev.tree t).creditDue = true → (s.dev.tree t).creditSent ≠ some (s.dev.rd .superframe 0) →
       let p := s.dev.rd .ospPort t
       let wire := ospWire (ospFrame 3 0 (t * 512) (s.dev.rd .superframe 0) [64 - (s.dev.tree t).hostMsgs.length]) none
       Completes (.ospCredit n t) s n fun e =>
         (e.tree t).creditDue = false ∧ (e.tree t).creditSent = some (s.dev.rd .superframe 0) ∧
         (s.dev.ospHeld (max s.now n) p + ospUnits wire.length ≤ ospStore → e.wire = s.dev.wire ++ [.ospMessage p wire]))) ∧
  (∀ (s : State) (n : Nat), s.dev.chip.phase ≠ .up →
     (∀ (p : Nat) (wire : Bytes), p < 2 → Completes (.ospHostMessage n p wire) s n fun e => e = s.dev) ∧
     (∀ t < 32, Completes (.ospCredit n t) s n fun e => e = s.dev))

/-! ### Access of the dictionary (R300-R316) -/

/-- A WRITE of an open master meets the checks of R303 in their order: a long operation answers BUSY; then no such object 5,
no such instance 6, not writable 7, privilege 2, another master's lease 3, length 8, value 4, state 2. A refused access
changes no register but BUSY_ANSWERS and LEASE_REFUSED. (Rests on R302, R303.) -/
def Obligations.ChecksComeInOrder : Prop :=
  ∀ (s : State) (n : Nat) (m : Master) (index inst sub : Nat) (data : Bytes),
    masterExists m = true → s.dev.chip.phase = .up →
    (s.dev.settleTimes (max s.now n)).settleMgmt.masterOpen m = true →
    let a := s.dev.asked (max s.now n) m
    let answers (st : Nat) : Prop := Completes (.write n m index inst sub data) s n fun e =>
      a.regsKept e [(.busyAnswers, 0), (.leaseRefused, 0)] ∧
        ∃ bytes, e.wire.getLast? = some (.response m ⟨st, bytes⟩)
    a.chip.pendingReset = none →
    (a.mgmt.longOp ≠ none → answers 1) ∧
    (a.mgmt.longOp = none →
      (placeAt index sub = none → answers 5) ∧
      ∀ x, placeAt index sub = some x →
        (x.hasInstance inst = false → answers 6) ∧
        (x.hasInstance inst = true → x.writable = false → answers 7) ∧
        (x.hasInstance inst = true → x.writable = true → a.mayWrite m x = false → answers 2) ∧
        (x.hasInstance inst = true → x.writable = true → a.mayWrite m x = true → a.leaseRefuses m index = true →
          answers 3) ∧
        ∀ r, x = .reg r → r.hasInstance inst = true → x.writable = true → a.mayWrite m x = true →
          a.leaseRefuses m index = false →
          (data.length ≠ r.size → answers 8) ∧
          (data.length = r.size → a.badValue (max s.now n) r inst (ofBytes data) data = true → answers 4) ∧
          (data.length = r.size → a.badValue (max s.now n) r inst (ofBytes data) data = false → index ≠ 0x1110 →
            a.denied (max s.now n) m r inst (ofBytes data) data = true → answers 2))

/-- READ of a readable object within the master's rights answers OK with the object's value in the bytes of its type, and
changes nothing else. (Rests on R300, R303.) -/
def Obligations.ReadAnswersTheValue : Prop :=
  ∀ (s : State) (n : Nat) (m : Master) (r : Reg) (i : Nat), s.dev.hears (max s.now n) m = true →
    let a := s.dev.asked (max s.now n) m
    r.hasInstance i = true → (Place.reg r).readable = true → a.mayRead m i (.reg r) = true →
    a.readDenied m i (.reg r) = false →
    Completes (.read n m r.row.index i r.row.sub) s n fun e =>
      e = a.emit (.response m ⟨0, toBytes r.size (a.value (max s.now n) m r i)⟩)

/-- WRITE of an object without an action of its own: the instance holds the value, and no other register changes but
DSEQ_SENT. A READ that the same master sends next answers that value, where the object is readable and not computed. (Rests
on R300, R301, R303.) -/
def Obligations.WriteKeepsTheValue : Prop :=
  ∀ (s : State) (n : Nat) (m : Master) (r : Reg) (i : Nat) (data : Bytes), actsOnWrite r = false →
    s.dev.accepts (max s.now n) m r i data = true →
    (Answered (.write n m r.row.index i r.row.sub data) s n m fun a e =>
      e.rd r i = a.stored r i (ofBytes data) ∧ ∀ q j, q ≠ .dseqSent → (q, j) ≠ (r, i) → e.rd q j = a.rd q j) ∧
    ∀ (t : State) (n' : Nat), exec (.write n m r.row.index i r.row.sub data) s = .next t → computed r = false →
      (Place.reg r).readable = true → t.dev.hears (max t.now n') m = true →
      (t.dev.asked (max t.now n') m).mayRead m i (.reg r) = true →
      Completes (.read n' m r.row.index i r.row.sub) t n' fun e =>
        e.wire.getLast? =
          some (.response m ⟨0, toBytes r.size ((s.dev.asked (max s.now n) m).stored r i (ofBytes data))⟩)

/-- BULK_WRITE of records first to first + count - 1 of a table without an action of its own (QUEUE_CFG, LAG_BUCKETS,
PERMIT_SETS) stores each; no other record of any such table changes. BULK_READ answers the first record, the number of
records that fit, and their bytes, and changes nothing. (Rests on R303, R306.) -/
def Obligations.BulkAccessesMoveRecords : Prop :=
  ∀ (s : State) (n : Nat) (m : Master) (w first count : Nat), s.dev.hears (max s.now n) m = true →
    let a := s.dev.asked (max s.now n) m
    1 ≤ count → first + count ≤ (winOf w).records → first + count < 2 ^ 32 →
    (∀ data : Bytes, w ∈ [0x3700, 0x3701, 0x3802] → a.mayWrite m (.data w) = true → a.leaseRefuses m w = false →
      a.lockedAway m w 0 = false → a.rd .unitRole 0 < 2 → data.length = count * (winOf w).size →
      Answered (.bulkWrite n m w 0 1 first count data) s n m fun a e =>
        (∀ k < count, e.win w (first + k) =
          maskRecord w (ofBytes ((data.drop (k * (winOf w).size)).take (winOf w).size))) ∧
        ∀ w' ∈ [0x3700, 0x3701, 0x3802], ∀ r, ¬(w' = w ∧ first ≤ r ∧ r < first + count) → e.win w' r = a.win w' r) ∧
    (∀ inst, (winRow w).isSome = true → inst < (winOf w).count → (winOf w).acc ≠ .wo → 1 ≤ a.privOf m →
      0 < recordsThatFit (soleSpace m) (winOf w).size →
      (∀ k < min count (recordsThatFit (soleSpace m) (winOf w).size), a.recordDenied m w (first + k) = false) →
      Completes (.bulkRead n m w inst 1 first count) s n fun e => e = a.emit (.response m ⟨0,
        toBytes 4 first ++ toBytes 4 (min count (recordsThatFit (soleSpace m) (winOf w).size)) ++
          ((List.range (min count (recordsThatFit (soleSpace m) (winOf w).size))).map fun k =>
            a.winRecord (max s.now n) m w inst (first + k)).flatten⟩))

/-- NOP answers OK and changes nothing. CLOSE of a session answers OK: the session is closed, its key number is 0xFF, and a
lease it held is free; on the serial port it answers NO_SESSION. LOCK_WRITE takes a window's lock that no other master
holds, or frees it. FAULT_STATUS_CLEAR of a sticky source: it is sticky no more. LEASE_WRITE. 1 from a master while no other
holds the lease: it holds it from now on. 0 from it frees the lease. While another holds it, the answer is LOCKED and
LEASE_REFUSED counts it. LEASE_EXPIRY, LEASE_TIMEOUT_MS after the last renewal, frees it and counts; LOCK_EXPIRY,
LOCK_MAX_MS after a lock's, frees that lock and counts. (Rests on R160, R289, R306, R313.) -/
def Obligations.LocksLeasesAndClears : Prop :=
  (∀ (s : State) (n : Nat) (m : Master), s.dev.hears (max s.now n) m = true →
     let a := s.dev.asked (max s.now n) m
     (Completes (.nop n m) s n fun e => e = a.emit (.response m ⟨0, []⟩)) ∧
     (∀ k, m = .session k → Answered (.close n m) s n m fun a e =>
       e.rd .sessionState k = 0 ∧ e.rd .sessionKey k = 255 ∧ (a.rd .leaseHolder 0 = k → e.rd .leaseHolder 0 = 0) ∧
       (∀ l ∈ e.mgmt.locks, l.holder ≠ .session k)) ∧
     (m = .serial → Completes (.close n m) s n fun e => e = a.emit (.response m ⟨11, []⟩)) ∧
     (∀ w inst v, (winRow w).isSome = true → inst < (winOf w).count → v < 2 → a.mayWrite m (.lock w) = true →
       a.leaseRefuses m w = false → a.lockedAway m w inst = false →
       Answered (.lockWrite n m w inst v) s n m fun a e =>
         e.lockOf w inst = (if v = 1 then some ⟨w, inst, m, max s.now n⟩ else none) ∧ e.regs = a.regs) ∧
     (∀ x < 448, a.mayWrite m (.data 0x3301) = true → a.leaseRefuses m 0x3301 = false → a.lockedAway m 0x3301 0 = false →
       Answered (.faultStatusClear n m x) s n m fun _ e => (e.source x).sticky = false)) ∧
  (∀ (s : State) (n : Nat),
     (∀ (m : Master) (v : Nat), v < 2 → s.dev.hears (max s.now n) m = true →
       (s.dev.asked (max s.now n) m).mayWrite m (.reg .leaseReg) = true →
       ((s.dev.asked (max s.now n) m).leasedAway m = false → Answered (.leaseWrite n m v) s n m fun a e =>
         e.rd .leaseReg 0 = v ∧ e.rd .leaseHolder 0 = (if v = 1 then masterCode m else 0) ∧
         (v = 1 → e.mgmt.leaseAt = max s.now n) ∧ a.regsKept e [(.leaseReg, 0), (.leaseHolder, 0)]) ∧
       ((s.dev.asked (max s.now n) m).leasedAway m = true → Completes (.leaseWrite n m v) s n fun e =>
         e.wire.getLast? = some (.response m ⟨3, []⟩) ∧
         e.rd .leaseRefused 0 = ((s.dev.asked (max s.now n) m).rd .leaseRefused 0 + 1) % 2 ^ 64)) ∧
     (s.dev.rd .leaseHolder 0 ≠ 0 → s.dev.mgmt.leaseAt + msTicks (s.dev.rd .leaseTimeoutMs 0) ≤ max s.now n →
       Completes (.leaseExpiry n) s n fun e =>
         e.rd .leaseReg 0 = 0 ∧ e.rd .leaseHolder 0 = 0 ∧ e.rd .leaseExpired 0 = (s.dev.rd .leaseExpired 0 + 1) % 2 ^ 64 ∧
         s.dev.onlyRegs e [(.leaseReg, 0), (.leaseHolder, 0), (.leaseExpired, 0)]) ∧
     (∀ w inst l, s.dev.lockOf w inst = some l → l.at_ + msTicks (s.dev.rd .sweepLockMaxMs 0) ≤ max s.now n →
       Completes (.lockExpiry n w inst) s n fun e =>
         e.lockOf w inst = none ∧ e.rd .lockExpired 0 = (s.dev.rd .lockExpired 0 + 1) % 2 ^ 64 ∧
         s.dev.regsKept e [(.lockExpired, 0)]))

/-! ### Writes of the dictionary with an action -/

/-- The long operations of R314 start as the running one, each with its own limit: a profile change of a quad to another
profile (PROFILE reads the new value at once), a bulk load, a commit, an audit, a calibration (every lane calibrates), and a
tree's restart. (Rests on R33, R134, R154, R190, R253, R314, R319.) -/
def Obligations.LongOperationsStart : Prop :=
  ∀ (s : State) (n : Nat) (m : Master),
    (∀ q v, s.dev.acceptsNum (max s.now n) m .quadProfile q v = true →
      (s.dev.asked (max s.now n) m).rd .quadProfile q ≠ v → Answered (.profileWrite n m q v) s n m fun a e =>
        e.mgmt.longOp = some ⟨4, max s.now n, msTicks 40, 8 * v + q⟩ ∧ e.rd .quadProfile q = v ∧
        e.rd .profileState q = 1 ∧ (e.quad q).change = 1 ∧ (e.quad q).formerProfile = a.rd .quadProfile q ∧
        ∀ r i, r ≠ .dseqSent → (r, i) ∉ [(.quadProfile, q), (.profileState, q)] → e.rd r i = a.rd r i) ∧
    (∀ q v, s.dev.acceptsNum (max s.now n) m .quadProfile q v = true →
      (s.dev.asked (max s.now n) m).rd .quadProfile q = v → Answered (.profileWrite n m q v) s n m fun a e =>
        e.mgmt.longOp = none ∧ e.regs = a.regs ∧ e.quads = a.quads) ∧
    (s.dev.acceptsNum (max s.now n) m .loadGo 0 1 = true → Answered (.loadGo n m) s n m fun a e =>
      e.mgmt.longOp = some ⟨2, max s.now n, msTicks 20, 0⟩ ∧ ∀ r i, r ≠ .dseqSent → e.rd r i = a.rd r i) ∧
    (s.dev.acceptsNum (max s.now n) m .commitGo 0 1 = true → Answered (.commit n m) s n m fun a e =>
      e.mgmt.longOp = some ⟨1, max s.now n, msTicks 4, 0⟩ ∧ e.regs = a.regs) ∧
    (s.dev.acceptsNum (max s.now n) m .auditGo 0 1 = true → Answered (.auditGo n m) s n m fun a e =>
      e.mgmt.longOp = some ⟨5, max s.now n, msTicks 300, 0⟩ ∧ ∀ r i, r ≠ .dseqSent → e.rd r i = a.rd r i) ∧
    (s.dev.acceptsNum (max s.now n) m .calibrate 0 1 = true → Answered (.calibrate n m) s n m fun a e =>
      e.mgmt.longOp = some ⟨6, max s.now n, msTicks 1200, 0⟩ ∧
      (∀ l < 20, (e.lane l).calibrating = true ∧ e.rd .laneState l = (if a.rd .laneState l = 5 then 5 else 0)) ∧
      ∀ r i, r ≠ .dseqSent → r ≠ .laneState → e.rd r i = a.rd r i) ∧
    (∀ t, s.dev.acceptsNum (max s.now n) m .treeRestart t 1 = true → Answered (.treeRestart n m t) s n m fun a e =>
      e.mgmt.longOp = some ⟨3, max s.now n, msTicks 10, 2 ^ t⟩ ∧ (e.tree t).restarting = true ∧
      (∀ x, x ≠ t → e.tree x = a.tree x) ∧ ∀ r i, r ≠ .dseqSent → e.rd r i = a.rd r i)

/-- TREE_ENABLE 1 of a tree that may light then: it is lit and its transmit-disable bit is clear. TREE_ENABLE 0 of a tree
whose terminals are all EMPTY: it is dark, with its transmit-disable bit set. LINE_MODE: the mode, and BP_RATE
of all four entries as the profile adapts it. BP_VALID: the flag; a change forgets the announcement, and a lit tree queues
the message. The host's commands to a terminal. Deactivate, of any but an EMPTY one, takes it to EMPTY with its delay and
entry forgotten, and tells it on a lit tree; one in OPERATION on a tree with a hold time and its RDI indication off.
Quarantine takes any but a quarantined one to QUARANTINE, three disable messages due. Release takes a quarantined one to
EMPTY, and enables it on a lit tree. (Rests on R35, R50, R68, R69, R361.) -/
def Obligations.TreesAndTerminalsWritten : Prop :=
  (∀ (s : State) (n : Nat) (m : Master) (t v : Nat),
     (s.dev.acceptsNum (max s.now n) m .treeEnable t 1 = true →
       (s.dev.asked (max s.now n) m).on .treeEnable t = false →
       ((s.dev.asked (max s.now n) m).wr .treeEnable t 1).mayLight t = true →
       Answered (.treeEnableWrite n m t 1) s n m fun _ e =>
         e.rd .treeEnable t = 1 ∧ (e.tree t).lit = true ∧ bitAt (e.rd .txdisNow (quadOf t)) (t % 4) = false) ∧
     (s.dev.acceptsNum (max s.now n) m .treeEnable t 0 = true →
       (∀ g ∈ termsOfTree t, (s.dev.asked (max s.now n) m).rd .termState g = 0) →
       Answered (.treeEnableWrite n m t 0) s n m fun _ e =>
         e.rd .treeEnable t = 0 ∧ (e.tree t).lit = false ∧ bitAt (e.rd .txdisNow (quadOf t)) (t % 4) = true) ∧
     (s.dev.acceptsNum (max s.now n) m .lineMode t v = true → Answered (.lineModeWrite n m t v) s n m fun a e =>
       e.rd .lineMode t = v ∧ (∀ k < 4, e.rd .bpRate (4 * t + k) = adaptRate (a.treeProfile t) v) ∧
       ∀ r i, r ≠ .dseqSent → (r, i) ≠ (.lineMode, t) → (r = .bpRate → i / 4 ≠ t) → e.rd r i = a.rd r i) ∧
     (∀ i, v < 2 → s.dev.acceptsNum (max s.now n) m .bpValid i v = true → Answered (.bpValidWrite n m i v) s n m fun a e =>
       e.rd .bpValid i = v ∧
       (a.rd .bpValid i ≠ v → i % 4 ∉ (e.tree (i / 4)).announced ∧
         (e.tree (i / 4)).sequencer = (a.tree (i / 4)).sequencer ++
           (if (a.tree (i / 4)).lit then [if v = 1 then .profileAnnounce (i % 4) else .profileWithdraw (i % 4)] else [])) ∧
       ∀ r j, r ≠ .dseqSent → (r, j) ≠ (.bpValid, i) → e.rd r j = a.rd r j)) ∧
  (∀ (s : State) (n : Nat) (m : Master) (g : Nat),
     let a := s.dev.asked (max s.now n) m
     let t := treeOfTerm g
     (s.dev.acceptsNum (max s.now n) m .termCommand g 1 = true → a.rd .termState g ≠ 0 →
       (a.rd .termState g ≠ 2 ∨ a.rd .termHoldMs t ≠ 0 ∧ bitAt (a.rd .enableMask t) 3 = false) →
       Answered (.terminalDeactivate n m g) s n m fun a e =>
         e.rd .termState g = 0 ∧ e.rd .eqdBits g = 0 ∧ e.rd .bpEntry g = 0 ∧
         ((a.tree t).lit = true → .deactivate (a.rd .onuId g) ∈ (e.tree t).sequencer)) ∧
     (s.dev.acceptsNum (max s.now n) m .termCommand g 2 = true → a.rd .termState g ≠ 4 →
       Answered (.terminalQuarantine n m g) s n m fun _ e =>
         e.rd .termState g = 4 ∧ (e.term g).disableLeft = 3) ∧
     (s.dev.acceptsNum (max s.now n) m .termCommand g 3 = true → a.rd .termState g = 4 →
       Answered (.terminalRelease n m g) s n m fun a e =>
         e.rd .termState g = 0 ∧ ((a.tree t).lit = true → .enable (a.rd .snProvision g) ∈ (e.tree t).sequencer)))

/-- KEY_NEXT puts the key into the slot's next half, with the superframe count of its switch where the slot has one; a data
slot's switch message joins its tree's queue, in place of an earlier one. KEY_ERASE of a slot that holds a key leaves
neither half, and the slot marked erased, and of a tree's slot no job that waits or is suspended; no other slot changes, and no
register but those that count keystream. (Rests on R27, R120, R121, R124.) -/
def Obligations.KeysWritten : Prop :=
  ∀ (s : State) (n : Nat) (m : Master) (k : Nat),
    (∀ data : Bytes, s.dev.accepts (max s.now n) m .keyNext k data = true → Answered (.keyNext n m k data) s n m fun a e =>
      (e.slot k).next = some (keyOf (ofBytes data)) ∧ (e.slot k).retiring = false ∧ (e.slot k).current = (a.slot k).current ∧
      (switchedByCount k = true → (e.slot k).switchSfc = switchOf (ofBytes data)) ∧
      (slotKind k = .data → (e.tree (k / 512)).sequencer = ((a.tree (k / 512)).sequencer.filter fun p => match p with
        | .keySwitch i _ _ => i != k
        | _ => true) ++ [.keySwitch k (keyOf (ofBytes data)).index (switchOf (ofBytes data))]) ∧
      ∀ j, j ≠ k → e.slot j = a.slot j) ∧
    (s.dev.acceptsNum (max s.now n) m .keyErase k 1 = true →
      ((s.dev.asked (max s.now n) m).slot k).current ≠ none ∨ ((s.dev.asked (max s.now n) m).slot k).next ≠ none →
      Answered (.keyErase n m k) s n m fun a e =>
        (e.slot k).current = none ∧ (e.slot k).next = none ∧ (e.slot k).erased = true ∧
        (∀ j, j ≠ k → e.slot j = a.slot j) ∧
        (∀ t, slotTree k = some t → ∀ j ∈ (e.bank (quadOf t)).queue ++ (e.bank (quadOf t)).suspended, j.slot ≠ some k) ∧
        ∀ r i, r ∉ [.dseqSent, .ksReady] → e.rd r i = a.rd r i)

/-- GRAPH_DEFAULT stages the default parse graph, DISCARD makes staging the active version; neither touches the active
version. The operations on the Address Table join the Learning Engine's queue in the order they come; ADDR_FLUSH joins
the flushes with what it selects. FREE_MODE changed: the mode, and the free store rebuilt so that in bitmap mode the
cells in use are marked, in ring mode every bank's ring skips its own. MEMBERS: the mask, and bucket b of the group goes to
its (b mod m)-th member. PORT_WIDTH changed, no port being up: the width, and every uplink lane in stage 0 or 1. PEAK_RESET:
every queue's peak is its depth and its greatest delay 0, or that of a frame sent at this very tick. (Rests on R142, R153, R174, R186, R196, R197, R214, R248.) -/
def Obligations.TablesAndBufferWritten : Prop :=
  (∀ (s : State) (n : Nat) (m : Master),
     (s.dev.acceptsNum (max s.now n) m .graphDefault 0 1 = true → Answered (.graphDefault n m) s n m fun a e =>
       e.staging = { a.staging with nodes := defaultNodes, transitions := defaultTransitions } ∧ e.active = a.active ∧
       ∀ r i, r ≠ .dseqSent → e.rd r i = a.rd r i) ∧
     (s.dev.acceptsNum (max s.now n) m .discard 0 1 = true → Answered (.discard n m) s n m fun a e =>
       e.staging = a.active ∧ e.active = a.active ∧ ∀ r i, r ≠ .dseqSent → e.rd r i = a.rd r i) ∧
     (∀ rec < 2 ^ 128,
       (s.dev.accepts (max s.now n) m .addrOp 0 (1 :: toBytes 16 rec) = true →
         Answered (.addrInsertStatic n m rec) s n m fun a e =>
           e.addr = { a.addr with queue := a.addr.queue ++ [.op 1 rec] } ∧ e.regs = a.regs) ∧
       (s.dev.accepts (max s.now n) m .addrOp 0 (2 :: toBytes 16 rec) = true →
         Answered (.addrInsertDynamic n m rec) s n m fun a e =>
           e.addr = { a.addr with queue := a.addr.queue ++ [.op 2 rec] } ∧ e.regs = a.regs) ∧
       (s.dev.accepts (max s.now n) m .addrOp 0 (3 :: toBytes 16 rec) = true →
         Answered (.addrDelete n m rec) s n m fun a e =>
           e.addr = { a.addr with queue := a.addr.queue ++ [.op 3 rec] } ∧ e.regs = a.regs)) ∧
     (∀ data : Bytes, s.dev.accepts (max s.now n) m .addrFlush 0 data = true → Answered (.addrFlush n m data) s n m fun a e =>
       e.addr = { a.addr with flushes := a.addr.flushes ++
         [{ kind := byteAt data 0, domain := numAt data 1 2 % 4096, dest := numAt data 4 4, start := max s.now n }] })) ∧
  (∀ (s : State) (n : Nat) (m : Master) (v : Nat),
     (s.dev.acceptsNum (max s.now n) m .freeMode 0 v = true → (s.dev.asked (max s.now n) m).rd .freeMode 0 ≠ v →
       Answered (.freeModeWrite n m v) s n m fun a e =>
         e.rd .freeMode 0 = v ∧ (v ≠ 0 → e.buf.taken = a.usedCells) ∧
         (v = 0 → e.buf.taken = [] ∧ ∀ b < 32, e.ring b =
           { skip := a.usedCells.filterMap fun c => if c % 32 = b then some (c / 32) else none }) ∧
         e.buf.chains = a.buf.chains ∧ ∀ r i, r ≠ .dseqSent → (r, i) ≠ (.freeMode, 0) → e.rd r i = a.rd r i) ∧
     (∀ g, s.dev.acceptsNum (max s.now n) m .lagMembers g v = true → Answered (.membersWrite n m g v) s n m fun a e =>
       e.rd .lagMembers g = v % 65536 ∧
       (∀ b < 256, e.win 0x3701 (g * 256 + b) =
         if e.groupMembers g = [] then 0 else (e.groupMembers g).getD (b % (e.groupMembers g).length) 0) ∧
       ∀ r i, r ≠ .dseqSent → (r, i) ≠ (.lagMembers, g) → e.rd r i = a.rd r i) ∧
     (s.dev.acceptsNum (max s.now n) m .portWidth 0 v = true → (s.dev.asked (max s.now n) m).rd .portWidth 0 ≠ v →
       Answered (.portWidthWrite n m v) s n m fun _ e =>
         e.rd .portWidth 0 = v ∧ ∀ l < 16, e.rd .laneState l ≤ 1) ∧
     (s.dev.acceptsNum (max s.now n) m .peakReset 0 1 = true → Answered (.peakReset n m) s n m fun a e =>
       (∀ q, (e.stat q).peak = a.depth q ∧ (e.stat q).isolation = (a.stat q).isolation ∧
         (e.stat q).delayMax = (match (a.stat q).lastTick with
           | some (t, x) => if t = max s.now n then x else 0
           | none => 0)) ∧
       e.buf = a.buf ∧ ∀ r i, r ≠ .dseqSent → e.rd r i = a.rd r i))

/-- RATE_SET and STEP_SET name the change and its tick, 0 meaning the least lead of 250 us; they count as the servo's
writes, as SERVO_ALIVE does, which end a time holdover. CAPTURE latches the tick and its time. RCLK_SRC changed: 255
switches the recovered clock off; a lane squelches it, for 10 ms where the lane is up. PTP_TX of a message with STAMP set,
to a port whose hold runs, for which the HOST pool and the free store have cells: the message waits in the named queue of
the port, and the next sequence number is taken. (Rests on R224, R225, R226, R228, R233, R239.) -/
def Obligations.TimeObjectsWritten : Prop :=
  (∀ (s : State) (n : Nat) (m : Master) (v c1 : Nat), c1 < 2 ^ 64 →
     (v < 2 ^ 48 → s.dev.accepts (max s.now n) m .rateSet 0 (toBytes 6 v ++ toBytes 8 c1) = true →
       Answered (.rateSet n m v c1) s n m fun a e =>
         e.gnomon.rate = some (v, changeTick (max s.now n) c1) ∧ e.gnomon.step = a.gnomon.step ∧
         e.gnomon.servoAt = max s.now n ∧
         e.rd .timeState 0 = 1) ∧
     (v < 2 ^ 96 →
       (s.dev.accepts (max s.now n) m .stepSet 0 (0 :: (toBytes 12 v ++ toBytes 8 c1)) = true →
         Answered (.stepAdd n m v c1) s n m fun a e =>
           e.gnomon.step = some (0, v, changeTick (max s.now n) c1) ∧ e.gnomon.rate = a.gnomon.rate ∧
           e.gnomon.servoAt = max s.now n) ∧
       (s.dev.accepts (max s.now n) m .stepSet 0 (1 :: (toBytes 12 v ++ toBytes 8 c1)) = true →
         Answered (.stepSubtract n m v c1) s n m fun a e =>
           e.gnomon.step = some (1, v, changeTick (max s.now n) c1) ∧ e.gnomon.rate = a.gnomon.rate ∧
           e.gnomon.servoAt = max s.now n) ∧
       (s.dev.accepts (max s.now n) m .stepSet 0 (2 :: (toBytes 12 v ++ toBytes 8 c1)) = true →
         Answered (.stepSetTime n m v c1) s n m fun a e =>
           e.gnomon.step = some (2, v, changeTick (max s.now n) c1) ∧ e.gnomon.rate = a.gnomon.rate ∧
           e.gnomon.servoAt = max s.now n)) ∧
     (s.dev.acceptsNum (max s.now n) m .servoAlive 0 1 = true → Answered (.servoAlive n m) s n m fun a e =>
       e.gnomon = { a.gnomon with servoAt := max s.now n } ∧
       e.rd .timeState 0 = (if a.rd .timeState 0 = 2 then 1 else a.rd .timeState 0)) ∧
     (s.dev.acceptsNum (max s.now n) m .captureCmd 0 1 = true → Answered (.capture n m) s n m fun a e =>
       e.rd .captTick 0 = max s.now n % 2 ^ 64 ∧ e.rd .captTime 0 = a.timeAt (max s.now n) % 2 ^ 96 ∧
       ∀ r i, r ≠ .dseqSent → (r, i) ∉ [(.captTick, 0), (.captTime, 0)] → e.rd r i = a.rd r i) ∧
     (s.dev.acceptsNum (max s.now n) m .rclkSrc 0 v = true → (s.dev.asked (max s.now n) m).rd .rclkSrc 0 ≠ v →
       Answered (.rclkSrcWrite n m v) s n m fun a e =>
         e.rd .rclkSrc 0 = v ∧ s.dev.released e 423 ∧
         (v = 255 → e.rd .rclkState 0 = 0 ∧ e.gnomon.rclkUntil = none) ∧
         (v ≠ 255 → e.rd .rclkState 0 = 2 ∧ e.gnomon.rclkUntil =
           if a.rd .laneState v = 5 then some (max s.now n + msTicks 10) else none))) ∧
  (∀ (s : State) (n : Nat) (m : Master) (data : Bytes), s.dev.accepts (max s.now n) m .ptpTx 0 data = true →
     let a := s.dev.asked (max s.now n) m
     let msg := (data.drop 4).take (numAt data 2 2)
     let q := upQueue (byteAt data 0) (byteAt data 1 % 8)
     bitAt (byteAt data 1) 6 = true → a.portGate (byteAt data 0) = .held →
     (a.takeCells 33 (cellsOf (max 64 (msg.length + 4))) []).1 = true →
     Answered (.ptpTx n m data) s n m fun a e =>
       e.rd .txNextSeq 0 = (a.rd .txNextSeq 0 + 1) % 65536 ∧
       ∃ k x, e.queue q = a.queue q ++ [k] ∧ e.desc k = some x ∧ (e.chainOf x).bytes = msg ∧ x.pool = 33 ∧
         x.ring = some (a.rd .txNextSeq 0) ∧ x.oneStep = bitAt (byteAt data 1) 7)

/-- PORT_ENABLE changed, of a port that is down: 1 sends its lanes to stage 1 where they are calibrated and the port may
run, 0 to stage 0 with no link fault. MATE_ENABLE likewise. EYE_SCAN starts a scan of a lane that is up. REDUNDANCY_ENABLE 1
on a unit outside redundancy: it is enabled, and the 1 ms of listening starts. 0 on an ALONE or ACTIVE unit with no
relinquish under way: it is ALONE and not enabled. ROLE_CMD 2 of a FENCED unit: it is a STANDBY, dark, following its mate's
time and resyncing. RESYNC of a STANDBY: its mirror resyncs, with source 396. (Rests on R249, R251, R264, R265, R276, R320.)
-/
def Obligations.LanesAndRolesWritten : Prop :=
  (∀ (s : State) (n : Nat) (m : Master) (p v : Nat), v < 2 →
     (s.dev.acceptsNum (max s.now n) m .portEnable p v = true → (s.dev.asked (max s.now n) m).rd .portEnable p ≠ v →
       (s.dev.asked (max s.now n) m).portUp p = false → p < (s.dev.asked (max s.now n) m).portCount →
       Answered (.portEnableWrite n m p v) s n m fun a e =>
         e.rd .portEnable p = v ∧ (v = 0 → s.dev.released e (304 + 4 * p)) ∧
         ∀ l ∈ a.lanesOf p, e.rd .laneState l =
           if v = 1 ∧ a.portShut p = false ∧ a.faults.device ≠ 2 ∧ (a.lane l).calibrated = true ∧ (a.lane l).calibrating = false
           then 1 else 0) ∧
     (s.dev.acceptsNum (max s.now n) m .mateEnable 0 v = true → (s.dev.asked (max s.now n) m).rd .mateEnable 0 ≠ v →
       Answered (.mateEnableWrite n m v) s n m fun a e =>
         e.rd .mateEnable 0 = v ∧ (v = 0 → e.rd .mateState 0 = 0 ∧ s.dev.released e 398) ∧
         ∀ l ∈ mateLanes, e.rd .laneState l =
           if v = 1 ∧ a.mateShut = false ∧ (a.lane l).calibrated = true ∧ (a.lane l).calibrating = false then 1 else 0) ∧
     (∀ l, s.dev.acceptsNum (max s.now n) m .eyeScan l 1 = true → Answered (.eyeScan n m l) s n m fun a e =>
       (e.lane l).scanning = true ∧ (∀ k, k ≠ l → e.lane k = a.lane k) ∧ ∀ r i, r ≠ .dseqSent → e.rd r i = a.rd r i)) ∧
  (∀ (s : State) (n : Nat) (m : Master),
     (s.dev.acceptsNum (max s.now n) m .redundancyEnable 0 1 = true →
       (s.dev.asked (max s.now n) m).rd .redundancyEnable 0 = 0 → Answered (.redundancyEnableWrite n m 1) s n m fun a e =>
         e.rd .redundancyEnable 0 = 1 ∧ e.mate.joiningAt = some (max s.now n) ∧ e.mate.heardRole0 = false ∧
         e.mate.heardRole1 = false ∧ e.rd .unitRole 0 = a.rd .unitRole 0) ∧
     (s.dev.acceptsNum (max s.now n) m .redundancyEnable 0 0 = true →
       (s.dev.asked (max s.now n) m).rd .redundancyEnable 0 = 1 →
       (s.dev.asked (max s.now n) m).mate.relinquishing = none → Answered (.redundancyEnableWrite n m 0) s n m fun _ e =>
         e.rd .redundancyEnable 0 = 0 ∧ e.rd .unitRole 0 = 0 ∧ e.rd .mirrorState 0 = 0 ∧ e.rd .pathState 0 = 0 ∧
         e.mate.joiningAt = none) ∧
     (s.dev.acceptsNum (max s.now n) m .roleCmd 0 2 = true → Answered (.rejoin n m) s n m fun _ e =>
       e.rd .unitRole 0 = 2 ∧ e.rd .mirrorState 0 = 1 ∧ e.rd .timeState 0 = 3 ∧ (e.source 396).level = true ∧
       (∀ q < 8, e.rd .txdisNow q = 15) ∧ ∀ t < 32, (e.tree t).lit = false ∧ e.rd .listenState t = 1) ∧
     (s.dev.acceptsNum (max s.now n) m .resync 0 1 = true → Answered (.resync n m) s n m fun a e =>
       e.rd .mirrorState 0 = 1 ∧ (e.source 396).level = true ∧
       ∀ r i, r ≠ .dseqSent → r ≠ .occurrences → (r, i) ≠ (.mirrorState, 0) → e.rd r i = a.rd r i))

/-- FF_CLEAR empties the first-fault record and zeroes OVERFLOW, unless a sticky bit refills it, which then says so.
FAULT_TEST of an enabled source 447 counts an occurrence of it, with its writer, that its collector will take. FAULT_LEVEL: the
level, and outside a take-over gap FAULT_L follows it. SNAP_GO latches every register at this tick; COUNTER_CLEAR sets every counter of the groups of its mask
to zero, and no other register. (Rests on R289, R290, R291, R294, R295.) -/
def Obligations.FaultAndCounterObjectsWritten : Prop :=
  ∀ (s : State) (n : Nat) (m : Master) (v : Nat),
    (s.dev.acceptsNum (max s.now n) m .ffClear 0 1 = true → Answered (.ffClear n m) s n m fun a e =>
      e.faults.overflow = 0 ∧ (a.stickySevs = [] → e.faults.first = none) ∧
      (a.stickySevs ≠ [] → ∃ f, e.faults.first = some f ∧ f.refilled = true ∧ f.sameCycle = 0) ∧
      e.faults.sources = a.faults.sources ∧ ∀ r i, r ≠ .dseqSent → e.rd r i = a.rd r i) ∧
    (s.dev.acceptsNum (max s.now n) m .faultTest 0 v = true → (s.dev.asked (max s.now n) m).disabled 447 = false →
      Answered (.faultTest n m v) s n m fun a e =>
        e.rd .occurrences 447 = (a.rd .occurrences 447 + 1) % 2 ^ 64 ∧
        e.faults.arriving = a.faults.arriving ++ [(max s.now n, a.severity 447, match m with
          | .session k => { source := 447, master := 2, access := 2, session := k, index := v }
          | .serial => { source := 447, master := 3, access := 2, index := v })] ∧
        ∀ r i, r ≠ .dseqSent → (r, i) ≠ (.occurrences, 447) → e.rd r i = a.rd r i) ∧
    (s.dev.acceptsNum (max s.now n) m .faultLevel 0 v = true → Answered (.faultLevelWrite n m v) s n m fun a e =>
      e.rd .faultLevel 0 = v ∧
      (a.mate.firstFrame = none → e.chip.faultL = a.stickySevs.any (fun x => v ≤ x) ∧
        e.chip.alertL = a.stickySevs.any (fun x => 1 ≤ x)) ∧
      (a.mate.firstFrame ≠ none → e.chip = a.chip)) ∧
    (s.dev.acceptsNum (max s.now n) m .snapGo 0 v = true → Answered (.snapGo n m v) s n m fun a e =>
      e.snap.mask = v ∧ e.snap.regs = a.regs ∧ e.snap.stats = a.sched.stats ∧ e.snap.counts = a.sched.counts ∧
      e.rd .snapTick 0 = max s.now n % 2 ^ 64 ∧ e.rd .snapState 0 = 1) ∧
    (s.dev.acceptsNum (max s.now n) m .counterClear 0 v = true → Answered (.counterClear n m v) s n m fun a e =>
      ∀ r i, r ≠ .dseqSent → e.rd r i =
        if r.row.flags.counter = true ∧ bitAt v (r.group i) = true then r.dflt i else a.rd r i)

/-! ### Sessions and the serial port (R307-R315) -/

/-- OPEN on the management port. In the clear, where that is allowed and a session is free: the lowest free session is open
with the asked privilege or its ceiling, no key and sequence 0. Authenticated under a key that the slot holds: the session
is pending until its next request. With no session free, or where the clear is not allowed, nothing opens. A long operation
answers BUSY. A session ends by SESSION_CLOSE of a master, SESSION_IDLE_MS after its last request, or, pending, 1,000 ms
after its opening: its state is 0, its key 0xFF, its lease and its locks free. LAST_SEQ and LAST_STATUS stay, as does every
other session. (Rests on R309, R310, R311, R312.) -/
def Obligations.SessionsOpenAndEnd : Prop :=
  (∀ (s : State) (n source keyId : Nat) (data : Bytes), s.dev.chip.phase = .up → keyId < 4 → source < 2 ^ 48 →
     let a := (s.dev.settleTimes (max s.now n)).settleMgmt
     let opens (k state key : Nat) : Prop := Completes (.openSession n source keyId data) s n fun e =>
       e.rd .sessionState k = state ∧ e.rd .sessionKey k = key ∧ e.rd .sessionSrc k = source ∧ e.rd .lastSeq k = 0 ∧
       e.rd .sessionPriv k = min (byteAt data 1) (if key = 255 then a.rd .unauthPriv 0 else a.rd .keyPriv keyId) % 256 ∧
       ∀ j, j ≠ k → e.rd .sessionState j = a.rd .sessionState j
     (a.mgmt.longOp = none → bitAt (byteAt data 0) 0 = false → a.on .authRequired 0 = false →
       ∀ k rest, a.sessionsIn 0 = k :: rest → opens k 2 255) ∧
     (a.mgmt.longOp = none → bitAt (byteAt data 0) 0 = true → (a.slot (32832 + keyId)).current ≠ none →
       a.fifthPending = none → ∀ k rest, a.sessionsIn 0 = k :: rest → opens k 1 keyId) ∧
     (a.mgmt.longOp = none → bitAt (byteAt data 0) 0 = false → a.on .authRequired 0 = true →
       Completes (.openSession n source keyId data) s n fun e => e.regs = a.regs) ∧
     (a.mgmt.longOp ≠ none → Completes (.openSession n source keyId data) s n fun e =>
       e.rd .busyAnswers 0 = (a.rd .busyAnswers 0 + 1) % 2 ^ 64 ∧ a.regsKept e [(.busyAnswers, 0)])) ∧
  (∀ (s : State) (n k : Nat), 1 ≤ k → k ≤ 16 →
     let ended (d e : Dev) : Prop :=
       e.rd .sessionState k = 0 ∧ e.rd .sessionKey k = 255 ∧ e.rd .sessionPriv k = 0 ∧
       e.rd .lastSeq k = d.rd .lastSeq k ∧ e.rd .lastStatus k = d.rd .lastStatus k ∧
       (d.rd .leaseHolder 0 = k → e.rd .leaseHolder 0 = 0) ∧ (∀ l ∈ e.mgmt.locks, l.holder ≠ .session k) ∧
       ∀ j, j ≠ k → e.rd .sessionState j = d.rd .sessionState j
     (∀ m, s.dev.acceptsNum (max s.now n) m .sessionClose k 1 = true →
       Answered (.sessionClose n m k) s n m fun a e => ended a e) ∧
     (s.dev.rd .sessionState k = 2 → (s.dev.session k).lastAt + msTicks (s.dev.rd .sessionIdleMs 0) ≤ max s.now n →
       Completes (.sessionIdleExpiry n k) s n fun e => ended s.dev e) ∧
     (s.dev.rd .sessionState k = 1 → (s.dev.session k).openedAt + msTicks 1000 ≤ max s.now n →
       Completes (.pendingSessionExpiry n k) s n fun e => ended s.dev e))

/-- SWIJAN_REQUEST. A frame on the management port whose fields R308 rules out counts as malformed, one of another EtherType
as other; a sealed request of a session that is not open counts as stale. A clear request of one NOP, next in the sequence
of an open session, is answered OK: LAST_SEQ is its number, LAST_STATUS 0, and the reply is kept for a repeat. (Rests on
R308, R310.) -/
def Obligations.SwijanFramesAreJudged : Prop :=
  ∀ (s : State) (n : Nat) (f : SwijanFrame), s.dev.chip.phase = .up → f.arrival = .mgmt → f.dest = s.dev.rd .mgmtMac 0 →
    f.dest ≠ 0xFFFFFFFFFFFF →
    let a := (s.dev.settleTimes (max s.now n)).settleMgmt
    let k := byteAt f.body 2
    (f.etype ≠ s.dev.rd .swijanEtype 0 → Completes (.swijanRequest n f) s n fun e =>
      e.rd .mgmtOther 0 = (s.dev.rd .mgmtOther 0 + 1) % 2 ^ 64 ∧ s.dev.regsKept e [(.mgmtOther, 0)]) ∧
    (f.etype = s.dev.rd .swijanEtype 0 → s.dev.pduGood f = false → Completes (.swijanRequest n f) s n fun e =>
      e.rd .malformed 0 = (s.dev.rd .malformed 0 + 1) % 2 ^ 64 ∧ s.dev.regsKept e [(.malformed, 0)]) ∧
    (f.etype = s.dev.rd .swijanEtype 0 → s.dev.pduGood f = true → bitAt (byteAt f.body 1) 6 = true →
      (k = 0 ∨ 16 < k ∨ a.rd .sessionState k = 0) → Completes (.swijanRequest n f) s n fun e =>
        e.rd .staleSession 0 = (a.rd .staleSession 0 + 1) % 2 ^ 64 ∧ a.regsKept e [(.staleSession, 0)] ∧
        e.wire = a.wire) ∧
    (f.etype = s.dev.rd .swijanEtype 0 → s.dev.pduGood f = true → bitAt (byteAt f.body 1) 6 = false →
      f.body.length = 48 → numAt f.body 32 2 = 48 → numAt f.body 34 2 = 1 → byteAt f.body 36 = 7 → numAt f.body 44 2 = 0 →
      1 ≤ k → k ≤ 16 → a.rd .sessionState k = 2 → a.rd .sessionKey k = 255 → a.mgmt.longOp = none →
      a.chip.pendingReset = none → numAt f.body 4 4 = (a.rd .lastSeq k + 1) % 2 ^ 32 →
      Completes (.swijanRequest n f) s n fun e =>
        e.rd .lastSeq k = (a.rd .lastSeq k + 1) % 2 ^ 32 ∧ e.rd .lastStatus k = 0 ∧
        a.regsKept e [(.lastSeq, k), (.lastStatus, k)] ∧ (e.session k).lastAt = max s.now n ∧
        (e.session k).stored = clearPdu k (numAt f.body 4 4) [(f.body.drop 36, ⟨0, []⟩)] ∧
        e.wire = a.wire ++ [.swijanReply .mgmt f.source f.tags (e.session k).stored])

/-- DSP_REQUEST. A frame that is not whole or fails its CRC counts in DSP_CRC_ERR, and the next fetch tells so. A good one
of a NOP, with no request waiting, has its response ready. DSP_FETCH answers the response once ready, any number of times;
the sign of a bad frame once. (Rests on R315.) -/
def Obligations.SerialPortAnswers : Prop :=
  ∀ (s : State) (n : Nat), s.dev.chip.phase = .up →
    let a := (s.dev.settleTimes (max s.now n)).settleMgmt
    (∀ b : Bytes, s.dev.dspPending = false → dspGood b = false → Completes (.dspRequest n b) s n fun e =>
      e.rd .dspCrcErr 0 = (s.dev.rd .dspCrcErr 0 + 1) % 2 ^ 64 ∧ e.mgmt.dspReady = 0x3C ∧
      s.dev.regsKept e [(.dspCrcErr, 0)] ∧ e.wire = s.dev.wire) ∧
    (∀ b : Bytes, s.dev.dspPending = false → dspGood b = true → a.mgmt.longOp = none →
      a.chip.pendingReset = none → byteAt b 2 = 7 → Completes (.dspRequest n b) s n fun e =>
        e.mgmt.dspReady = 0xA5 ∧ e.mgmt.dspSeq = byteAt b 1 ∧
        e.mgmt.dspResponse = respCommand ((b.drop 2).take 12, ⟨0, []⟩) ∧ e.regs = a.regs) ∧
    (s.dev.mgmt.dspReady = 0xA5 → Completes (.dspFetch n) s n fun e => e = s.dev.emit (.dspReply
      ([0, 0xA5, s.dev.mgmt.dspSeq] ++ s.dev.mgmt.dspResponse ++
        toBytes 2 (crc16 ([0, 0xA5, s.dev.mgmt.dspSeq] ++ s.dev.mgmt.dspResponse))))) ∧
    (s.dev.mgmt.dspReady = 0x3C → Completes (.dspFetch n) s n fun e =>
      e.mgmt.dspReady = 0x0F ∧ e.wire = s.dev.wire ++ [.dspReply [0, 0x3C]] ∧ e.regs = s.dev.regs)

/-! ### References, power, start-up, resets (R326-R342) -/

/-- The root reference of a running device. REF_LOST: the selected input is not good, its source holds, the root PLL holds
over. OTHER_REF_LOST of an input that is not selected: its source alone. REF_GOOD: the input is good and its source does not
hold. REF_RELOCK to a good input, selected or with automatic switching, ends the holdover, and counts a switch to another
than before. REF_HOLDOVER_FAULT after more than 1 ms: source 427. REF_SELECT of the other input, good, selects it. Power
domains. PD_ENABLE 1 of a domain that is off, its die not in reset: it ramps. 0 of a quad domain whose trees have no
terminal: it is off, its trees dark, its PLL unlocked. PD_ON_DONE: a ramping domain is on and counted, and a quad's trees
are to relight. POWER_DOMAIN_FAULT of a ramping or working domain that is no quad's: it is held off, and its source holds.
SIDEBAND_FRAME of a powered quad, the device up and in no warm reset, shifts its four transmit-disable bits out. A frame with the right
pattern on a chain that is not in error sets SIGNAL_DETECT of the quad's trees; a wrong one is counted, and the third in a
row puts the chain in error, with its source and no signal detect. (Rests on R326, R327, R328, R335, R336, R345, R350.) -/
def Obligations.PowerAndReferences : Prop :=
  (∀ (s : State) (n : Nat), s.dev.running = true →
     (s.dev.rd .refSelect 0 < 2 → Completes (.refLost n) s n fun e =>
       e.refIsGood (s.dev.rd .refSelect 0) = false ∧ (e.source (425 + s.dev.rd .refSelect 0)).level = true ∧
       e.rd .refState 0 = 2 ∧ e.chip.holdoverAt = some (s.dev.chip.holdoverAt.getD (max s.now n)) ∧
       ∀ r i, r ≠ .occurrences → r ≠ .refState → e.rd r i = s.dev.rd r i) ∧
     (∀ r < 2, r ≠ s.dev.rd .refSelect 0 → Completes (.otherRefLost n r) s n fun e =>
       e.refIsGood r = false ∧ (e.source (425 + r)).level = true ∧ ∀ q i, q ≠ .occurrences → e.rd q i = s.dev.rd q i) ∧
     (∀ r < 2, Completes (.refGood n r) s n fun e =>
       e.refIsGood r = true ∧ s.dev.released e (425 + r) ∧ e.regs = s.dev.regs) ∧
     (∀ r < 2, ∀ residual, s.dev.rd .refState 0 = 2 → s.dev.refIsGood r = true →
       (r = s.dev.rd .refSelect 0 ∨ s.dev.on .refAuto 0 = true) → Completes (.refRelock n r residual) s n fun e =>
         e.rd .refState 0 = r ∧ e.rd .refSelect 0 = r ∧ e.chip.holdoverAt = none ∧ s.dev.released e 427 ∧
         e.gnomon.residual = s.dev.gnomon.residual + residual ∧
         e.rd .refSwitches 0 = (if r = s.dev.chip.lockedRef then s.dev.rd .refSwitches 0
           else (s.dev.rd .refSwitches 0 + 1) % 2 ^ 64)) ∧
     (∀ t, s.dev.chip.holdoverAt = some t → t + msTicks 1 < max s.now n → Completes (.refHoldoverFault n) s n fun e =>
       (e.source 427).level = true ∧ ∀ q i, q ≠ .occurrences → e.rd q i = s.dev.rd q i) ∧
     (∀ m v, s.dev.acceptsNum (max s.now n) m .refSelect 0 v = true →
       (s.dev.asked (max s.now n) m).rd .refSelect 0 ≠ v → Answered (.refSelectWrite n m v) s n m fun a e =>
         e.rd .refSelect 0 = v ∧ e.rd .refState 0 = 2 ∧
         ∀ r i, r ≠ .dseqSent → r ≠ .refSelect → r ≠ .refState → e.rd r i = a.rd r i)) ∧
  (∀ (s : State) (n w : Nat), w < 20 →
     (∀ m, s.dev.acceptsNum (max s.now n) m .pdEnable w 1 = true → (s.dev.asked (max s.now n) m).rd .pdEnable w = 0 →
       domainDie w ∉ (s.dev.asked (max s.now n) m).chip.dieReset → Answered (.pdEnableWrite n m w 1) s n m fun a e =>
         e.rd .pdEnable w = 1 ∧ e.rd .pdState w = 1 ∧
         ∀ r i, r ≠ .dseqSent → (r, i) ∉ [(.pdEnable, w), (.pdState, w)] → e.rd r i = a.rd r i) ∧
     (∀ m q, s.dev.acceptsNum (max s.now n) m .pdEnable w 0 = true → (s.dev.asked (max s.now n) m).rd .pdEnable w ≠ 0 →
       domainQuad w = some q →
       (∀ t ∈ treesOfQuad q, ∀ g ∈ termsOfTree t, (s.dev.asked (max s.now n) m).rd .termState g = 0) →
       Answered (.pdEnableWrite n m w 0) s n m fun _ e =>
         e.rd .pdEnable w = 0 ∧ e.rd .pdState w = 0 ∧ e.rd .pllLocked q = 0 ∧ e.rd .sbState q = 0 ∧ e.bank q = {} ∧
         ∀ t ∈ treesOfQuad q, (e.tree t).lit = false ∧ e.rd .signalDetect t = 0) ∧
     (s.dev.rd .pdState w = 1 → Completes (.pdOnDone n w) s n fun e =>
       e.rd .pdState w = 2 ∧ e.rd .pdCycles w = (s.dev.rd .pdCycles w + 1) % 2 ^ 64 ∧
       (∀ q, domainQuad w = some q → e.rd .pllLocked q = 1 ∧ ∀ t ∈ treesOfQuad q, (e.tree t).relightDue = true) ∧
       (domainQuad w = none → s.dev.onlyRegs e [(.pdState, w), (.pdCycles, w)])) ∧
     (s.dev.running = true → (s.dev.rd .pdState w = 1 ∨ s.dev.rd .pdState w = 2) → domainQuad w = none →
       Completes (.powerDomainFault n w) s n fun e =>
         e.rd .pdState w = 3 ∧ (e.source (domainSource w)).level = true ∧
         ∀ r i, r ≠ .occurrences → (r, i) ≠ (.pdState, w) → e.rd r i = s.dev.rd r i)) ∧
  (∀ (s : State) (n q x : Nat), q < 8 → s.dev.rd .pdState (quadDomain q) = 2 → s.dev.chip.phase = .up →
     (field x 4 4 = 5 → s.dev.rd .sbState q ≠ 2 → Completes (.sidebandFrame n q x) s n fun e =>
       e.wire = s.dev.wire ++ [.sideband q (s.dev.rd .txdisNow q % 16)] ∧ (e.quad q).badRun = 0 ∧
       (∀ i < 4, e.rd .signalDetect (4 * q + i) = ofBool (bitAt x i)) ∧
       ∀ r i, r ≠ .sbState → r ≠ .signalDetect → e.rd r i = s.dev.rd r i) ∧
     (field x 4 4 ≠ 5 → Completes (.sidebandFrame n q x) s n fun e =>
       e.wire = s.dev.wire ++ [.sideband q (s.dev.rd .txdisNow q % 16)] ∧
       e.rd .sbErrors q = (s.dev.rd .sbErrors q + 1) % 2 ^ 64 ∧ (e.quad q).badRun = min 3 ((s.dev.quad q).badRun + 1) ∧
       ((s.dev.quad q).badRun = 2 → s.dev.rd .sbState q ≠ 2 → e.rd .sbState q = 2 ∧
         (e.source (256 + 4 * q + 3)).level = true ∧ ∀ i < 4, e.rd .signalDetect (4 * q + i) = 0)))

/-- Resets commanded by a unit that is not ACTIVE. WARM_RESET: after its response the warm phase runs; no session, lock or
lease is left, staging is the active version, the role is ALONE and the reset is counted. DIE_RESET of a tree die: it is in
reset, its bridge down, its trees dark. QUAD_RESET and TREE_RESET of a part that no reset covers, its terminals EMPTY: the
part is in reset and its trees dark. A covered part is left as it is. RESET_END. The warm phase ends: the device is up and
every tree is to relight. A tree die's reset ends: its bridge is locked and retrained, and its trees are to relight; a
quad's and a tree's likewise. A restart's end, no terminal being in service and no other tree restarting, with no operation
waiting: the tree is dark, its maps, demand and keystream are gone, the restart is counted and the long operation over. TREE_RELIGHT of a tree that is due and may light, outside a take-over: it is
lit. (Rests on R319, R340, R341.) -/
def Obligations.ResetsBeginAndEnd : Prop :=
  (∀ (s : State) (n : Nat) (m : Master),
     let a := s.dev.asked (max s.now n) m
     (s.dev.acceptsNum (max s.now n) m .warmReset 0 1 = true → a.rd .unitRole 0 ≠ 1 → a.mate.relinquishing = none →
       (∀ g < 16384, a.rd .termState g = 0) → Completes (.warmReset n m) s n fun e =>
         e.chip.phase = .warm ∧ e.chip.pendingReset = none ∧ e.staging = e.active ∧ e.mgmt.locks = [] ∧
         e.rd .leaseHolder 0 = 0 ∧ e.rd .unitRole 0 = 0 ∧ e.rd .lastReset 0 = 1 ∧
         e.rd .warmResets 0 = (a.rd .warmResets 0 + 1) % 2 ^ 64 ∧ e.chip.faultL = false ∧
         (∀ k, 1 ≤ k → k ≤ 16 → e.rd .sessionState k = 0) ∧ .response m ⟨0, []⟩ ∈ e.wire) ∧
     (∀ d < 2, s.dev.acceptsNum (max s.now n) m .dieReset 0 d = true → a.rd .unitRole 0 ≠ 1 → a.mate.relinquishing = none →
       d ∉ a.chip.dieReset → (∀ t ∈ treesOfDie d, ∀ g ∈ termsOfTree t, a.rd .termState g = 0) →
       Completes (.dieReset n m d) s n fun e =>
         d ∈ e.chip.dieReset ∧ e.rd (bridgeState d) 0 = 0 ∧ e.rd .lastReset 0 = 2 ∧
         (∀ t ∈ treesOfDie d, (e.tree t).lit = false) ∧ .response m ⟨0, []⟩ ∈ e.wire) ∧
     (∀ q, s.dev.acceptsNum (max s.now n) m .quadReset q 1 = true →
       (∀ t ∈ treesOfQuad q, ∀ g ∈ termsOfTree t, a.rd .termState g = 0) →
       ((a.quad q).inReset = false → q / 4 ∉ a.chip.dieReset → Answered (.quadReset n m q) s n m fun a e =>
         (e.quad q).inReset = true ∧ e.rd .quadResets q = (a.rd .quadResets q + 1) % 2 ^ 64 ∧ e.bank q = {} ∧
         ∀ t ∈ treesOfQuad q, (e.tree t).lit = false) ∧
       ((a.quad q).inReset = true → Answered (.quadReset n m q) s n m fun a e => e.quads = a.quads ∧ e.trees = a.trees)) ∧
     (∀ t, s.dev.acceptsNum (max s.now n) m .treeReset t 1 = true → (∀ g ∈ termsOfTree t, a.rd .termState g = 0) →
       (a.coveredTree t = false → (a.tree t).inReset = false → Answered (.treeReset n m t) s n m fun _ e =>
         (e.tree t).inReset = true ∧ (e.tree t).lit = false ∧ (e.tree t).payload = []) ∧
       (a.coveredTree t = true → Answered (.treeReset n m t) s n m fun a e => e.trees = a.trees))) ∧
  (∀ (s : State) (n : Nat),
     (s.dev.chip.phase = .warm → Completes (.resetEnd n .warm) s n fun e =>
       e.chip.phase = .up ∧ ∀ t < 32, (e.tree t).relightDue = true) ∧
     (∀ d < 2, d ∈ s.dev.chip.dieReset → Completes (.resetEnd n (.die d)) s n fun e =>
       d ∉ e.chip.dieReset ∧ e.rd (bridgeState d) 0 = 2 ∧
       e.rd .bridgeRetrains d = (s.dev.rd .bridgeRetrains d + 1) % 2 ^ 64 ∧
       ∀ t ∈ treesOfDie d, (e.tree t).relightDue = true) ∧
     (∀ q < 8, (s.dev.quad q).inReset = true → Completes (.resetEnd n (.quad q)) s n fun e =>
       (e.quad q).inReset = false ∧ (∀ t ∈ treesOfQuad q, (e.tree t).relightDue = true) ∧
       ∀ r i, r ≠ .occurrences → e.rd r i = s.dev.rd r i) ∧
     (∀ t < 32, (s.dev.tree t).inReset = true → Completes (.resetEnd n (.tree t)) s n fun e =>
       (e.tree t).inReset = false ∧ (e.tree t).relightDue = true ∧ ∀ r i, r ≠ .occurrences → e.rd r i = s.dev.rd r i) ∧
     (∀ t < 32, ∀ o, (s.dev.tree t).restarting = true → (∀ g ∈ termsOfTree t, s.dev.rd .termState g = 0) →
       (∀ x < 32, x ≠ t → (s.dev.tree x).restarting = false) → s.dev.mgmt.longOp = some o → o.code = 3 →
       s.dev.mgmt.waitingOps = [] → Completes (.resetEnd n (.restart t)) s n fun e =>
         (e.tree t).restarting = false ∧ (e.tree t).relightDue = true ∧ e.mgmt.longOp = none ∧ e.rd .lastLongOp 0 = 3 ∧
         e.rd .longOps 0 = (s.dev.rd .longOps 0 + 1) % 2 ^ 64 ∧
         e.rd .treeRestarts t = (s.dev.rd .treeRestarts t + 1) % 2 ^ 64 ∧ (e.tree t).announced = [0] ∧ (e.tree t).lit = false ∧
         (e.tree t).maps = [] ∧ (e.tree t).keystream = [] ∧
         ∀ a < 2048, e.rd .allocDemand (t * 2048 + a) = 0 ∧ e.rd .owedBytes (t * 2048 + a) = 0) ∧
     (∀ t < 32, (s.dev.tree t).relightDue = true → s.dev.mayLight t = true → s.dev.mate.firstFrame = none →
       Completes (.treeRelight n t) s n fun e =>
         (e.tree t).lit = true ∧ (e.tree t).relightDue = false ∧ bitAt (e.rd .txdisNow (quadOf t)) (t % 4) = false))

/-- POWER_ON_RESET of at least 1 us, from any state: the tick counter is 0 and every register, record and table is as at
reset; what has left the device, the count of open values and the waiting commands are the model's own and stay (log row
12). A shorter assertion changes nothing. Start-up. PORST_L_RELEASE samples the straps: the low ten bits, the low byte of
MGMT_MAC, the mode of the management port and UNIT_ID; the bridges train (their state 1, log row 106). DICTIONARY_READY, both references being good: the device is up,
locked to A, with every PLL and clock domain locked and both bridges up. MGMT_LINK_UP and MGMT_LINK_DOWN of a running
device: MGMT_STATE and source 438. (Rests on R220, R229, R338, R339, R340, R341.) -/
def Obligations.PowerOnAndStartUp : Prop :=
  (∀ (s : State) (n ns : Nat),
     (1000 ≤ ns → ∃ t, exec (.powerOnReset n ns) s = .next t ∧ t.now = 0 ∧ t.pending = s.pending ∧
       t.dev = { State.reset.dev with wire := s.dev.wire, free := s.dev.free } ∧ ∀ r i, t.dev.rd r i = r.dflt i) ∧
     (ns < 1000 → Completes (.powerOnReset n ns) s n fun e => e = s.dev)) ∧
  (∀ (s : State) (n : Nat),
     (∀ straps, s.dev.chip.phase = .porst → Completes (.porstRelease n straps) s n fun e =>
       e.chip.phase = .starting ∧ e.rd .straps 0 = straps % 1024 ∧
       e.rd .mgmtMac 0 = 0x024951000000 + straps % 256 ∧ e.rd .mgmtMode 0 = straps / 256 % 2 ∧
       e.rd .unitId 0 = straps / 512 % 2 ∧ e.rd .bridgeAState 0 = 1 ∧ e.rd .bridgeBState 0 = 1 ∧
       s.dev.regsKept e [(.straps, 0), (.mgmtMac, 0), (.mgmtMode, 0), (.unitId, 0), (.bridgeAState, 0), (.bridgeBState, 0)]) ∧
     (s.dev.chip.phase = .starting → s.dev.chip.refGoodA = true → s.dev.chip.refGoodB = true →
       s.dev.rd .mgmtState 0 = 1 → s.dev.faults.arriving = [] →
       Completes (.dictionaryReady n) s n fun e =>
         e.chip.phase = .up ∧ e.rd .refState 0 = 0 ∧ e.rd .refSelect 0 = 0 ∧
         e.rd .bridgeAState 0 = 2 ∧ e.rd .bridgeBState 0 = 2 ∧ (∀ k < 12, e.rd .pllLocked k = 1) ∧
         ∀ c < 104, e.rd .domainLocked c = 1) ∧
     (s.dev.running = true →
       (Completes (.mgmtLinkUp n) s n fun e =>
         e.rd .mgmtState 0 = 1 ∧ s.dev.released e 438 ∧ s.dev.regsKept e [(.mgmtState, 0)]) ∧
       (Completes (.mgmtLinkDown n) s n fun e =>
         e.rd .mgmtState 0 = 0 ∧ (e.source 438).level = true ∧
         ∀ r i, r ≠ .occurrences → (r, i) ≠ (.mgmtState, 0) → e.rd r i = s.dev.rd r i)))

/-! ### Activation and ranging, reports, the Quarry (R67-R135) -/

/-- DISCOVERY_WINDOW_OPEN of a lit tree in the frame of its phase, once a frame: every valid entry is announced again, and
with DISC_ENABLE 1 captures start from 0. DISC_LIST_AGE_OUT of an entry 60 s old: it leaves the list. ROGUE_WATCH of a
frame whose map has idle slots the detector was handed, on a lit slice that receives, with its RSSI trigger off: one pulse
at each slot's start; light seen in any is counted, and names the terminal that framed, if it is not EMPTY and nothing is
done about it by itself; no light changes no suspect. A frame is watched once. RANGE_RETRY 16 frames after a grant without a
framed burst: a try fewer, and the Ranging Engine wants a grant; the last one fails. RANGE_TIMEOUT and LOST_TIMEOUT when
their time has passed: a failure or a lost terminal is counted. Each failure takes the terminal to EMPTY and tells it.
JUMP_RERANGE after eight jumped samples, on a tree with a hold time and its RDI indication off: RANGING, with all its tries,
and wanting a grant. REPORT_MISS_LIMIT, once REPORT_MISS_MAX requested reports in a row were missed: demand is 0, and
nothing else but the last report held changes. (Rests on R68, R70, R73, R77, R82, R84, R91.) -/
def Obligations.RangingAndReports : Prop :=
  (∀ (s : State) (n : Nat),
     (∀ t < 32, (s.dev.tree t).lit = true → s.dev.framesToWindow t (s.dev.rd .superframe 0) = 0 →
       (s.dev.tree t).announcedIn ≠ some (s.dev.rd .superframe 0) → Completes (.discoveryWindowOpen n t) s n fun e =>
         (e.tree t).announcedIn = some (s.dev.rd .superframe 0) ∧
         (e.tree t).sequencer = (s.dev.tree t).sequencer ++
           (((List.range 4).filter fun k => s.dev.on .bpValid (4 * t + k)).map .profileAnnounce) ∧
         (s.dev.on .discEnable t = true →
           (e.tree t).windowFrame = some (s.dev.rd .superframe 0) ∧ (e.tree t).captures = 0) ∧
         (s.dev.on .discEnable t = false →
           (e.tree t).windowFrame = (s.dev.tree t).windowFrame ∧ (e.tree t).captures = (s.dev.tree t).captures) ∧
         (∀ x, x ≠ t → e.tree x = s.dev.tree x) ∧ e.regs = s.dev.regs) ∧
     (∀ i < 1024, ∀ at_, ((s.dev.tree (i / 32)).listRefresh.find? fun p => p.1 == i) = some (i, at_) →
       at_ + msTicks 60000 ≤ max s.now n → Completes (.discListAgeOut n i) s n fun e =>
         e.rd .listValid i = 0 ∧ e.rd .listSn i = 0 ∧ e.rd .coarseRtd i = 0 ∧
         (∀ p ∈ (e.tree (i / 32)).listRefresh, p.1 ≠ i) ∧
         s.dev.regsKept e [(.listValid, i), (.listSn, i), (.coarseRtd, i), (.discListCount, i / 32)]) ∧
     (∀ t < 32, ∀ (o : RogueObs),
       let seen := s.dev.watched t o
       let pulses := seen.map fun x => .rxrst t (s.dev.byteTick t x.1.1 x.1.2.1) (s.dev.rd .rxrstWidth t)
       (seen ≠ [] → (s.dev.tree t).lit = true → s.dev.receives t = true → (s.dev.tree t).watchedTo ≤ o.sfc →
         s.dev.rd .sbState (quadOf t) ≠ 2 → s.dev.on .rssiEnable t = false → s.dev.on .rogueAuto t = false →
         ((∃ x ∈ seen, x.2.lock = true ∨ x.2.signal = true) → Completes (.rogueWatch n t o) s n fun e =>
           e.rd .idleLit t = (s.dev.rd .idleLit t + 1) % 2 ^ 64 ∧ e.wire = s.dev.wire ++ pulses ∧
           (e.tree t).watchedTo = o.sfc + 1 ∧ (o.named = none → e.rd .rogueSuspect t = 0xFFFF) ∧
           (∀ i < 512, o.named = some i → s.dev.rd .termState (t * 512 + i) ≠ 0 → e.rd .rogueSuspect t = t * 512 + i)) ∧
         ((∀ x ∈ seen, x.2.lock = false ∧ x.2.signal = false) → Completes (.rogueWatch n t o) s n fun e =>
           e.wire = s.dev.wire ++ pulses ∧ (e.tree t).watchedTo = o.sfc + 1 ∧
           ∀ r i, r ≠ .occurrences → (r, i) ≠ (.rogueState, t) → e.rd r i = s.dev.rd r i)) ∧
       (seen = [] ∨ o.sfc < (s.dev.tree t).watchedTo → Completes (.rogueWatch n t o) s n fun e => e = s.dev))) ∧
  (∀ (s : State) (n g : Nat), g < 16384 →
     let t := treeOfTerm g
     let empties (c : Instr) (r : Reg) (i : Nat) : Prop := Completes c s n fun e =>
       e.rd r i = (s.dev.rd r i + 1) % 2 ^ 64 ∧ e.rd .termState g = 0 ∧ e.rd .eqdBits g = 0 ∧ e.rd .bpEntry g = 0 ∧
       .deactivate (s.dev.rd .onuId g) ∈ (e.tree t).sequencer
     (s.dev.rd .termState g = 1 → g ∉ (s.dev.tree t).rangeWanted → (s.dev.term g).tryFrame + 16 ≤ s.dev.rd .superframe 0 →
       (1 < (s.dev.term g).triesLeft → Completes (.rangeRetry n g) s n fun e =>
         (e.term g).triesLeft = (s.dev.term g).triesLeft - 1 ∧ (e.term g).eqdSent = none ∧
         (e.tree t).rangeWanted = (s.dev.tree t).rangeWanted ++ [g] ∧ e.regs = s.dev.regs) ∧
       ((s.dev.term g).triesLeft ≤ 1 → empties (.rangeRetry n g) .rangeFail t)) ∧
     (∀ at_, s.dev.rd .termState g = 1 → (s.dev.term g).rangeAt = some at_ →
       at_ + (s.dev.term g).lostTicks ≤ max s.now n → empties (.rangeTimeout n g) .rangeFail t) ∧
     (∀ at_, s.dev.rd .termState g = 3 → (s.dev.term g).lostAt = some at_ →
       at_ + (s.dev.term g).lostTicks ≤ max s.now n → empties (.lostTimeout n g) .lostEvents g) ∧
     (s.dev.rd .termState g = 2 → 8 ≤ (s.dev.term g).jumpRun → s.dev.rd .termHoldMs t ≠ 0 →
       bitAt (s.dev.rd .enableMask t) 3 = false → Completes (.jumpRerange n g) s n fun e =>
         e.rd .termState g = 1 ∧ (e.term g).triesLeft = s.dev.rd .rangeTries t ∧ (e.term g).jumpRun = 0 ∧
         g ∈ (e.tree t).rangeWanted)) ∧
  (∀ (s : State) (n a : Nat), a < 65536 → s.dev.rd .reportMissMax (treeOfAlloc a) ≤ (s.dev.alloc a).missRun →
     Completes (.reportMissLimit n a) s n fun e =>
       e.rd .allocDemand a = 0 ∧ e.alloc a = { s.dev.alloc a with lastReport := none } ∧
       s.dev.regsKept e [(.allocDemand, a)] ∧ ∀ b, b ≠ a → e.alloc b = s.dev.alloc b)

/-- KEY_RETIRE, RETIRE_FRAMES after the switch: the retiring half is gone. ENTROPY_FAIL and ENTROPY_RECOVERY: ENTROPY_STATE
and source 421. LOAD_COMPLETE of the load that runs, nothing waiting behind it: the records are used up and the operation
over; LOAD_STATUS names the first record that fails, and then no slot but the load key's changes, or says that all were
applied. (Rests on R121, R124, R129, R134.) -/
def Obligations.KeysRetireAndLoad : Prop :=
  ∀ (s : State) (n : Nat),
    (∀ k < 32838, (s.dev.slot k).retiring = true → (s.dev.slot k).retireAt ≤ s.dev.rd .superframe 0 →
      Completes (.keyRetire n k) s n fun e =>
        e.slot k = { s.dev.slot k with next := none, retiring := false } ∧ (∀ j, j ≠ k → e.slot j = s.dev.slot j) ∧
        ∀ r i, r ≠ .dseqSent → e.rd r i = s.dev.rd r i) ∧
    (Completes (.entropyFail n) s n fun e =>
      e.rd .entropyState 0 = 1 ∧ (e.source 421).level = true ∧
      ∀ r i, r ≠ .occurrences → (r, i) ≠ (.entropyState, 0) → e.rd r i = s.dev.rd r i) ∧
    (Completes (.entropyRecovery n) s n fun e =>
      e.rd .entropyState 0 = 0 ∧ s.dev.released e 421 ∧ s.dev.regsKept e [(.entropyState, 0)]) ∧
    (s.dev.opRuns 2 = true → s.dev.mgmt.waitingOps = [] →
      (∀ code i, code < 65536 → i < 65536 → (s.dev.takeKey 32837).checkLoad s.dev.mgmt.loadRecords [] = .fails code i →
        Completes (.loadComplete n) s n fun e =>
          e.rd .loadStatus 0 = code * 65536 + i ∧ e.mgmt.longOp = none ∧ e.mgmt.loadRecords = [] ∧
          e.mgmt.loadNext = s.dev.mgmt.loadNext + 32838 ∧ ∀ j, j ≠ 32837 → e.slot j = s.dev.slot j) ∧
      (∀ bodies, (s.dev.takeKey 32837).checkLoad s.dev.mgmt.loadRecords [] = .passes bodies →
        Completes (.loadComplete n) s n fun e =>
          e.rd .loadStatus 0 = 65536 ∧ e.mgmt.longOp = none ∧ e.mgmt.loadRecords = [] ∧
          ∀ b ∈ bodies, (e.slot b.1).next = some (keyOf b.2)))

/-- The jobs of a bank that is on, as it stands once the jobs that have ended have freed their cutters. JOB_QUEUED of a job
that is no management job: its class is its source's; with a cutter free it runs; with none, the least urgent of the running
jobs less urgent than it completes its block and is suspended with its counter and output position, if there is room, and
counted; with no room it waits, counted; with none less urgent it waits. A management job goes to the bank whose turn it is,
and is counted; with no bank open to it, it waits. JOB_RESUME of a job whose blocks are all made: no running job has ended any
longer, and the upstream keystream it made is counted as ready. JOB_PROMOTE: waiting jobs of the number take the class their
wait gives them. (Rests on R113, R114, R115, R116, R118.) -/
def Obligations.JobsRunAndResume : Prop :=
  (∀ (s : State) (n q : Nat) (j : JobReq), q < 8 → sourceBank j.src = some q → s.dev.bankOn q = true →
    let d := s.dev.settleBank (max s.now n) q
    let cls := s.dev.jobClass j.src
    let job : Job := { id := (d.bank q).nextId, src := j.src, base := cls, cls := cls, slot := none, ctr := 0, pos := 0,
                       blocks := j.blocks, mac := 0, waited := 0, since := max s.now n }
    ((d.bank q).running.length < 640 → Completes (.jobQueued n q j) s n fun e =>
      e.bank q = { d.bank q with nextId := (d.bank q).nextId + 1, running := (d.bank q).running ++ [job] } ∧
      e.regs = d.regs) ∧
    (640 ≤ (d.bank q).running.length → victim cls (d.bank q).running = none → Completes (.jobQueued n q j) s n fun e =>
      e.bank q = { d.bank q with nextId := (d.bank q).nextId + 1, queue := (d.bank q).queue ++ [job] } ∧ e.regs = d.regs) ∧
    (640 ≤ (d.bank q).running.length → ∀ v, victim cls (d.bank q).running = some v →
      (64 ≤ (d.bank q).suspended.length → Completes (.jobQueued n q j) s n fun e =>
        (e.bank q).queue = (d.bank q).queue ++ [job] ∧ (e.bank q).running = (d.bank q).running ∧
        e.rd .suspFull q = (d.rd .suspFull q + 1) % 2 ^ 64 ∧ d.regsKept e [(.suspFull, q)]) ∧
      ((d.bank q).suspended.length < 64 → v.madeBy (max s.now n) (d.blockTicks q) + 1 < v.blocks →
        let k := v.madeBy (max s.now n) (d.blockTicks q) + 1
        let at_ := v.since + k * d.blockTicks q
        Completes (.jobQueued n q j) s n fun e =>
          (e.bank q).running = (d.bank q).running.filter (· != v) ++ [job.begin at_] ∧
          (∃ r, (e.bank q).suspended = (d.bank q).suspended ++ [r] ∧ r.id = v.id ∧ r.blocks = v.blocks - k ∧
            r.ctr = v.ctr + k ∧ r.pos = v.pos + 16 * k ∧ r.since = at_) ∧
          e.rd .suspensions q = (d.rd .suspensions q + 1) % 2 ^ 64 ∧ d.rdKept e [.suspensions, .ksReady]))) ∧
  (∀ (s : State) (n q blocks : Nat), q < 8 → 1 ≤ blocks →
    let d := s.dev.settleBanks (max s.now n)
    let c : Instr := .jobQueued n q ⟨.gcm, blocks⟩
    d.mgmt.gcmWaiting = [] →
    (∀ b, d.nextGcmBank = some b → (d.bank b).running.length < 640 → Completes c s n fun e =>
      e.rd .mgmtJobs b = (d.rd .mgmtJobs b + 1) % 2 ^ 64 ∧ e.mgmt.gcmBank = (b + 1) % 8 ∧ e.mgmt.gcmWaiting = [] ∧
      (e.bank b).gcmHeld = (d.bank b).gcmHeld + 1 ∧ d.rdKept e [.mgmtJobs]) ∧
    (d.nextGcmBank = none → Completes c s n fun e => e.mgmt.gcmWaiting = [blocks] ∧ e.banks = d.banks ∧ e.regs = d.regs)) ∧
  (∀ (s : State) (n q id : Nat) (j : Job), q < 8 → j ∈ (s.dev.bank q).running → j.id = id →
    j.since + j.blocks * s.dev.blockTicks q ≤ max s.now n → s.dev.mgmt.gcmWaiting = [] →
    (Completes (.jobResume n q id) s n fun e =>
      (∀ k ∈ (e.bank q).running, max s.now n < k.since + k.blocks * s.dev.blockTicks q) ∧ s.dev.rdKept e [.ksReady]) ∧
    ((s.dev.bank q).running = [j] → (s.dev.bank q).suspended = [] → (s.dev.bank q).queue = [] →
      Completes (.jobResume n q id) s n fun e =>
        (e.bank q).running = [] ∧
        ∀ t a b, j.src = .grant t a b → quadOf t = q → j.blocks ≠ 0 →
          ((s.dev.tree t).keystream.any fun k => k.burst == b && k.alloc == a) = true →
          e.rd .ksReady q = (s.dev.rd .ksReady q + 16 * j.blocks) % 2 ^ 32)) ∧
  (∀ (s : State) (n q id : Nat), q < 8 → Completes (.jobPromote n q id) s n fun e =>
    let up : Job → Job := fun j =>
      if j.id = id then { j with cls := promoted j.base (j.waited + (max s.now n - j.since)) } else j
    (e.bank q).queue = (s.dev.bank q).queue.map up ∧ (e.bank q).suspended = (s.dev.bank q).suspended.map up ∧
    (e.bank q).running = (s.dev.bank q).running ∧ e.regs = s.dev.regs)

/-- DOWNSTREAM_FRAME_ENCIPHER of the oldest frame of a lit tree's payload whose feed is not lost, while the running frame has
room for more than an encapsulation header. What fits leaves at its payload position: on a port of mode 0 with key index 0; of
mode 1 or 2 with the index of the key its slot holds and its counter start, where its keystream is there in time. What does
not fit waits for the start of the next frame's payload. With the keystream late an idle frame takes the position, counted,
and the frame stays. With no key, or mode 3, it is dropped and counted for its terminal. With no room left it waits, as it does for a frame that is not the running one. (Rests on
R43, R117, R118, R125.) -/
def Obligations.FramesEncipherDownstream : Prop :=
  ∀ (s : State) (n t : Nat) (f : DownFrame) (rest : List DownFrame), t < 32 →
    (s.dev.tree t).payload = f :: rest → (s.dev.tree t).lit = true → bitAt (s.dev.rd .treeDefects t) 2 = false →
    let sfc := s.dev.rd .superframe 0
    let c : Instr := .downstreamFrameEncipher n t sfc
    let x := s.dev.tree t
    let pos := x.payloadBytes - x.room
    let part := f.bytes.take (x.room - encHeader)
    let left := f.bytes.drop (x.room - encHeader)
    let leaves (idx ctr : Nat) : Prop := Completes c s n fun e =>
      e.wire = s.dev.wire ++ [.treeFrame t f.terminal f.encPort idx sfc pos ctr left.isEmpty part] ∧
      (e.tree t).room = x.room - (part.length + encHeader) ∧
      (left = [] → (e.tree t).payload = rest) ∧
      (left ≠ [] → (e.tree t).payload = { f with bytes := left, placed := f.placed + part.length } :: rest) ∧
      (f.sampled = none → s.dev.rdKept e cipherRegs)
    let dropped (r : Reg) : Prop := Completes c s n fun e =>
      (e.tree t).payload = rest ∧ e.wire = s.dev.wire ∧ e.rd r f.terminal = (s.dev.rd r f.terminal + 1) % 2 ^ 64 ∧
      (f.sampled = none → s.dev.regsKept e [(r, f.terminal)])
    (x.room ≤ encHeader → Completes c s n fun e => e = s.dev) ∧
    (∀ k, k ≠ sfc → Completes (.downstreamFrameEncipher n t k) s n fun e => e = s.dev) ∧
    (encHeader < x.room →
      (s.dev.portMode t f.encPort = 0 → leaves 0 0) ∧
      (∀ k key, (s.dev.portMode t f.encPort = 1 ∧ k = f.terminal ∨ s.dev.portMode t f.encPort = 2 ∧ k = 32768 + t) →
        (s.dev.slot k).current = some key →
        let ctr := Config.counterStart sfc pos key.index
        let inTime := (s.dev.downKeystream (max s.now n) t k ctr part.length).1
        (inTime = true → leaves key.index ctr) ∧
        (inTime = false → Completes c s n fun e =>
          (e.tree t).payload = f :: rest ∧ e.wire = s.dev.wire ++ [.idleFill t (part.length + encHeader)] ∧
          (e.tree t).room = x.room - (part.length + encHeader) ∧
          e.rd .dsLate (quadOf t) = (s.dev.rd .dsLate (quadOf t) + 1) % 2 ^ 64 ∧
          s.dev.rdKept e ([.dsLate, .idleFillBytes] ++ cipherRegs))) ∧
      (s.dev.portMode t f.encPort = 1 → (s.dev.slot f.terminal).current = none → dropped .erasedDrop) ∧
      (s.dev.portMode t f.encPort = 3 → dropped .keyModeMismatch))

/-! ### Frames received, classified, learned (R136-R177) -/

/-- MAC_FRAME_RECEIVE while the dictionary answers. On a port that is up: a frame below 64 bytes, above MAXLEN, or with a wrong
FCS counts as that alone; a PAUSE frame of some quanta on a port that obeys it, not in a storm, pauses it for that time;
another MAC Control frame is counted; any other good one but a capability frame is counted and waits in the receive store
while that has room, with its stamp to 10 ps, and counts as dropped when it has none. On the management port with its link
up a good frame for no one in the device is counted. (Rests on R137, R230, R249, R255, R257, R262.) -/
def Obligations.MacFramesReceived : Prop :=
  ∀ (s : State) (n ps p : Nat) (b : Bytes) (fcs : Bool), s.dev.chip.phase = .up → p < 16 → s.dev.portUp p = true →
    let c : Instr := .macFrameReceive ⟨n, ps⟩ (.uplink p) b fcs
    let good : Prop := 60 ≤ b.length ∧ b.length + 4 ≤ s.dev.rd .maxlen 0 ∧ fcs = true ∧ isCapability b = false
    let counts (r : Reg) : Prop := Completes c s n fun e =>
      e.rd r p = (s.dev.rd r p + 1) % 2 ^ 64 ∧ s.dev.onlyRegs e [(r, p)]
    (b.length < 60 → counts .portRunt) ∧
    (60 ≤ b.length → s.dev.rd .maxlen 0 < b.length + 4 → counts .portOversize) ∧
    (60 ≤ b.length → b.length + 4 ≤ s.dev.rd .maxlen 0 → fcs = false → counts .portFcsErr) ∧
    (good → numAt b 12 2 = 0x8808 → numAt b 14 2 ≠ 1 → counts .macctlOther) ∧
    (good → numAt b 12 2 = 0x8808 → numAt b 14 2 = 1 → numAt b 16 2 ≠ 0 → s.dev.obeysPause p = true →
      (s.dev.port p).pausedAt = none → Completes c s n fun e =>
        (e.port p).pausedAt = some (max s.now n) ∧
        (e.port p).pauseUntil = max s.now n + s.dev.quantaTicks (numAt b 16 2) ∧
        e.rd .pauseRxFrames p = (s.dev.rd .pauseRxFrames p + 1) % 2 ^ 64 ∧ s.dev.regsKept e [(.pauseRxFrames, p)]) ∧
    (good → numAt b 12 2 = 0x8808 → numAt b 14 2 = 1 → s.dev.obeysPause p = false → (s.dev.port p).pausedAt = none →
      Completes c s n fun e =>
        (e.port p).pausedAt = none ∧ e.rd .pauseRxFrames p = (s.dev.rd .pauseRxFrames p + 1) % 2 ^ 64 ∧
        s.dev.regsKept e [(.pauseRxFrames, p)]) ∧
    (good → numAt b 12 2 ≠ 0x8808 →
      (s.dev.storeBytes p + (b.length + 4) ≤ 65536 → Completes c s n fun e =>
        (∃ w, (e.port p).store = (s.dev.port p).store ++ [w] ∧ w.bytes = b ∧ w.srcKind = 0 ∧ w.srcNum = p ∧
          w.stamp = max s.now n ∧ w.sub = ps / 10 * 10) ∧ e.rd .rxFrames p = (s.dev.rd .rxFrames p + 1) % 2 ^ 64 ∧
        ∀ r i, r ≠ .rxStamps → (r, i) ≠ (.rxFrames, p) → e.rd r i = s.dev.rd r i) ∧
      (65536 < s.dev.storeBytes p + (b.length + 4) → Completes c s n fun e =>
        e.port p = s.dev.port p ∧ e.rd .parseWaitDrop p = (s.dev.rd .parseWaitDrop p + 1) % 2 ^ 64)) ∧
    (s.dev.rd .mgmtState 0 ≠ 0 → 60 ≤ b.length → b.length + 4 ≤ s.dev.rd .maxlen 0 → fcs = true →
      numAt b 12 2 ≠ 0x8808 → numAt b 0 6 ≠ s.dev.rd .mgmtMac 0 → numAt b 0 6 ≠ 0xFFFFFFFFFFFF →
      Completes (.macFrameReceive ⟨n, ps⟩ .mgmt b fcs) s n fun e =>
        e.rd .mgmtOther 0 = (s.dev.rd .mgmtOther 0 + 1) % 2 ^ 64 ∧ s.dev.onlyRegs e [(.mgmtOther, 0)])

/-- CLASSIFY takes the deciphered tree frame whose turn it is before the head of a port's store, and one frame at a time; within
a cycle the ports go in ascending order. An unfragmented frame with a length conflict is dropped and counted while
LEN_CONFLICT_ACTION is 0. Any other one that no rule matches goes by its default, and is counted there; one that a rule
matches by the rule, which is counted. Where that verdict is to drop it, it learns and samples nothing, and the buffer stays
as the frames that have left in the meantime leave it. (Rests on R137, R147, R148, R149, R184, R210.) -/
def Obligations.FramesClassified : Prop :=
  ∀ (s : State) (n p : Nat) (w : Waiting), p < 16 →
    let a := s.dev.settleSends (max s.now n)
    let x := parseFrame a.active (a.rd (if w.srcKind = 1 then .startTree else .startUplink) 0) w.bytes
    let key := x.key w.srcKind w.srcNum w.encPort
      (if w.srcKind = 1 then a.rd .termClassSrcMeta w.srcNum else a.rd .portClassSrcMeta w.srcNum) (x.flags false)
    let drops (v : Nat) : Prop := (actionOf v).verdict = 1 ∧ (actionOf v).learn = false ∧ (actionOf v).sample = false
    let taken (e : Dev) : Prop :=
      (w.srcKind = 1 → e.treeWaiting = a.treeWaiting.erase w ∧ e.ports = a.ports) ∧
      (w.srcKind = 0 → e.treeWaiting = a.treeWaiting ∧ (e.port p).store = (a.port p).store.tail)
    (nextTreeFrame (max s.now n) a.treeWaiting = none → a.portInTurn (max s.now n) p = false →
      Completes (.classify n p) s n fun e => e = a) ∧
    (x.frag = false →
      (w.srcKind = 1 ∧ nextTreeFrame (max s.now n) a.treeWaiting = some w ∨
        w.srcKind = 0 ∧ nextTreeFrame (max s.now n) a.treeWaiting = none ∧ a.portInTurn (max s.now n) p = true ∧
          (a.port p).store.head? = some w) →
      (x.conflict = true → a.rd .lenConflictAction 0 = 0 → Completes (.classify n p) s n fun e =>
        taken e ∧ e.buf = a.buf ∧ e.rd .lenConflictDrop 0 = (a.rd .lenConflictDrop 0 + 1) % 2 ^ 64 ∧
        ∀ r j, r ∉ [.parseDeepSeen, .lenConflictDrop] → e.rd r j = a.rd r j) ∧
      (∀ i v, (x.conflict = false ∨ a.rd .lenConflictAction 0 ≠ 0) → matchRule a.active.rules key = some (i, v) →
        drops v → Completes (.classify n p) s n fun e =>
        taken e ∧ e.buf = a.buf ∧ e.rd .ruleHits i = (a.rd .ruleHits i + 1) % 2 ^ 64 ∧
        ∀ r j, r ≠ .parseDeepSeen → (r, j) ≠ (.ruleHits, i) → e.rd r j = a.rd r j) ∧
      ((x.conflict = false ∨ a.rd .lenConflictAction 0 ≠ 0) → matchRule a.active.rules key = none →
        drops (if w.srcKind = 1 then a.active.defTree else a.active.defUplink) →
        Completes (.classify n p) s n fun e =>
          taken e ∧ e.buf = a.buf ∧
          (w.srcKind = 1 → e.rd .defaultHitsTree 0 = (a.rd .defaultHitsTree 0 + 1) % 2 ^ 64) ∧
          (w.srcKind = 0 → e.rd .defaultHitsUplink 0 = (a.rd .defaultHitsUplink 0 + 1) % 2 ^ 64) ∧
          ∀ r j, r ∉ [.parseDeepSeen, .defaultHitsTree, .defaultHitsUplink] → e.rd r j = a.rd r j))

/-- COMMIT_SWAP of the commit that runs, whose number came free within 4 ms of its start, nothing waiting: staging is active
under the next number mod 4, the former version stays while frames are in flight in it, COMMIT_STATUS is 1 and the operation
over. COMMIT_TIMEOUT of one whose number did not, 4 ms after its start: COMMIT_STATUS is 2, and nothing has been swapped.
FRAG_AGE_OUT of an entry FRAG_AGE old: the entry is gone. (Rests on R145, R154, R155.) -/
def Obligations.CommitsSwapOrEnd : Prop :=
  ∀ (s : State) (n : Nat),
    (∀ o, s.dev.mgmt.longOp = some o → o.code = 1 → s.dev.commitInTime o = true → s.dev.mgmt.waitingOps = [] →
      Completes (.commitSwap n) s n fun e =>
        e.active = s.dev.staging ∧ e.staging = s.dev.staging ∧
        e.rd .activeVersion 0 = (s.dev.rd .activeVersion 0 + 1) % 4 ∧ e.rd .commitStatus 0 = 1 ∧ e.mgmt.longOp = none ∧
        e.older = (if s.dev.rd .verInflight (s.dev.rd .activeVersion 0) = 0 then s.dev.older
          else s.dev.older ++ [(s.dev.rd .activeVersion 0, s.dev.active)])) ∧
    (∀ o, s.dev.mgmt.longOp = some o → o.code = 1 → s.dev.commitInTime o = false → o.start + o.maxTicks ≤ max s.now n →
      s.dev.mgmt.waitingOps = [] →
      (Completes (.commitSwap n) s n fun e => e = s.dev) ∧
      Completes (.commitTimeout n) s n fun e =>
        e.active = s.dev.active ∧ e.staging = s.dev.staging ∧ e.rd .commitStatus 0 = 2 ∧ e.mgmt.longOp = none ∧
        s.dev.regsKept e [(.commitStatus, 0), (.longOps, 0), (.lastLongOp, 0), (.lastLongMs, 0)]) ∧
    (∀ k < 8192, ∀ f, s.dev.frags[k]? = some f → f.refreshed + msTicks (s.dev.rd .fragAge 0) ≤ max s.now n →
      Completes (.fragAgeOut n k) s n fun e =>
        e.frags = s.dev.frags.eraseIdx k ∧ e.rd .fragEntries 0 = (s.dev.frags.length - 1) % 2 ^ 16 ∧
        s.dev.regsKept e [(.fragEntries, 0)])

/-- The engine with ADDR_TABLE unlocked. With no flush under way: LEARN_REQUEST takes the head of the queue: an unknown
address with a free way in a candidate bucket is learned there, with its destination and HOLD; a known one from its own
destination is hit; a static one from another is counted as a conflict. HOLD_SWEEP clears HOLD where its time has passed.
AGER_VISIT of a dynamic entry once AGE_TIME / 8 has passed since the last visit: one hit since starts at age 0, another ages
by one, and one aged 7 is queued to be removed; before that it does nothing. STASH_RETRY, the queue being empty and one
entry in the stash: it moves to a free way of a candidate bucket, or to the way of a victim that has a free way elsewhere.
ADDR_FLUSH_DONE: no dynamic entry that the running flush selects is left, but for keys learned behind its position; every
other is as it was, and the next flush runs. TABLE_SWEEP of a block SWEEP_PERIOD_MS after the last: COMPARE_FAIL counts one
that reads otherwise than it was written, and source 416 is raised; after three restarts it is skipped and counted so. A
block is not compared twice in a period. (Rests on R161, R169, R171, R172, R173, R174, R176.) -/
def Obligations.AddressesLearnedAndSwept : Prop :=
  (∀ (s : State) (n : Nat), s.dev.addrLocked = false →
     (∀ domain mac kind dest rest, s.dev.addr.flushes = [] → s.dev.addr.queue = .learn domain mac kind dest :: rest →
       (∀ k, s.dev.addrFind domain mac = none →
         s.dev.freeCandidate ⟨mac, domain, kind, dest, false, true, 0, true, msOf (max s.now n)⟩ = some k →
         Completes (.learnRequest n) s n fun e =>
           Tab.find e.addr.entries k = some ⟨mac, domain, kind, dest, false, true, 0, true, msOf (max s.now n)⟩ ∧
           e.addr.queue = rest ∧ e.rd .learned 0 = (s.dev.rd .learned 0 + 1) % 2 ^ 64 ∧
           (∀ j, j ≠ k → Tab.find e.addr.entries j = Tab.find s.dev.addr.entries j) ∧ s.dev.regsKept e [(.learned, 0)]) ∧
       (∀ k x, s.dev.addrFind domain mac = some (k, x) → x.kind = kind → x.dest = dest →
         Completes (.learnRequest n) s n fun e =>
           (∃ y, Tab.find e.addr.entries k = some y ∧ y.hit = true ∧ y.dest = dest ∧ y.kind = kind) ∧
           e.addr.queue = rest ∧ e.regs = s.dev.regs) ∧
       (∀ k x, s.dev.addrFind domain mac = some (k, x) → x.static = true → ¬(x.kind = kind ∧ x.dest = dest) →
         Completes (.learnRequest n) s n fun e =>
           e.rd .staticConflict 0 = (s.dev.rd .staticConflict 0 + 1) % 2 ^ 64 ∧ s.dev.regsKept e [(.staticConflict, 0)])) ∧
     (Completes (.holdSweep n) s n fun e =>
       (∀ k, Tab.find e.addr.entries k = (Tab.find s.dev.addr.entries k).map fun x =>
         if x.hold && s.dev.holdPassed (max s.now n) x then { x with hold := false } else x) ∧ e.regs = s.dev.regs) ∧
     (∀ k < 524352, ∀ x, Tab.find s.dev.addr.entries k = some x → x.static = false → s.dev.rd .ageTime 0 ≠ 0 →
       let due := Tab.get 0 s.dev.addr.visited k + s.dev.agePeriod
       (due ≤ max s.now n →
         (x.hit = true → Completes (.agerVisit n k) s n fun e =>
           Tab.find e.addr.entries k = some { x with hit := false, age := 0 } ∧ e.addr.queue = s.dev.addr.queue) ∧
         (x.hit = false → x.age < 7 → Completes (.agerVisit n k) s n fun e =>
           Tab.find e.addr.entries k = some { x with age := x.age + 1 } ∧ e.addr.queue = s.dev.addr.queue) ∧
         (x.hit = false → 7 ≤ x.age → Completes (.agerVisit n k) s n fun e =>
           e.addr.entries = s.dev.addr.entries ∧ e.addr.queue = s.dev.addr.queue ++ [.aged x.domain x.mac])) ∧
       (max s.now n < due → Completes (.agerVisit n k) s n fun e => e = s.dev))) ∧
  (∀ (s : State) (n : Nat),
     (s.dev.addrLocked = false → s.dev.addr.queue = [] → s.dev.addr.flushes = [] → ∀ k x j, 524288 ≤ k →
       (Tab.keys s.dev.addr.entries).filter (524288 ≤ ·) = [k] → Tab.find s.dev.addr.entries k = some x →
       (s.dev.freeCandidate x = some j → j ≠ k → Completes (.stashRetry n) s n fun e =>
         Tab.find e.addr.entries j = some x ∧ Tab.find e.addr.entries k = none ∧
         (∀ i, i ≠ j → i ≠ k → Tab.find e.addr.entries i = Tab.find s.dev.addr.entries i) ∧ e.regs = s.dev.regs) ∧
       (∀ v, s.dev.freeCandidate x = none →
         let way := s.dev.bucket0 x * 4 + s.dev.addr.victim % 4
         Tab.find s.dev.addr.entries way = some v → s.dev.freeWay (s.dev.otherBucket v (s.dev.bucket0 x)) = some j →
         Completes (.stashRetry n) s n fun e =>
           Tab.find e.addr.entries way = some x ∧ Tab.find e.addr.entries j = some v ∧
           Tab.find e.addr.entries k = none ∧ e.regs = s.dev.regs)) ∧
     (∀ f rest, s.dev.addrLocked = false → s.dev.addr.flushes = f :: rest → Completes (.addrFlushDone n) s n fun e =>
       e.addr.flushes = rest ∧ e.regs = s.dev.regs ∧
       e.addr.entries = s.dev.addr.entries.filter fun x => x.2.static ||
         !(decide (x.1 < max f.pos 524352) && f.selects x.2 && !f.spared.contains (x.2.domain, x.2.mac))) ∧
     (∀ b restarts t, sweptBlock b = some t →
       let visited : Tab Nat := Tab.set 0 s.dev.swept b (max s.now n)
       (s.dev.sweepDue (max s.now n) b = true →
         (restarts < 3 → s.dev.disabled 416 = false → Completes (.tableSweep n b true restarts) s n fun e =>
           e.rd .compareFail 0 = (s.dev.rd .compareFail 0 + 1) % 2 ^ 64 ∧
           e.rd .occurrences 416 = (s.dev.rd .occurrences 416 + 1) % 2 ^ 64 ∧ e.swept = visited ∧
           s.dev.regsKept e [(.compareFail, 0), (.occurrences, 416)]) ∧
         (restarts < 3 → Completes (.tableSweep n b false restarts) s n fun e => e = { s.dev with swept := visited }) ∧
         (3 ≤ restarts → Completes (.tableSweep n b true restarts) s n fun e =>
           e.rd .sweepSkipped 0 = (s.dev.rd .sweepSkipped 0 + 1) % 2 ^ 64 ∧ e.swept = visited ∧
           s.dev.regsKept e [(.sweepSkipped, 0)])) ∧
       (∀ differs, s.dev.sweepDue (max s.now n) b = false →
         Completes (.tableSweep n b differs restarts) s n fun e => e = s.dev)))

/-! ### The shared buffer and egress (R178-R219) -/

/-- LEAK_SWEEP while no audit runs, once the frames whose send has ended have left: one sweep is counted; each leaked cell that
the sweep before had noted is reclaimed and counted, every other is noted. AUDIT_DONE of a running audit, nothing waiting:
two sweeps, the operation over, and AUDIT_STATUS 1 when they repaired nothing, else 2. While an audit runs the periodic
sweep does nothing. A hold of a port or a terminal that has run its time ends flushed: its eight queues are empty, and each
of their frames is counted. LAG_REVERT of a member of the group that is due takes back the buckets that it held when it went
down, and no other. (Rests on R184, R189, R190, R193, R194, R198.) -/
def Obligations.BufferSweepsAndHolds : Prop :=
  (∀ (s : State) (n : Nat),
     let a := s.dev.settleSends (max s.now n)
     let leaked := a.usedCells.filter fun c => !a.ownedCells.contains c
     let again := leaked.filter a.buf.noted.contains
     (s.dev.opRuns 5 = false → Completes (.leakSweep n) s n fun e =>
       e.rd .sweeps 0 = (a.rd .sweeps 0 + 1) % 2 ^ 64 ∧
       e.buf.noted = leaked.filter (fun c => !again.contains c) ∧
       (again = [] → e.rd .leakReclaimed 0 = a.rd .leakReclaimed 0) ∧
       (again ≠ [] → e.rd .leakReclaimed 0 = (a.rd .leakReclaimed 0 + again.length) % 2 ^ 64) ∧
       e.buf.queues = a.buf.queues ∧
       ∀ r i, r ∉ [.sweeps, .leakReclaimed, .doubleOwned, .crossOwned, .doubleFree, .occurrences, .cellsFree, .bankCellsUsed,
         .poolUsed] → e.rd r i = a.rd r i) ∧
     (s.dev.opRuns 5 = true → Completes (.leakSweep n) s n fun e => e = s.dev) ∧
     (s.dev.opRuns 5 = true → s.dev.mgmt.waitingOps = [] → Completes (.auditDone n) s n fun e =>
       e.rd .sweeps 0 = (s.dev.rd .sweeps 0 + 2) % 2 ^ 64 ∧ e.mgmt.longOp = none ∧
       e.rd .auditStatus 0 = (if e.repairs = s.dev.repairs then 1 else 2))) ∧
  (∀ (s : State) (n : Nat),
     let frames (base : Nat) : Nat := ((List.range 8).map fun q => (s.dev.queue (base + q)).length).sum
     (∀ p < 16, ∀ at_ ms, (s.dev.port p).hold = some (at_, ms) → at_ + msTicks ms ≤ max s.now n →
       Completes (.portHoldExpiry n p) s n fun e =>
         (e.port p).hold = none ∧ e.rd .holdState p = 2 ∧ (∀ q < 8, e.queue (upQueue p q) = []) ∧
         (frames (131072 + p * 8) ≠ 0 →
           e.rd .flushedFrames p = (s.dev.rd .flushedFrames p + frames (131072 + p * 8)) % 2 ^ 64)) ∧
     (∀ g < 16384, ∀ at_ ms, (s.dev.term g).hold = some (at_, ms) → at_ + msTicks ms ≤ max s.now n →
       Completes (.termHoldExpiry n g) s n fun e =>
         (e.term g).hold = none ∧ (∀ q < 8, e.queue (downQueue g q) = []) ∧
         (frames (g * 8) ≠ 0 → e.rd .termFlushed g = (s.dev.rd .termFlushed g + frames (g * 8)) % 2 ^ 64)) ∧
     (∀ a < 8, ∀ p < 16, ∀ due, (s.dev.port p).revertAt = some due → due ≤ max s.now n → s.dev.groupOfPort p = some a →
       Completes (.lagRevert n a p) s n fun e =>
         (e.port p).revertAt = none ∧ (e.port p).lost = [] ∧ e.regs = s.dev.regs ∧
         ∀ b < 2048, e.win 0x3701 b = (if b ∈ (s.dev.port p).lost then p else s.dev.win 0x3701 b)))

/-- SCHEDULE_DECISION, the frames whose send has ended having left. Where nothing asks or nothing is eligible nothing else
changes. Where a queue is chosen whose head the queue's permit set and owner admit, unpoisoned and not made oversize by its
edit, that frame leaves: on a port, which owns it until its send ends, or to the host with its bytes as finished, or into
the tree's payload pipeline. A head that is not admitted, or whose permit-set word reads in error, is taken from its queue
and counted in ISOLATION_DROP, and nothing is sent for it. (Rests on R184, R202, R203, R211, R212.) -/
def Obligations.ScheduleDecides : Prop :=
  ∀ (s : State) (n ps : Nat) (g : Egress), egressExists g = true →
    let a := s.dev.settleSends (max s.now n)
    (a.choose (max s.now n) g = none → Completes (.scheduleDecision ⟨n, ps⟩ g) s n fun e => e = a) ∧
    (∀ c k rest x, a.choose (max s.now n) g = some c → a.queue c.queue = k :: rest → a.desc k = some x →
      a.sched.permitBad.contains c.queue = false → a.permitted c.queue x.domain = true → x.owns c.queue = true →
      x.poison = false → ¬(x.length < x.editedLength ∧ a.rd .maxlen 0 < x.editedLength) →
      Completes (.scheduleDecision ⟨n, ps⟩ g) s n fun e =>
        (∀ p, g = .port p → (∃ b, e.wire.getLast? = some (.uplinkFrame p (c.queue % 8) b)) ∧
          (∃ y, (e.port p).sending = some y ∧ y.desc = k ∧ max s.now n < y.ends) ∧
          e.rd .txFrames p = (a.rd .txFrames p + 1) % 2 ^ 64) ∧
        (g = .host → e.queue c.queue = rest ∧
          e.wire = a.wire ++ [.hostFrame (a.finish x (a.chainOf x).bytes)]) ∧
        (∀ t, g = .tree t → e.queue c.queue = rest ∧ e.wire = a.wire ∧
          e.rd .treeTxFrames t = (a.rd .treeTxFrames t + 1) % 2 ^ 64 ∧
          ∃ f : DownFrame, (e.tree t).payload = (a.tree t).payload ++ [f] ∧ f.terminal = x.dest / 4096 ∧
            f.encPort = x.dest % 4096 ∧ f.placed = 0 ∧ f.bytes = a.finish x (a.chainOf x).bytes)) ∧
    (∀ (d : Dev) c k rest x, d.queue c.queue = k :: rest → d.desc k = some x →
      (d.sched.permitBad.contains c.queue = true ∨ ¬(d.permitted c.queue x.domain = true ∧ x.owns c.queue = true)) →
      (d.takeHead n ps g c).1 = false ∧ (d.takeHead n ps g c).2.wire = d.wire ∧
      (d.takeHead n ps g c).2.queue c.queue = rest ∧ (d.takeHead n ps g c).2.trees = d.trees ∧
      (d.takeHead n ps g c).2.rd .isolationDrop 0 = (d.rd .isolationDrop 0 + 1) % 2 ^ 64 ∧
      (d.takeHead n ps g c).2.rd .permitEcc 0 =
        (if d.sched.permitBad.contains c.queue then (d.rd .permitEcc 0 + 1) % 2 ^ 64 else d.rd .permitEcc 0))

/-! ### Time (R220-R239) -/

/-- A rate change that is due, no step due with it, makes OFFSET the time of its tick under the old model, BASE_TICK that
tick, and INC the new one; a step that is due, no rate change due with it, is added, subtracted or set. Each is then no
longer pending, and no register changes but the model and the trees' TOD_REF and TOD_GEN. Before its tick nothing changes.
(Rests on R224, R225, R227, R236.) -/
def Obligations.ClockChangesApply : Prop :=
  ∀ (s : State) (n : Nat),
    let kept (e : Dev) : Prop := ∀ r i, r ∉ [.clockModelOffset, .baseTick, .clkInc, .todRef, .todGen] → e.rd r i = s.dev.rd r i
    let model (e : Dev) (x : ClockModel) : Prop := e.rd .clockModelOffset 0 = unitsTime x.offset % 2 ^ 96 ∧
      e.rd .baseTick 0 = x.base % 2 ^ 64 ∧ e.rd .clkInc 0 = x.inc % 2 ^ 64
    (∀ inc c, s.dev.gnomon.rate = some (inc, c) →
      (c ≤ max s.now n → (∀ x ∈ s.dev.gnomon.step, max s.now n < x.2.2) → Completes (.rateChangeApply n) s n fun e =>
        model e ⟨s.dev.clock.time c, c, inc⟩ ∧ e.gnomon = { s.dev.gnomon with rate := none } ∧ kept e) ∧
      (max s.now n < c → Completes (.rateChangeApply n) s n fun e => e = s.dev)) ∧
    (∀ mode v c, s.dev.gnomon.step = some (mode, v, c) →
      (c ≤ max s.now n → (∀ x ∈ s.dev.gnomon.rate, max s.now n < x.2) → Completes (.stepApply n) s n fun e =>
        (mode = 0 → model e ⟨(s.dev.clock.offset + timeUnits v) % timeModulus, s.dev.clock.base, s.dev.clock.inc⟩) ∧
        (mode = 1 → model e ⟨timeLess s.dev.clock.offset (timeUnits v), s.dev.clock.base, s.dev.clock.inc⟩) ∧
        (mode = 2 → model e ⟨timeUnits v, c, s.dev.clock.inc⟩) ∧
        e.gnomon = { s.dev.gnomon with step := none } ∧ kept e) ∧
      (max s.now n < c → Completes (.stepApply n) s n fun e => e = s.dev))

/-- R224, whole. At the tick c1 that RATE_SET named the Gnomon sets OFFSET to T(c1) under the old model, BASE_TICK to c1 and
INC to the new value; T(c1) under the new model is then the same time, to within one unit of FRACTION. RATE_SET carries INC
in its bytes 0 to 5 and c1 in its bytes 6 to 13. -/
def Obligations.RateSetIsContinuous : Prop :=
  (∀ (s : State) (n : Nat) (m : Master) (data : Bytes) (inc c1 : Nat), data.length = 14 →
    ofBytes (data.take 6) = inc → ofBytes (data.drop 6) = c1 → c1 ≠ 0 →
    s.dev.accepts (max s.now n) m .rateSet 0 data = true →
    Answered (.write n m 0x2900 0 0x09 data) s n m fun _ e => e.gnomon.rate = some (inc, c1)) ∧
  ∀ (s : State) (n inc c1 : Nat), s.dev.gnomon.rate = some (inc, c1) → (∀ x ∈ s.dev.gnomon.step, max s.now n < x.2.2) →
    c1 < 2 ^ 64 → inc < 2 ^ 64 → c1 ≤ max s.now n →
    Completes (.rateChangeApply n) s n fun e =>
      e.rd .clockModelOffset 0 = unitsTime (s.dev.clock.time c1) ∧ e.rd .baseTick 0 = c1 ∧ e.rd .clkInc 0 = inc ∧
      e.clock.time c1 = s.dev.clock.time c1

/-- TIME_HOLDOVER of a steered clock after KEEPALIVE_MS without the servo: TIME_STATE 2, counted, source 422. TOD_UPDATE of
an enabled tree whose period has passed and whose map the Gnomon took: TOD_REF pairs the named superframe with its frame's
start time plus the downstream latency. PPS_OUT_EDGE where PPS_OUT is driven at a second: one edge leaves and is counted.
RCLK_RESTORE at the end of a squelch: RCLK_STATE 1. (Rests on R228, R234, R236, R237, R239.) -/
def Obligations.TimeEventsAct : Prop :=
  ∀ (s : State) (n : Nat),
    (s.dev.rd .keepaliveMs 0 ≠ 0 → s.dev.rd .timeState 0 = 1 →
      s.dev.gnomon.servoAt + msTicks (s.dev.rd .keepaliveMs 0) ≤ max s.now n → Completes (.timeHoldover n) s n fun e =>
        e.rd .timeState 0 = 2 ∧ e.rd .holdoverEvents 0 = (s.dev.rd .holdoverEvents 0 + 1) % 2 ^ 64 ∧
        (e.source 422).level = true ∧ e.gnomon = s.dev.gnomon ∧
        ∀ r i, r ∉ [.timeState, .holdoverEvents, .occurrences] → e.rd r i = s.dev.rd r i) ∧
    (∀ t < 32, s.dev.on .todEnable t = true →
      ((s.dev.tree t).todN = none ∨ (s.dev.tree t).todAt + msTicks (s.dev.rd .todPeriodMs t) ≤ max s.now n) →
      (∀ m ∈ (s.dev.tree t).maps, m.sfc = s.dev.rd .superframe 0 → Consumer.gnomon ∉ m.late) →
      Completes (.todUpdate n t) s n fun e =>
        let k := s.dev.rd .superframe 0 + s.dev.rd .todLead t
        let c := s.dev.frameStart k
        (e.tree t).todN = some k ∧ (e.tree t).todAt = max s.now n ∧ (∀ x, x ≠ t → e.tree x = s.dev.tree x) ∧
        e.rd .todRef t =
          (k * 2 ^ 96 + unitsTime ((s.dev.clockAhead c).time c + s.dev.downLatency t * 65536 / 1000)) % 2 ^ 160 ∧
        s.dev.regsKept e [(.todRef, t)]) ∧
    (s.dev.ppsDriven = true → s.dev.ppsCrosses (max s.now n) = true → Completes (.ppsOutEdge n) s n fun e =>
      e.wire = s.dev.wire ++ [.ppsEdge (max s.now n)] ∧ e.rd .ppsEdges 0 = (s.dev.rd .ppsEdges 0 + 1) % 2 ^ 64 ∧
      s.dev.regsKept e [(.ppsEdges, 0)]) ∧
    (s.dev.ppsDriven = false → Completes (.ppsOutEdge n) s n fun e => e = s.dev) ∧
    (∀ u, s.dev.gnomon.rclkUntil = some u → u ≤ max s.now n → s.dev.rd .rclkState 0 = 2 →
      Completes (.rclkRestore n) s n fun e =>
        e.rd .rclkState 0 = 1 ∧ s.dev.released e 423 ∧ e.gnomon.rclkUntil = none ∧
        s.dev.regsKept e [(.rclkState, 0)])

/-- R238, whole. With PPS_IN_ENABLE 1 a rising edge that is no sooner than 0.5 s after the last stamped one is stamped to
100 ps, less PPS_IN_DELAY_PS, in PPS_IN_STAMP, and PPS_IN_SEQ advances; an edge within 0.5 s of the last stamped one is
ignored and counted in PPS_IN_IGNORED. With PPS_IN_ENABLE 0 nothing happens. -/
def Obligations.PpsInStamped : Prop :=
  ∀ (s : State) (n ps : Nat),
    (s.dev.on .ppsInEnable 0 = true →
      (∀ l ∈ s.dev.gnomon.ppsInLast, l + 622080000 < max s.now n) → Completes (.ppsInEdge n ps) s n fun e =>
        e.rd .ppsInStamp 0 =
          s.dev.stampTime (max s.now n) (((ps / 100 * 100 : Nat) : Int) - s.dev.rdS .ppsInDelayPs 0) ∧
        e.rd .ppsInSeq 0 = (s.dev.rd .ppsInSeq 0 + 1) % 2 ^ 32 ∧ e.gnomon.ppsInLast = some (max s.now n) ∧
        s.dev.regsKept e [(.ppsInStamp, 0), (.ppsInSeq, 0)]) ∧
    (s.dev.on .ppsInEnable 0 = true →
      ∀ l, s.dev.gnomon.ppsInLast = some l → max s.now n ≤ l + 622080000 → Completes (.ppsInEdge n ps) s n fun e =>
        e.rd .ppsInIgnored 0 = (s.dev.rd .ppsInIgnored 0 + 1) % 2 ^ 64 ∧ s.dev.onlyRegs e [(.ppsInIgnored, 0)]) ∧
    (s.dev.on .ppsInEnable 0 = false → Completes (.ppsInEdge n ps) s n fun e => e = s.dev)

/-! ### Lanes, links, PAUSE (R243-R262) -/

/-- CALIBRATION_DONE of a lane's first calibration: it is calibrated, and one waiting in stage 0 of a link that may run goes to
stage 1. LANE_STAGE_ADVANCE of an allowed link that waits for no retry. From stage 1: where the link does not
auto-negotiate, or its lowest lane completes it with a partner of the port's type, the pause bits resolved, a lane that
trains goes to 2; with no partner of that type nothing changes. From 2: the lanes of a link go to 3 together once each is
trained, those with TRAIN_ENABLE 0 being done at once, and peaking begins at CTLE_SET. From 3 they go to 4 together. From 4,
the exchange made and no fault there, all go to 5: the port is up with its hold over, or the mate link is. EXCHANGE_WAIT_END
brings a link up whose partner stayed silent. LANE_STAGE_TIMEOUT of a lane that has been in stage 2, 3 or 4 for its limit:
BRINGUP_FAIL counts it, FAIL_STAGE names the stage, the link tries again 10 ms later and its fault source holds. DETECT_RETRY
then takes every lane of an allowed link to its first stage. CAPABILITY_FRAME_SEND of a port in the exchange sends one frame
at its start and one every 1 ms. (Rests on R243, R245, R249, R250, R253.) -/
def Obligations.LinksComeUpOrRetry : Prop :=
  (∀ (s : State) (n l : Nat) (r : LaneReport), l < 20 →
     let k := s.dev.laneHome l
     let c : Instr := .laneStageAdvance n l r
     let isUp (e : Dev) : Prop := (∀ j ∈ s.dev.linkLanes k, e.rd .laneState j = 5) ∧
       (∀ p, k = .port p → e.rd .portState p = 1 ∧ e.rd .holdState p = 0 ∧ (e.port p).hold = none ∧
         s.dev.released e (304 + 4 * p)) ∧
       (k = .mate → e.rd .mateState 0 = 1 ∧ s.dev.released e 398)
     let trains (e : Dev) : Prop := e.rd .laneState l = 2 ∧ (e.lane l).stageAt = max s.now n ∧
       ∀ j, j ∉ s.dev.linkLanes k → e.rd .laneState j = s.dev.rd .laneState j
     let trained (j : Nat) : Prop := s.dev.rd .laneState j = 2 ∧ (s.dev.lane j).done = true
     let locks (e : Dev) : Prop := ∀ j ∈ s.dev.linkLanes k, e.rd .laneState j = 3 ∧
       e.rd .ctleNow j = s.dev.rd .ctleSet j % Reg.ctleNow.modulus
     (s.dev.chip.phase ≠ .porst → (s.dev.lane l).calibrated = false → s.dev.opRuns 6 = false →
       Completes (.calibrationDone n l) s n fun e =>
         (e.lane l).calibrated = true ∧ (e.lane l).calibrating = false ∧
         e.rd .laneState l = (if s.dev.rd .laneState l = 0 ∧ s.dev.linkAllowed k = true then 1 else s.dev.rd .laneState l) ∧
         s.dev.regsKept e [(.laneState, l)]) ∧
     (s.dev.linkAllowed k = true → s.dev.linkRetryAt k = 0 →
       (s.dev.rd .laneState l = 1 → (∀ p, k = .port p → s.dev.on .anEnable p = false) →
         (s.dev.on .trainEnable l = true → Completes c s n trains) ∧
         (s.dev.on .trainEnable l = false → (∀ j ∈ s.dev.linkLanes k, j ≠ l → trained j) → Completes c s n locks)) ∧
       (s.dev.rd .laneState l = 1 → ∀ p, k = .port p → s.dev.on .anEnable p = true → l = (s.dev.lanesOf p).headD 0 →
         (r.typeOk = true → s.dev.on .trainEnable l = true → Completes c s n fun e => trains e ∧
           (e.port p).negotiated =
             some (resolvePause (pauseBits (s.dev.on .pauseRxEnable p) (s.dev.on .pauseTxEnable p)) r.pause) ∧
           (r.capability = true → e.rd .partnerFinuno p = 1)) ∧
         (r.typeOk = false → (s.dev.port p).negotiated = none → Completes c s n fun e => e = s.dev)) ∧
       (s.dev.rd .laneState l = 2 → ((∀ j ∈ s.dev.linkLanes k, j ≠ l → trained j) → Completes c s n locks) ∧
         ((∃ j ∈ s.dev.linkLanes k, j ≠ l ∧ ¬trained j) → Completes c s n fun e =>
           e.rd .laneState l = 2 ∧ (e.lane l).done = true ∧ (e.lane l).precodeTx = r.precodeAsked ∧
           ∀ j, e.rd .laneState j = s.dev.rd .laneState j)) ∧
       (s.dev.linkInStage k 3 = true → (∀ j ∈ s.dev.linkLanes k, j ≠ l → (s.dev.lane j).done = true) →
         Completes c s n fun e => ∀ j ∈ s.dev.linkLanes k, e.rd .laneState j = 4) ∧
       (s.dev.linkInStage k 4 = true → r.fault = false → s.dev.exchanged k = true → Completes c s n isUp)) ∧
     (∀ i, ((∃ p < s.dev.portCount, p < 16 ∧ k = .port p ∧ i = p) ∨ k = .mate ∧ i = 16) → s.dev.linkAllowed k = true →
       s.dev.linkRetryAt k = 0 → s.dev.linkInStage k 4 = true → s.dev.exchanged k = false →
       (∀ j ∈ s.dev.linkLanes k, s.dev.stageOver (max s.now n) j = true) → Completes (.exchangeWaitEnd n i) s n isUp)) ∧
  (∀ (s : State) (n l : Nat), l < 20 →
     let k := s.dev.laneHome l
     (s.dev.linkAllowed k = true → s.dev.linkRetryAt k = 0 → s.dev.stageOver (max s.now n) l = true →
       Completes (.laneStageTimeout n l) s n fun e =>
         e.rd .bringupFail l = (s.dev.rd .bringupFail l + 1) % 2 ^ 64 ∧ e.rd .failStage l = s.dev.rd .laneState l ∧
         e.linkRetryAt k = max s.now n + msTicks 10 ∧ (e.source (linkSource k)).level = true ∧
         ∀ r i, r ≠ .occurrences → (r, i) ∉ [(.bringupFail, l), (.failStage, l)] → e.rd r i = s.dev.rd r i) ∧
     ((∀ p, k = .port p → p < s.dev.portCount) → s.dev.linkAllowed k = true → s.dev.linkRetryAt k ≠ 0 →
       s.dev.linkRetryAt k ≤ max s.now n → Completes (.detectRetry n l) s n fun e =>
         e.linkRetryAt k = 0 ∧ (∀ j ∈ s.dev.linkLanes k,
           e.rd .laneState j = (if (s.dev.lane j).calibrated = true ∧ (s.dev.lane j).calibrating = false then 1 else 0)) ∧
         ∀ q i, q ∉ [.laneState, .partnerFinuno] → e.rd q i = s.dev.rd q i) ∧
     (∀ p < 16, (s.dev.capabilityDue (max s.now n) p = true → Completes (.capabilityFrameSend n p) s n fun e =>
         e.wire = s.dev.wire ++ [.capability p s.dev.capabilityFrame] ∧ (e.port p).capAt = some (max s.now n) ∧
         e.regs = s.dev.regs) ∧
       (s.dev.capabilityDue (max s.now n) p = false → Completes (.capabilityFrameSend n p) s n fun e => e = s.dev)))

/-- LINK_DOWN of an enabled port that is up: it is down, counted, its lanes are in their first stage and its link source
holds; its hold begins, or with HOLD_MS 0 its queues are flushed at once. Of the mate link: it is down, hunts, its lanes are
in their first stage and source 398 holds. IDLE_ENTRY of a lane that may idle, and IDLE_EXIT of an idle lane, which sends
one training burst and carries frames 2 us later; a lane that has entered idle is not leaving it. FEC_DEGRADE_CHECK adds a lane's second to its counters; more corrected
symbols than SER_DEGRADE make its link's degrade source hold. EYE_SCAN_DONE of a scan that runs gives its results. (Rests on
R193, R251, R252, R254, R261, R320.) -/
def Obligations.LinksAreWatched : Prop :=
  (∀ (s : State) (n : Nat),
     (∀ p < 16, p < s.dev.portCount → s.dev.portAllowed p = true → s.dev.portUp p = true →
       Completes (.linkDown n (.port p)) s n fun e =>
         e.rd .portState p = 0 ∧ e.rd .linkDowns p = (s.dev.rd .linkDowns p + 1) % 2 ^ 64 ∧
         (∀ l ∈ s.dev.lanesOf p, e.rd .laneState l ≤ 1) ∧ (e.source (304 + 4 * p)).level = true ∧
         (s.dev.rd .holdMs p ≠ 0 → e.rd .holdState p = 1 ∧ (e.port p).hold = some (max s.now n, s.dev.rd .holdMs p)) ∧
         (s.dev.rd .holdMs p = 0 → e.rd .holdState p = 2 ∧ ∀ q < 8, e.queue (upQueue p q) = [])) ∧
     (s.dev.mateAllowed = true → Completes (.linkDown n .mate) s n fun e =>
       e.rd .mateState 0 = 0 ∧ e.mate.hunt = true ∧ (∀ l ∈ mateLanes, e.rd .laneState l ≤ 1) ∧
       (e.source 398).level = true)) ∧
  (∀ (s : State) (n l : Nat), l < 20 →
     (s.dev.mayIdle (max s.now n) l = true → Completes (.idleEntry n l) s n fun e =>
       (e.lane l).idle = true ∧ (e.lane l).exitAt = none ∧ e.wire = s.dev.wire ∧
       ∀ r i, r ∉ [.portState, .mateState] → e.rd r i = s.dev.rd r i) ∧
     ((s.dev.lane l).idle = true → Completes (.idleExit n l) s n fun e =>
       (e.lane l).idle = false ∧ (e.lane l).exitAt = some (max s.now n + 2489) ∧
       e.wire = s.dev.wire ++ [.trainingBurst l] ∧ ∀ r i, r ∉ [.portState, .mateState] → e.rd r i = s.dev.rd r i) ∧
     (∀ symbols corrected uncorrectable, Completes (.fecDegradeCheck n l symbols corrected uncorrectable) s n fun e =>
       e.rd .fecSymbols l = (s.dev.rd .fecSymbols l + symbols) % 2 ^ 64 ∧
       (∀ p, s.dev.laneHome l = .port p → e.rd .fecCorr p = (s.dev.rd .fecCorr p + corrected) % 2 ^ 64 ∧
         e.rd .portFecUncorr p = (s.dev.rd .portFecUncorr p + uncorrectable) % 2 ^ 64) ∧
       (s.dev.rd .serDegrade l < symbols → (e.source (degradeSource (s.dev.laneHome l))).level = true) ∧
       ((∀ j ∈ s.dev.linkLanes (s.dev.laneHome l), j ≠ l → (s.dev.lane j).degraded = false) →
         symbols ≤ s.dev.rd .serDegrade l → s.dev.released e (degradeSource (s.dev.laneHome l)))) ∧
     (∀ height width, (s.dev.lane l).scanning = true → Completes (.eyeScanDone n l height width) s n fun e =>
       (e.lane l).scanning = false ∧ e.rd .eyeHeightMv l = height % 2 ^ 16 ∧ e.rd .eyeWidthMui l = width % 2 ^ 16 ∧
       s.dev.regsKept e [(.eyeHeightMv, l), (.eyeWidthMui, l)]))

/-- R258, whole. With PAUSE_TX_ENABLE 1 a port that is up sends PAUSE of quanta 0xFFFF when its receive store holds more
than 48 KiB, repeats it every half quanta while the store stays above 16 KiB, and sends quanta 0 when the store falls to 16
KiB. Sent frames are counted in PAUSE_TX_FRAMES. Nothing else makes it send one: not the occupancy of a pool. (A port that
auto-negotiated sends as R249 resolved it, and the frame waits for the training bursts of idle lanes, R254: the premise and
the tick say so.) -/
def Obligations.PauseFramesSent : Prop :=
  ∀ (s : State) (n p : Nat), p < 16 →
    let held := s.dev.storeBytes p
    let at_ := (s.dev.wakeLink (max s.now n) (.port p)).1
    let sends (c : Instr) (q : Nat) : Prop := Completes c s n fun e =>
      e.wire.getLast? = some (.pause p q at_) ∧ max s.now n ≤ at_ ∧ (e.port p).pauseSentAt = at_ ∧
      (e.port p).pauseSent = (q != 0) ∧ e.rd .pauseTxFrames p = (s.dev.rd .pauseTxFrames p + 1) % 2 ^ 64 ∧
      s.dev.regsKept e [(.pauseTxFrames, p), (.portState, p)] ∧
      ((∀ l ∈ s.dev.lanesOf p, (s.dev.lane l).idle = false ∧ (s.dev.lane l).exitAt = none) →
        at_ = max s.now n ∧ e.wire = s.dev.wire ++ [.pause p q (max s.now n)])
    let silent (c : Instr) : Prop := Completes c s n fun e => e = s.dev
    (s.dev.on .pauseTxEnable p = true → s.dev.portUp p = true → (∀ x ∈ (s.dev.port p).negotiated, x.2 = true) →
      ((s.dev.port p).pauseSent = false → 49152 < held → sends (.pauseTx n p) 0xFFFF) ∧
      ((s.dev.port p).pauseSent = false → held ≤ 49152 → silent (.pauseTx n p)) ∧
      ((s.dev.port p).pauseSent = true → held ≤ 16384 → sends (.pauseTx n p) 0) ∧
      ((s.dev.port p).pauseSent = true → 16384 < held → silent (.pauseTx n p)) ∧
      ((s.dev.port p).pauseSent = true → 16384 < held →
        (s.dev.port p).pauseSentAt + ceilDiv (0xFFFF * 256 * 124416) (10000000 * s.dev.lanesPerPort) ≤ max s.now n →
        sends (.pauseRepeat n p) 0xFFFF)) ∧
    (s.dev.on .pauseTxEnable p = false ∨ (∃ x ∈ (s.dev.port p).negotiated, x.2 = false) →
      silent (.pauseTx n p) ∧ silent (.pauseRepeat n p))

/-- R259, whole. With PAUSE_STORM_MS not 0 a port paused continuously for PAUSE_STORM_MS stops obeying PAUSE until 1 s
passes with no PAUSE frame received. The event is counted in PAUSE_STORM and raises the port's pause-storm fault, by default
of severity S1. PAUSED_US counts the time the port was paused: at the end of a pause what has not been counted yet, what
falls short of a us being kept for the next time. -/
def Obligations.PauseStormsEnd : Prop :=
  ∀ (s : State) (n p : Nat), p < 16 →
    let paused (e : Dev) (till : Nat) : Prop := (e.port p).pausedAt = none ∧
      let c := (till - (s.dev.port p).countedTo) * 100 + (s.dev.port p).pauseRest
      e.rd .pausedUs p = (s.dev.rd .pausedUs p + c / 124416) % 2 ^ 64 ∧ (e.port p).pauseRest = c % 124416
    defaultSeverity (304 + 4 * p + 2) = 1 ∧
    (∀ b, (s.dev.port p).pausedAt = some b →
      ((s.dev.port p).pauseUntil ≤ max s.now n → Completes (.pauseExpiry n p) s n fun e =>
        paused e (s.dev.port p).pauseUntil ∧ s.dev.regsKept e [(.pausedUs, p)]) ∧
      (max s.now n < (s.dev.port p).pauseUntil → s.dev.rd .pauseStormMs p ≠ 0 →
        b + msTicks (s.dev.rd .pauseStormMs p) ≤ max s.now n → Completes (.pauseStorm n p) s n fun e =>
          paused e (max s.now n) ∧ (e.port p).stormed = true ∧
          e.rd .pauseStorm p = (s.dev.rd .pauseStorm p + 1) % 2 ^ 64 ∧ (e.source (304 + 4 * p + 2)).level = true ∧
          ((s.dev.source (304 + 4 * p + 2)).level = false → s.dev.disabled (304 + 4 * p + 2) = false →
            e.rd .occurrences (304 + 4 * p + 2) = (s.dev.rd .occurrences (304 + 4 * p + 2) + 1) % 2 ^ 64)) ∧
      (s.dev.rd .pauseStormMs p = 0 → max s.now n < (s.dev.port p).pauseUntil →
        Completes (.pauseStorm n p) s n fun e => e = s.dev)) ∧
    ((s.dev.port p).stormed = true →
      (∀ (ps : Nat) (bytes : Bytes), s.dev.chip.phase = .up → s.dev.portUp p = true → 60 ≤ bytes.length →
        bytes.length + 4 ≤ s.dev.rd .maxlen 0 → numAt bytes 12 2 = 0x8808 → numAt bytes 14 2 = 1 →
        (s.dev.port p).pausedAt = none → Completes (.macFrameReceive ⟨n, ps⟩ (.uplink p) bytes true) s n fun e =>
          (e.port p).pausedAt = none ∧ (e.port p).stormed = true ∧ (e.port p).lastPauseRx = max s.now n) ∧
      ((s.dev.port p).lastPauseRx + msTicks 1000 ≤ max s.now n → Completes (.pauseStormEnd n p) s n fun e =>
        (e.port p).stormed = false ∧ s.dev.released e (304 + 4 * p + 2) ∧ e.regs = s.dev.regs) ∧
      (max s.now n < (s.dev.port p).lastPauseRx + msTicks 1000 →
        Completes (.pauseStormEnd n p) s n fun e => e = s.dev))

/-! ### The mate (R260-R280) -/

/-- MATE_FRAME_RECEIVE on a link that is up, in SYNC, no record waiting and no stream of a resync owed: a frame without content is counted, its sequence noted, and a gap
counted where the sequence jumps; a second uncorrectable header in a row ends SYNC. HEARTBEAT_RECEIVE of a pin word with
redundancy enabled: a wrong SYNC or CRC is counted and is no heartbeat; a heartbeat is counted and its path live again.
(Rests on R51, R260, R270, R271.) -/
def Obligations.MatePathsHeard : Prop :=
  ∀ (s : State) (n : Nat),
    (∀ f : MateFrameIn, s.dev.rd .mateState 0 ≠ 0 → s.dev.mate.hunt = false → s.dev.mate.arrived = [] →
      s.dev.mate.streamDue = false →
      (mateHeaderCheck f ≠ .uncorrectable → mateType f.header = 0 → Completes (.mateFrameReceive n f) s n fun e =>
        e.rd .mateFramesRx 0 = (s.dev.rd .mateFramesRx 0 + 1) % 2 ^ 64 ∧ e.mate.seqRx = some (field f.header 24 16) ∧
        (∀ k, s.dev.mate.seqRx = some k → e.rd .mateSeqGap 0 =
          (if (k + 1) % 65536 = field f.header 24 16 then s.dev.rd .mateSeqGap 0
            else (s.dev.rd .mateSeqGap 0 + 1) % 2 ^ 64)) ∧
        s.dev.regsKept e [(.mateFramesRx, 0), (.mateSeqGap, 0)]) ∧
      (mateHeaderCheck f = .uncorrectable → Completes (.mateFrameReceive n f) s n fun e =>
        e.mate.hunt = s.dev.mate.lastBad ∧ e.mate.lastBad = !s.dev.mate.lastBad ∧ e.regs = s.dev.regs)) ∧
    (∀ w, s.dev.on .redundancyEnable 0 = true →
      let valid : Prop := field w 24 8 = 0xB4 ∧ crc8 (toBytes 3 (w / 256 % 2 ^ 24)) = w % 256
      (¬valid → Completes (.heartbeatReceive n (.pins w)) s n fun e =>
        e.rd .hbWordErr 0 = (s.dev.rd .hbWordErr 0 + 1) % 2 ^ 64 ∧ e.mate = s.dev.mate ∧
        ∀ r i, r ∉ [.hbWordErr, .occurrences] → e.rd r i = s.dev.rd r i) ∧
      (valid → field w 22 2 = 0 → s.dev.rd .unitRole 0 ≠ 2 → Completes (.heartbeatReceive n (.pins w)) s n fun e =>
        e.rd .hbRxPins 0 = (s.dev.rd .hbRxPins 0 + 1) % 2 ^ 64 ∧ bitAt (e.rd .pathState 0) 1 = true ∧
        e.mate.pinsAt = some (max s.now n) ∧ s.dev.released e 395 ∧
        s.dev.regsKept e [(.hbRxPins, 0), (.pathState, 0)]))

/-- JOIN_DECIDE, 1 ms after the write: a unit that heard role 1, or heard role 0 and has UNIT_ID 1, becomes STANDBY: dark,
listening to every tree, synchronising; any other becomes ACTIVE, its mirror synced. RELINQUISH of an ACTIVE unit, by
ROLE_CMD 1, or by an S3 fault or for a waiting reset with a mate present, names TAKE_SFC and sends a word on the pins; the
command's answer is held. RELINQUISH_REFUSED: the unit stays ACTIVE and the master has DENIED. RELINQUISH_DRAIN_END: the
drain is over. (Rests on R264, R265, R276, R340.) -/
def Obligations.RolesChange : Prop :=
  ∀ (s : State) (n : Nat),
    (∀ t, s.dev.mate.joiningAt = some t → t + msTicks 1 ≤ max s.now n →
      let follows : Prop := s.dev.mate.heardRole1 = true ∨ s.dev.mate.heardRole0 = true ∧ s.dev.rd .unitId 0 = 1
      (follows → Completes (.joinDecide n) s n fun e =>
        e.rd .unitRole 0 = 2 ∧ e.rd .mirrorState 0 = 1 ∧ e.rd .timeState 0 = 3 ∧ e.mate.joiningAt = none ∧
        ∀ x < 32, (e.tree x).lit = false ∧ e.rd .listenState x = 1 ∧ bitAt (e.rd .txdisNow (quadOf x)) (x % 4) = true) ∧
      (¬follows → Completes (.joinDecide n) s n fun e =>
        e.rd .unitRole 0 = 1 ∧ e.rd .mirrorState 0 = 2 ∧ e.mate.joiningAt = none ∧
        e.mate.activeSince = s.dev.rd .superframe 0 ∧ s.dev.regsKept e [(.unitRole, 0), (.mirrorState, 0)])) ∧
    (let named (d e : Dev) : Prop := e.mate.relinquishing = some (d.takeSfcAt (max s.now n)) ∧
      (∃ w, e.wire.getLast? = some (.pinWord w)) ∧ e.rd .unitRole 0 = 1
     (∀ m, s.dev.acceptsNum (max s.now n) m .roleCmd 0 1 = true → Completes (.relinquish n (.command m)) s n fun e =>
        named (s.dev.asked (max s.now n) m) e ∧ e.mate.relinquishMaster = some m) ∧
     (s.dev.rd .unitRole 0 = 1 → s.dev.matePresent = true → s.dev.faults.device = 0 → s.dev.faults.arriving = [] →
        (∃ x ∈ s.dev.stickySevs, 3 ≤ x) → Completes (.relinquish n .fault) s n fun e => named s.dev e ∧ e.faults.device = 1) ∧
     (s.dev.rd .unitRole 0 = 1 → s.dev.matePresent = true → s.dev.mate.relinquishing = none → s.dev.chip.pendingReset ≠ none →
        Completes (.relinquish n .reset) s n fun e => named s.dev e ∧ e.chip = s.dev.chip)) ∧
    (∀ m, s.dev.mate.relinquishing ≠ none → s.dev.mate.refuseHeard = true → s.dev.mate.relinquishMaster = some m →
      s.dev.mate.relinquishFault = false → s.dev.mgmt.held = none → s.dev.chip.pendingReset = none →
      Completes (.relinquishRefused n) s n fun e =>
        e.wire = s.dev.wire ++ [.response m ⟨2, []⟩] ∧ e.mate.relinquishing = none ∧ e.mate.refuseHeard = false ∧
        e.rd .unitRole 0 = s.dev.rd .unitRole 0 ∧ ∀ r i, r ≠ .occurrences → e.rd r i = s.dev.rd r i) ∧
    (∀ t, s.dev.mate.drainUntil = some t → t ≤ max s.now n → Completes (.relinquishDrainEnd n) s n fun e =>
      e = { s.dev with mate := { s.dev.mate with drainUntil := none } })

/-- HEARTBEAT_MISS of a STANDBY when both paths have missed one: it keeps frames. PATH_SILENT after 188.5 us: the path's bit
is clear, the alarm counted, its source holds. TAKEOVER of a STANDBY that is eligible and synced, both paths silent, or the
relinquish it accepted due: it is ACTIVE, the take-over counted, its cause and first frame named, its time no longer
followed, it keeps no frame, and its payload pipelines start empty. (Rests on R241, R271, R274, R275, R276.) -/
def Obligations.SilenceIsFollowedByTakeover : Prop :=
  ∀ (s : State) (n : Nat),
    (s.dev.rd .unitRole 0 = 2 → s.dev.quietFor (max s.now n) 7900416 .lanes = true →
      s.dev.quietFor (max s.now n) 7900416 .pins = true → Completes (.heartbeatMiss n) s n fun e =>
        e = { s.dev with mate := { s.dev.mate with keeping := true } }) ∧
    (∀ p : Path, s.dev.on .redundancyEnable 0 = true → s.dev.quietFor (max s.now n) 23452416 p = true →
      (s.dev.source (394 + pathBit p)).level = false → Completes (.pathSilent n p) s n fun e =>
        bitAt (e.rd .pathState 0) (pathBit p) = false ∧ e.rd .pathAlarms 0 = (s.dev.rd .pathAlarms 0 + 1) % 2 ^ 64 ∧
        (e.source (394 + pathBit p)).level = true ∧
        ∀ r i, r ∉ [.pathState, .pathAlarms, .occurrences] → e.rd r i = s.dev.rd r i) ∧
    (s.dev.rd .unitRole 0 = 2 → s.dev.mayTakeOver = true →
      let taken (cause k : Nat) (e : Dev) : Prop :=
        e.rd .unitRole 0 = 1 ∧ e.rd .takeovers 0 = (s.dev.rd .takeovers 0 + 1) % 2 ^ 64 ∧ e.rd .takeoverCause 0 = cause ∧
        e.rd .takeoverSfc 0 = k % 2 ^ 64 ∧ e.rd .timeState 0 ≠ 3 ∧ e.mate.firstFrame = some k ∧ e.mate.kept = [] ∧
        e.mate.takeSfc = none ∧ ∀ t < 32, (e.tree t).payload = []
      (s.dev.rd .pathState 0 % 4 = 0 → s.dev.mate.unplacedAt = none → Completes (.takeover n .silence) s n
        (taken 1 (s.dev.frameAt (max s.now n + ceilDiv (s.dev.rd .txOnUs 0 * 124416) 100)))) ∧
      ∀ p k, s.dev.mate.takeSfc = some (k, p) → k ≤ s.dev.rd .superframe 0 + 1 →
        Completes (.takeover n (.relinquish p k)) s n (taken (2 + pathBit p) (max k (s.dev.rd .superframe 0 + 1))))

/-- MIRROR_RECORD_APPLY on a STANDBY that does not resync, no other record waiting: a durable record that is not the next one
changes nothing; the next one takes effect and DSEQ_APPLIED is its number. MIRROR_STALE: an ACTIVE unit with an old
unacknowledged record is stale; a STANDBY without a whole mirror set for MIRROR_STALE_MS is stale, with source 396, and
resyncs once its lanes carry heartbeats; one that has them in time is left as it is. RESYNC_DONE: synced, where all that has
come within the 250 ms has been applied. RESYNC_FAILED: stale. (Rests on R266, R268, R269, R280.) -/
def Obligations.MirrorKeepsInStep : Prop :=
  ∀ (s : State) (n : Nat),
    (s.dev.on .redundancyEnable 0 = true → s.dev.rd .unitRole 0 = 2 → s.dev.rd .mirrorState 0 ≠ 1 →
      s.dev.mate.arrived = [] →
      let next := (s.dev.rd .dseqApplied 0 + 1) % 2 ^ 32
      (∀ r, recordExists r = true → (∀ t m, r ≠ .map t m) → mirrorDseq r ≠ next →
        Completes (.mirrorRecordApply n r) s n fun e => e = s.dev) ∧
      (Completes (.mirrorRecordApply n (.commit next)) s n fun e =>
        e.active = s.dev.staging ∧ e.rd .activeVersion 0 = (s.dev.rd .activeVersion 0 + 1) % 4 ∧ e.rd .dseqApplied 0 = next ∧
        s.dev.regsKept e [(.activeVersion, 0), (.commitStatus, 0), (.dseqApplied, 0)]) ∧
      (∀ t < 32, ∀ psync burst dn up, Completes (.mirrorRecordApply n (.pathLatency next t psync burst dn up)) s n fun e =>
        (e.tree t).peer = (psync, burst, dn, up) ∧ (∀ x, x ≠ t → e.tree x = s.dev.tree x) ∧ e.rd .dseqApplied 0 = next ∧
        s.dev.regsKept e [(.dseqApplied, 0)]) ∧
      (∀ k < 32838, (s.dev.slot k).retiring = true → Completes (.mirrorRecordApply n (.keyRetired next k)) s n fun e =>
        (e.slot k).next = none ∧ (e.slot k).retiring = false ∧ (e.slot k).current = (s.dev.slot k).current ∧
        e.rd .dseqApplied 0 = next ∧ s.dev.regsKept e [(.dseqApplied, 0)])) ∧
    (s.dev.rd .unitRole 0 = 1 → (∃ r ∈ s.dev.mate.unacked, r.1 + msTicks (s.dev.rd .mirrorStaleMs 0) < max s.now n) →
      Completes (.mirrorStale n) s n fun e => e.rd .mirrorState 0 = 3 ∧ s.dev.onlyRegs e [(.mirrorState, 0)]) ∧
    (s.dev.rd .unitRole 0 = 2 →
      let late := s.dev.mirrorLate (max s.now n)
      let heard : Prop := s.dev.rd .mateState 0 ≠ 0 ∧ bitAt (s.dev.rd .pathState 0) 0 = true
      ((s.dev.rd .mirrorState 0 = 2 ∧ late = true ∨ s.dev.rd .mirrorState 0 = 3) → heard →
        Completes (.mirrorStale n) s n fun e => e.rd .mirrorState 0 = 1 ∧ (e.source 396).level = true) ∧
      (s.dev.rd .mirrorState 0 = 2 → late = true → ¬heard → Completes (.mirrorStale n) s n fun e =>
        e.rd .mirrorState 0 = 3 ∧ (e.source 396).level = true ∧
        ∀ r i, r ∉ [.mirrorState, .occurrences] → e.rd r i = s.dev.rd r i) ∧
      (s.dev.rd .mirrorState 0 = 2 → late = false → Completes (.mirrorStale n) s n fun e => e = s.dev)) ∧
    (s.dev.rd .unitRole 0 = 2 → s.dev.rd .mirrorState 0 = 1 →
      (s.dev.mayEndResync (max s.now n) = true → Completes (.resyncDone n) s n fun e =>
        e.rd .mirrorState 0 = 2 ∧ s.dev.released e 396 ∧ s.dev.regsKept e [(.mirrorState, 0)]) ∧
      (s.dev.mayEndResync (max s.now n) = false → Completes (.resyncDone n) s n fun e => e = s.dev) ∧
      (Completes (.resyncFailed n) s n fun e => e.rd .mirrorState 0 = 3 ∧
        ∀ r i, r ∉ [.mirrorState, .occurrences] → e.rd r i = s.dev.rd r i))

/-- SELF_FENCE of an ACTIVE unit allowed to, 5 ms after both paths fell silent, when every tree that then had a terminal in
OPERATION has lost its signal or its frames and no take-over is recent; DUAL_ACTIVE_FENCE, at the next frame, of the unit
that became ACTIVE first, or of unit 1 where both did at once: it is FENCED, every tree dark, listening to none. The other
one stays as it is. (Rests on R264, R278, R279.) -/
def Obligations.FencesGoDark : Prop :=
  ∀ (s : State) (n : Nat), s.dev.rd .unitRole 0 = 1 →
    let fenced (e : Dev) : Prop := e.rd .unitRole 0 = 3 ∧ e.rd .mirrorState 0 = 0 ∧ (∀ q < 8, e.rd .txdisNow q = 15) ∧
      ∀ t < 32, (e.tree t).lit = false ∧ e.rd .listenState t = 0
    (∀ since watched, s.dev.mate.bothSilent = some (since, watched) → s.dev.on .selfFence 0 = true →
      since + msTicks 5 ≤ max s.now n → (∀ t ∈ s.dev.mate.tookOverAt, t + msTicks 10 ≤ max s.now n) → watched ≠ [] →
      (∀ t ∈ watched, s.dev.rd .treeDefects t % 4 ≠ 0) → Completes (.selfFence n) s n fenced) ∧
    (∀ since u heard, s.dev.mate.peerActive = some (since, u, heard) →
      (heard < s.dev.rd .superframe 0 →
        s.dev.mate.activeSince < since ∨ s.dev.mate.activeSince = since ∧ s.dev.rd .unitId 0 = 1 →
        Completes (.dualActiveFence n) s n fenced) ∧
      (since < s.dev.mate.activeSince ∨ s.dev.mate.activeSince = since ∧ s.dev.rd .unitId 0 ≠ 1 →
        Completes (.dualActiveFence n) s n fun e => e = s.dev))

/-! ### Faults and counters (R282-R295) -/

/-- FAULT_OCCURRENCE of one report, the frames whose send has ended having left and nothing else arriving. An occurrence of an
enabled, evaluated source, the first-fault record empty: its sticky bit is set with the severity it holds, the occurrence is
counted and the record names it. Severity S2 of a tree's source shuts the tree; at S1 or below no register changes but the
count. A disabled source sets nothing. A bridge's CRC error is counted besides. The end of a condition: the source no longer
holds. Good cell addresses change nothing; a bad one is counted, and the frame of its descriptor is dropped where it waits.
Errors of the buffer's memory are counted, corrected ones by bank, a bad read of a host frame's data inverting its FCS; a bad
permit-set word waits for the next check. A junction's temperature, a rail's voltage, a PLL's lock are what was measured,
and their sources hold accordingly. BROKEN_WIRE at a collector: the source whose wire it is, or every source of the die
behind the bridge fault wire, is asserted and stays so. COUNTER_VISIT changes nothing that is read where the local counter
lost nothing; what it lost is gone, and source 442 names the counter (its coding: log row 24). SNAP_READY of a snapshot in
progress: it is ready. (Rests on R187, R188, R212, R282, R283, R285, R286, R287, R288, R292, R293, R295.) -/
def Obligations.FaultsAreCollected : Prop :=
  (∀ (s : State) (n : Nat),
     let a := s.dev.settleSends (max s.now n)
     let reports (r : HwReport) (p : Dev → Prop) : Prop := Completes (.faultOccurrence n [r]) s n p
     let calm (k : Nat) : Prop := a.disabled k = false ∧ a.severity k ≤ 1 ∧ a.severity 443 ≤ 1
     a.faults.arriving = [] →
     (∀ o : Occurrence, o.source < 448 → o.source ∉ [289, 297] →
       (a.disabled o.source = false → a.unevaluated o.source = false → a.faults.first = none →
         (a.source o.source).capture = none → reports (.fault o) fun e =>
           (e.source o.source).sticky = true ∧ a.severity o.source ≤ (e.source o.source).severity ∧
           (∃ f, e.faults.first = some f ∧ f.capture.source = o.source ∧ f.capture.tick = max s.now n ∧
             f.capture.index = o.index ∧ f.severity = a.severity o.source ∧ f.refilled = false) ∧
           (a.severity o.source = 2 → o.source < 256 → o.source / 8 ∈ e.faults.shut) ∧
           (a.severity o.source ≤ 1 →
             e.rd .occurrences o.source = (a.rd .occurrences o.source + 1) % 2 ^ 64 ∧
             a.regsKept e [(.occurrences, o.source)])) ∧
       (a.disabled o.source = true → reports (.fault o) fun e =>
         e.regs = a.regs ∧ ∀ k, (e.source k).sticky = (a.source k).sticky)) ∧
     (∀ b < 2, ∀ o : Occurrence, o.source = 289 + 8 * b → calm o.source → a.faults.first = none →
       reports (.fault o) fun e =>
         e.rd .bridgeCrc b = (a.rd .bridgeCrc b + 1) % 2 ^ 64 ∧ (e.source o.source).sticky = true ∧
         a.regsKept e [(.bridgeCrc, b), (.occurrences, o.source)]) ∧
     (∀ k < 448, reports (.ends k) fun e => a.released e k ∧ e.regs = a.regs) ∧
     (∀ stage v k, k < 786432 →
       (pointerGood stage v = true → reports (.pointer stage v k) fun e => e.regs = a.regs ∧ e.buf = a.buf) ∧
       (pointerGood stage v = false → calm 417 → a.faults.first = none → reports (.pointer stage v k) fun e =>
         e.rd .ptrBad 0 = (a.rd .ptrBad 0 + 1) % 2 ^ 64 ∧ (e.source 417).sticky = true ∧
         ((stage = .descriptor ∨ stage = .link) → (∀ p ∈ a.ports, ∀ y ∈ p.2.sending, y.desc ≠ k) →
           (a.desc k).isSome = true → e.desc k = none) ∧
         ((stage = .ring ∨ stage = .descriptorStore) → e.buf.badReads = a.buf.badReads + 1))) ∧
     (∀ b < 32, reports (.eccCorrected b) fun e =>
       e.rd .bufEccCorr 0 = (a.rd .bufEccCorr 0 + 1) % 2 ^ 64 ∧ e.rd .bankEccCorr b = (a.rd .bankEccCorr b + 1) % 2 ^ 64 ∧
       a.regsKept e [(.bufEccCorr, 0), (.bankEccCorr, b)]) ∧
     (calm 418 → a.faults.first = none → reports (.eccData .host) fun e =>
       e.rd .bufEccUncorr 0 = (a.rd .bufEccUncorr 0 + 1) % 2 ^ 64 ∧ (e.source 418).sticky = true ∧
       e.wire = a.wire ++ [.inverted .host] ∧ a.regsKept e [(.bufEccUncorr, 0), (.occurrences, 418)]) ∧
     (∀ q < 131201, reports (.permitWord q) fun e => q ∈ e.sched.permitBad ∧ e.regs = a.regs) ∧
     (∀ k < 3, ∀ mC : Int, -2147483648 ≤ mC → mC < 2147483648 → (∀ x ∈ [295, 303, 435, 436], calm x) →
       reports (.junction k mC) fun e =>
         e.rdS .tjMc k = mC ∧ (125000 < mC → (e.source 436).level = true) ∧
         ((∀ j < 3, j ≠ k → a.rdS .tjMc j ≤ 125000) → mC ≤ 125000 → a.released e 436)) ∧
     (∀ r < 8, ∀ mV, calm 437 → reports (.rail r mV) fun e =>
       e.rd .railMv r = mV % Reg.railMv.modulus ∧
       (mV < Reg.railMv.modulus → mV < a.rd .railLowMv r ∨ a.rd .railHighMv r < mV → (e.source 437).level = true)) ∧
     (∀ k < 8, ∀ locked, calm (256 + 4 * k + 2) → reports (.pll k locked) fun e =>
       e.on .pllLocked k = locked ∧
       (a.on .pllLocked k = true → locked = false → (e.source (256 + 4 * k + 2)).level = true ∧
         e.rd .pllUnlocks k = (a.rd .pllUnlocks k + 1) % 2 ^ 64) ∧
       (a.on .pllLocked k = false → locked = true → a.released e (256 + 4 * k + 2)))) ∧
  (∀ (s : State) (n : Nat),
     (∀ collector source, collector ∈ [290, 298, 428] → source < 448 → Completes (.brokenWire n collector source) s n fun e =>
       (e.source source).broken = true ∧ (e.source source).level = true) ∧
     (∀ k < 2, ∀ source < 448, Completes (.brokenWire n (444 + k) source) s n fun e =>
       ∀ x ∈ dieSources k, (e.source x).cutOff = true ∧ (e.source x).level = true) ∧
     (∀ index inst sub lost, isCounter index inst sub = true →
       ((∀ x ∈ lost, x = 0) → Completes (.counterVisit n index inst ⟨sub, lost⟩) s n fun e => e = s.dev) ∧
       (s.dev.disabled 442 = false → (∃ x ∈ lost, x ≠ 0) → Completes (.counterVisit n index inst ⟨sub, lost⟩) s n fun e =>
         e.faults.arriving = s.dev.faults.arriving ++
           [(max s.now n, s.dev.severity 442, { source := 442, index := index * 256 + sub, aux := inst })] ∧
         ∀ r, Reg.ofAddr index sub = some r → r ≠ .occurrences →
           e.rd r inst = (s.dev.rd r inst - lost.headD 0) % 2 ^ 64 ∧ s.dev.regsKept e [(r, inst), (.occurrences, 442)])) ∧
     (s.dev.rd .snapState 0 = 1 → Completes (.snapReady n) s n fun e =>
       e.rd .snapState 0 = 2 ∧ s.dev.onlyRegs e [(.snapState, 0)]))
end

