-- ==== Sys2Proof/Laws/Tab.lean ====
section
/-!
SUPPORT. The laws of sparse tables: reading back what was written, leaving every other key alone, and keeping the
canonical form. The first two hold of any list, canonical or not.
-/
namespace Sys2Proof.Machine

variable {α : Type}

@[simp] theorem Tab.find_erase_same (t : Tab α) (k : Nat) : Tab.find (Tab.erase t k) k = none := by
  induction t with
  | nil => rfl
  | cons p r ih =>
    obtain ⟨j, v⟩ := p
    by_cases h : j = k <;> simp [Tab.erase, Tab.find, h, ih]

theorem Tab.find_erase_ne (t : Tab α) {j k : Nat} (h : j ≠ k) : Tab.find (Tab.erase t k) j = Tab.find t j := by
  induction t with
  | nil => rfl
  | cons p r ih =>
    obtain ⟨i, v⟩ := p
    by_cases hi : i = k
    · subst hi; simp [Tab.erase, Tab.find, ih, Ne.symm h]
    · simp [Tab.erase, Tab.find, hi, ih]

@[simp] theorem Tab.find_insert_same (t : Tab α) (k : Nat) (v : α) : Tab.find (Tab.insert t k v) k = some v := by
  induction t with
  | nil => simp [Tab.insert, Tab.find]
  | cons p r ih =>
    obtain ⟨j, w⟩ := p
    simp only [Tab.insert]
    split
    · simp [Tab.find]
    · split
      · simp [Tab.find]
      · simp only [Tab.find, ih]; split
        · omega
        · rfl

theorem Tab.find_insert_ne (t : Tab α) {j k : Nat} (v : α) (h : j ≠ k) :
    Tab.find (Tab.insert t k v) j = Tab.find t j := by
  induction t with
  | nil => simp [Tab.insert, Tab.find, Ne.symm h]
  | cons p r ih =>
    obtain ⟨i, w⟩ := p
    simp only [Tab.insert]
    split
    · simp [Tab.find, Ne.symm h]
    · split
      · next hk => subst hk; simp [Tab.find, Ne.symm h]
      · simp only [Tab.find, ih]

/-- What is written at a key is read there. -/
@[simp] theorem Tab.get_set_same [DecidableEq α] (d : α) (t : Tab α) (k : Nat) (v : α) :
    Tab.get d (Tab.set d t k v) k = v := by
  by_cases h : v = d <;> simp [Tab.get, Tab.set, h]

/-- Every other key reads as before. -/
theorem Tab.get_set_ne [DecidableEq α] (d e : α) (t : Tab α) {j k : Nat} (v : α) (h : j ≠ k) :
    Tab.get e (Tab.set d t k v) j = Tab.get e t j := by
  by_cases hv : v = d <;> simp [Tab.get, Tab.set, hv, Tab.find_erase_ne _ h, Tab.find_insert_ne _ _ h]

@[simp] theorem Tab.get_nil (d : α) (k : Nat) : Tab.get d ([] : Tab α) k = d := rfl

/-! ### The canonical form is kept -/

/-- The canonical form as a chain: every key above `lo`, no listed default. -/
theorem Tab.wf_cons [DecidableEq α] (d : Nat → α) (k : Nat) (v : α) (r : Tab α) :
    Tab.wf d ((k, v) :: r) = true ↔ v ≠ d k ∧ (∀ p ∈ r.head?, k < p.1) ∧ Tab.wf d r = true := by
  cases r with
  | nil => simp [Tab.wf]
  | cons p r => obtain ⟨j, w⟩ := p; simp [Tab.wf]; tauto

theorem Tab.wf_lower [DecidableEq α] {d : Nat → α} {k : Nat} {v : α} {r : Tab α} (h : Tab.wf d ((k, v) :: r) = true) :
    ∀ p ∈ r, k < p.1 := by
  induction r generalizing k v with
  | nil => simp
  | cons q r ih =>
    obtain ⟨j, w⟩ := q
    rw [Tab.wf_cons] at h
    have hj : k < j := by simpa using h.2.1 (j, w) (by simp)
    intro p hp
    rcases List.mem_cons.1 hp with rfl | hp
    · exact hj
    · exact lt_trans hj (ih h.2.2 p hp)

theorem Tab.mem_erase {t : Tab α} {k : Nat} {p : Nat × α} (h : p ∈ Tab.erase t k) : p ∈ t := by
  induction t with
  | nil => exact absurd h (by simp [Tab.erase])
  | cons q r ih =>
    obtain ⟨j, v⟩ := q
    by_cases hj : j = k
    · simp only [Tab.erase, hj, if_true] at h; exact List.mem_cons_of_mem _ (ih h)
    · simp only [Tab.erase, hj, if_false, List.mem_cons] at h ⊢
      exact h.imp id ih

theorem Tab.wf_erase [DecidableEq α] {d : Nat → α} {t : Tab α} (k : Nat) (h : Tab.wf d t = true) :
    Tab.wf d (Tab.erase t k) = true := by
  induction t with
  | nil => exact h
  | cons q r ih =>
    obtain ⟨j, v⟩ := q
    have hc := (Tab.wf_cons d j v r).1 h
    by_cases hj : j = k
    · simpa [Tab.erase, hj] using ih hc.2.2
    · simp only [Tab.erase, hj, if_false]
      refine (Tab.wf_cons d j v _).2 ⟨hc.1, fun p hp => ?_, ih hc.2.2⟩
      exact Tab.wf_lower h p (Tab.mem_erase (List.mem_of_mem_head? hp))

theorem Tab.head_insert {t : Tab α} {k : Nat} {v : α} {p : Nat × α} (h : p ∈ (Tab.insert t k v).head?) :
    p.1 = k ∨ p ∈ t.head? := by
  cases t with
  | nil => simp [Tab.insert] at h; exact .inl (by simp [← h])
  | cons q r =>
    obtain ⟨j, w⟩ := q
    simp only [Tab.insert] at h
    split at h
    · simp at h; exact .inl (by simp [← h])
    · split at h
      · simp at h; exact .inl (by simp [← h])
      · simp at h; exact .inr (by simp [← h])

theorem Tab.wf_insert [DecidableEq α] {d : Nat → α} {t : Tab α} (k : Nat) (v : α) (hv : v ≠ d k)
    (h : Tab.wf d t = true) : Tab.wf d (Tab.insert t k v) = true := by
  induction t with
  | nil => simpa [Tab.insert, Tab.wf] using hv
  | cons q r ih =>
    obtain ⟨j, w⟩ := q
    have hc := (Tab.wf_cons d j w r).1 h
    simp only [Tab.insert]
    split
    · next hk => exact (Tab.wf_cons d k v _).2 ⟨hv, by simpa using hk, h⟩
    · split
      · next hk => subst hk; exact (Tab.wf_cons d _ v _).2 ⟨hv, hc.2.1, hc.2.2⟩
      · refine (Tab.wf_cons d j w _).2 ⟨hc.1, fun p hp => ?_, ih hc.2.2⟩
        rcases Tab.head_insert hp with hp | hp
        · omega
        · exact hc.2.1 p hp

/-- A write keeps the canonical form. -/
theorem Tab.wf_set [DecidableEq α] {d : Nat → α} {t : Tab α} (k : Nat) (v : α) (h : Tab.wf d t = true) :
    Tab.wf d (Tab.set (d k) t k v) = true := by
  unfold Tab.set
  split
  · exact Tab.wf_erase k h
  · exact Tab.wf_insert k v ‹_› h

/-- Dropping entries keeps the canonical form. -/
theorem Tab.wf_filter [DecidableEq α] {d : Nat → α} {t : Tab α} (p : Nat × α → Bool) (h : Tab.wf d t = true) :
    Tab.wf d (List.filter p t) = true := by
  induction t with
  | nil => exact h
  | cons q r ih =>
    obtain ⟨j, v⟩ := q
    have hc := (Tab.wf_cons d j v r).1 h
    rw [List.filter_cons]
    split
    · refine (Tab.wf_cons d j v _).2 ⟨hc.1, fun x hx => ?_, ih hc.2.2⟩
      exact Tab.wf_lower h x (List.mem_filter.1 (List.mem_of_mem_head? hx)).1
    · exact ih hc.2.2

end Sys2Proof.Machine
end

