-- ==== Sys2Proof/Laws/State.lean ====
section
/-!
SUPPORT. One lemma for every field of the device under every named update of it, so that no proof unfolds a record
update; and what a register, a window record and an element's working state read as after an update.
-/
namespace Sys2Proof.Machine

variable (d : Dev)

/-! ### Registers -/

theorem Reg.ctorIdx_inj {r q : Reg} (h : r.ctorIdx = q.ctorIdx) : r = q := by
  rw [← Reg.ofNat_ctorIdx r, h, Reg.ofNat_ctorIdx]

theorem Reg.ctorIdx_lt (r : Reg) : r.ctorIdx < 1024 := by cases r <;> decide

theorem regKey_inj {r q : Reg} {i j : Nat} (h : regKey r i = regKey q j) : r = q ∧ i = j := by
  have hr := Reg.ctorIdx_lt r
  have hq := Reg.ctorIdx_lt q
  unfold regKey at h
  exact ⟨Reg.ctorIdx_inj (by omega), by omega⟩

theorem Reg.modulus_pos (r : Reg) : 0 < r.modulus := by
  unfold Reg.modulus
  split
  · decide
  · exact Nat.pow_pos (by decide)

/-- What a register reads as after a write of any register. -/
theorem Dev.rd_wr (r q : Reg) (i j v : Nat) :
    (d.wr r i v).rd q j = if q = r ∧ j = i then v % r.modulus else d.rd q j := by
  split
  · next h => obtain ⟨rfl, rfl⟩ := h; simp [Dev.rd, Dev.wr]
  · next h => exact Tab.get_set_ne _ _ _ _ fun e => h (regKey_inj e)

@[simp] theorem Dev.rd_wr_same (r : Reg) (i v : Nat) : (d.wr r i v).rd r i = v % r.modulus := by simp [Dev.rd_wr]

theorem Dev.rd_wr_other {r q : Reg} (i j v : Nat) (h : q ≠ r) : (d.wr r i v).rd q j = d.rd q j := by
  simp [Dev.rd_wr, h]

theorem Dev.rd_wr_elsewhere {r : Reg} {i j : Nat} (v : Nat) (h : j ≠ i) : (d.wr r i v).rd r j = d.rd r j := by
  simp [Dev.rd_wr, h]

theorem Dev.add_eq (r : Reg) (i k : Nat) : d.add r i k = d.wr r i (d.rd r i + k) := rfl
theorem Dev.bump_eq (r : Reg) (i : Nat) : d.bump r i = d.wr r i (d.rd r i + 1) := rfl
theorem Dev.wrS_eq (r : Reg) (i : Nat) (v : Int) : d.wrS r i v = d.wr r i (ofSigned 32 v) := rfl

theorem Dev.rd_bump (r q : Reg) (i j : Nat) :
    (d.bump r i).rd q j = if q = r ∧ j = i then (d.rd r i + 1) % r.modulus else d.rd q j := d.rd_wr r q i j _

theorem Dev.rd_add (r q : Reg) (i j k : Nat) :
    (d.add r i k).rd q j = if q = r ∧ j = i then (d.rd r i + k) % r.modulus else d.rd q j := d.rd_wr r q i j _

/-! ### Windows -/

theorem winKey_inj {w r x q : Nat} (hw : w < 65536) (hx : x < 65536) (h : winKey w r = winKey x q) : w = x ∧ r = q := by
  unfold winKey at h
  omega

/-- What a window record reads as after a write of any record. -/
theorem Dev.win_setWin {w x : Nat} (r q v : Nat) (hw : w < 65536) (hx : x < 65536) :
    (d.setWin w r v).win x q = if x = w ∧ q = r then v else d.win x q := by
  split
  · next h => obtain ⟨rfl, rfl⟩ := h; simp [Dev.win, Dev.setWin]
  · next h => exact Tab.get_set_ne _ _ _ _ fun e => h (winKey_inj hx hw e)

/-! ### Working state of elements -/

theorem Dev.tree_modTree (t x : Nat) (f : Tree → Tree) :
    (d.modTree t f).tree x = if x = t then f (d.tree t) else d.tree x := by
  split
  · next h => subst h; simp [Dev.tree, Dev.modTree]
  · next h => exact Tab.get_set_ne _ _ _ _ h

theorem Dev.term_modTerm (g x : Nat) (f : Term → Term) :
    (d.modTerm g f).term x = if x = g then f (d.term g) else d.term x := by
  split
  · next h => subst h; simp [Dev.term, Dev.modTerm]
  · next h => exact Tab.get_set_ne _ _ _ _ h

theorem Dev.alloc_modAlloc (a x : Nat) (f : Alloc → Alloc) :
    (d.modAlloc a f).alloc x = if x = a then f (d.alloc a) else d.alloc x := by
  split
  · next h => subst h; simp [Dev.alloc, Dev.modAlloc]
  · next h => exact Tab.get_set_ne _ _ _ _ h

theorem Dev.slot_modSlot (k x : Nat) (f : Slot → Slot) :
    (d.modSlot k f).slot x = if x = k then f (d.slot k) else d.slot x := by
  split
  · next h => subst h; simp [Dev.slot, Dev.modSlot]
  · next h => exact Tab.get_set_ne _ _ _ _ h

theorem Dev.bank_modBank (q x : Nat) (f : Bank → Bank) :
    (d.modBank q f).bank x = if x = q then f (d.bank q) else d.bank x := by
  split
  · next h => subst h; simp [Dev.bank, Dev.modBank]
  · next h => exact Tab.get_set_ne _ _ _ _ h

theorem Dev.quad_modQuad (q x : Nat) (f : Quad → Quad) :
    (d.modQuad q f).quad x = if x = q then f (d.quad q) else d.quad x := by
  split
  · next h => subst h; simp [Dev.quad, Dev.modQuad]
  · next h => exact Tab.get_set_ne _ _ _ _ h

theorem Dev.port_modPort (p x : Nat) (f : Port → Port) :
    (d.modPort p f).port x = if x = p then f (d.port p) else d.port x := by
  split
  · next h => subst h; simp [Dev.port, Dev.modPort]
  · next h => exact Tab.get_set_ne _ _ _ _ h

theorem Dev.lane_modLane (l x : Nat) (f : Lane → Lane) :
    (d.modLane l f).lane x = if x = l then f (d.lane l) else d.lane x := by
  split
  · next h => subst h; simp [Dev.lane, Dev.modLane]
  · next h => exact Tab.get_set_ne _ _ _ _ h

theorem Dev.source_modSource (k x : Nat) (f : Source → Source) :
    (d.modSource k f).source x = if x = k then f (d.source k) else d.source x := by
  split
  · next h => subst h; simp [Dev.source, Dev.modSource]
  · next h => exact Tab.get_set_ne _ _ _ _ h

/-! ### Fields under `wr` -/

@[simp] theorem Dev.wr_wins (r : Reg) (i v : Nat) : (d.wr r i v).wins = d.wins := rfl
@[simp] theorem Dev.wr_active (r : Reg) (i v : Nat) : (d.wr r i v).active = d.active := rfl
@[simp] theorem Dev.wr_staging (r : Reg) (i v : Nat) : (d.wr r i v).staging = d.staging := rfl
@[simp] theorem Dev.wr_older (r : Reg) (i v : Nat) : (d.wr r i v).older = d.older := rfl
@[simp] theorem Dev.wr_trees (r : Reg) (i v : Nat) : (d.wr r i v).trees = d.trees := rfl
@[simp] theorem Dev.wr_terms (r : Reg) (i v : Nat) : (d.wr r i v).terms = d.terms := rfl
@[simp] theorem Dev.wr_allocs (r : Reg) (i v : Nat) : (d.wr r i v).allocs = d.allocs := rfl
@[simp] theorem Dev.wr_osps (r : Reg) (i v : Nat) : (d.wr r i v).osps = d.osps := rfl
@[simp] theorem Dev.wr_slots (r : Reg) (i v : Nat) : (d.wr r i v).slots = d.slots := rfl
@[simp] theorem Dev.wr_banks (r : Reg) (i v : Nat) : (d.wr r i v).banks = d.banks := rfl
@[simp] theorem Dev.wr_quads (r : Reg) (i v : Nat) : (d.wr r i v).quads = d.quads := rfl
@[simp] theorem Dev.wr_frags (r : Reg) (i v : Nat) : (d.wr r i v).frags = d.frags := rfl
@[simp] theorem Dev.wr_addr (r : Reg) (i v : Nat) : (d.wr r i v).addr = d.addr := rfl
@[simp] theorem Dev.wr_swept (r : Reg) (i v : Nat) : (d.wr r i v).swept = d.swept := rfl
@[simp] theorem Dev.wr_buf (r : Reg) (i v : Nat) : (d.wr r i v).buf = d.buf := rfl
@[simp] theorem Dev.wr_treeWaiting (r : Reg) (i v : Nat) : (d.wr r i v).treeWaiting = d.treeWaiting := rfl
@[simp] theorem Dev.wr_sched (r : Reg) (i v : Nat) : (d.wr r i v).sched = d.sched := rfl
@[simp] theorem Dev.wr_ports (r : Reg) (i v : Nat) : (d.wr r i v).ports = d.ports := rfl
@[simp] theorem Dev.wr_lanes (r : Reg) (i v : Nat) : (d.wr r i v).lanes = d.lanes := rfl
@[simp] theorem Dev.wr_gnomon (r : Reg) (i v : Nat) : (d.wr r i v).gnomon = d.gnomon := rfl
@[simp] theorem Dev.wr_mate (r : Reg) (i v : Nat) : (d.wr r i v).mate = d.mate := rfl
@[simp] theorem Dev.wr_faults (r : Reg) (i v : Nat) : (d.wr r i v).faults = d.faults := rfl
@[simp] theorem Dev.wr_mgmt (r : Reg) (i v : Nat) : (d.wr r i v).mgmt = d.mgmt := rfl
@[simp] theorem Dev.wr_snap (r : Reg) (i v : Nat) : (d.wr r i v).snap = d.snap := rfl
@[simp] theorem Dev.wr_sampler (r : Reg) (i v : Nat) : (d.wr r i v).sampler = d.sampler := rfl
@[simp] theorem Dev.wr_chip (r : Reg) (i v : Nat) : (d.wr r i v).chip = d.chip := rfl
@[simp] theorem Dev.wr_pmEnds (r : Reg) (i v : Nat) : (d.wr r i v).pmEnds = d.pmEnds := rfl
@[simp] theorem Dev.wr_pmSecond (r : Reg) (i v : Nat) : (d.wr r i v).pmSecond = d.pmSecond := rfl
@[simp] theorem Dev.wr_wire (r : Reg) (i v : Nat) : (d.wr r i v).wire = d.wire := rfl
@[simp] theorem Dev.wr_free (r : Reg) (i v : Nat) : (d.wr r i v).free = d.free := rfl
@[simp] theorem Dev.wr_win (r : Reg) (i v : Nat) (x j : Nat) : (d.wr r i v).win x j = d.win x j := rfl
@[simp] theorem Dev.wr_severity (r : Reg) (i v : Nat) (x : Nat) : (d.wr r i v).severity x = d.severity x := rfl
@[simp] theorem Dev.wr_disabled (r : Reg) (i v : Nat) (x : Nat) : (d.wr r i v).disabled x = d.disabled x := rfl
@[simp] theorem Dev.wr_tree (r : Reg) (i v : Nat) (x : Nat) : (d.wr r i v).tree x = d.tree x := rfl
@[simp] theorem Dev.wr_term (r : Reg) (i v : Nat) (x : Nat) : (d.wr r i v).term x = d.term x := rfl
@[simp] theorem Dev.wr_alloc (r : Reg) (i v : Nat) (x : Nat) : (d.wr r i v).alloc x = d.alloc x := rfl
@[simp] theorem Dev.wr_slot (r : Reg) (i v : Nat) (x : Nat) : (d.wr r i v).slot x = d.slot x := rfl
@[simp] theorem Dev.wr_bank (r : Reg) (i v : Nat) (x : Nat) : (d.wr r i v).bank x = d.bank x := rfl
@[simp] theorem Dev.wr_quad (r : Reg) (i v : Nat) (x : Nat) : (d.wr r i v).quad x = d.quad x := rfl
@[simp] theorem Dev.wr_port (r : Reg) (i v : Nat) (x : Nat) : (d.wr r i v).port x = d.port x := rfl
@[simp] theorem Dev.wr_lane (r : Reg) (i v : Nat) (x : Nat) : (d.wr r i v).lane x = d.lane x := rfl
@[simp] theorem Dev.wr_source (r : Reg) (i v : Nat) (x : Nat) : (d.wr r i v).source x = d.source x := rfl

/-! ### Fields under `setWin` -/

@[simp] theorem Dev.setWin_regs (w r v : Nat) : (d.setWin w r v).regs = d.regs := rfl
@[simp] theorem Dev.setWin_active (w r v : Nat) : (d.setWin w r v).active = d.active := rfl
@[simp] theorem Dev.setWin_staging (w r v : Nat) : (d.setWin w r v).staging = d.staging := rfl
@[simp] theorem Dev.setWin_older (w r v : Nat) : (d.setWin w r v).older = d.older := rfl
@[simp] theorem Dev.setWin_trees (w r v : Nat) : (d.setWin w r v).trees = d.trees := rfl
@[simp] theorem Dev.setWin_terms (w r v : Nat) : (d.setWin w r v).terms = d.terms := rfl
@[simp] theorem Dev.setWin_allocs (w r v : Nat) : (d.setWin w r v).allocs = d.allocs := rfl
@[simp] theorem Dev.setWin_osps (w r v : Nat) : (d.setWin w r v).osps = d.osps := rfl
@[simp] theorem Dev.setWin_slots (w r v : Nat) : (d.setWin w r v).slots = d.slots := rfl
@[simp] theorem Dev.setWin_banks (w r v : Nat) : (d.setWin w r v).banks = d.banks := rfl
@[simp] theorem Dev.setWin_quads (w r v : Nat) : (d.setWin w r v).quads = d.quads := rfl
@[simp] theorem Dev.setWin_frags (w r v : Nat) : (d.setWin w r v).frags = d.frags := rfl
@[simp] theorem Dev.setWin_addr (w r v : Nat) : (d.setWin w r v).addr = d.addr := rfl
@[simp] theorem Dev.setWin_swept (w r v : Nat) : (d.setWin w r v).swept = d.swept := rfl
@[simp] theorem Dev.setWin_buf (w r v : Nat) : (d.setWin w r v).buf = d.buf := rfl
@[simp] theorem Dev.setWin_treeWaiting (w r v : Nat) : (d.setWin w r v).treeWaiting = d.treeWaiting := rfl
@[simp] theorem Dev.setWin_sched (w r v : Nat) : (d.setWin w r v).sched = d.sched := rfl
@[simp] theorem Dev.setWin_ports (w r v : Nat) : (d.setWin w r v).ports = d.ports := rfl
@[simp] theorem Dev.setWin_lanes (w r v : Nat) : (d.setWin w r v).lanes = d.lanes := rfl
@[simp] theorem Dev.setWin_gnomon (w r v : Nat) : (d.setWin w r v).gnomon = d.gnomon := rfl
@[simp] theorem Dev.setWin_mate (w r v : Nat) : (d.setWin w r v).mate = d.mate := rfl
@[simp] theorem Dev.setWin_faults (w r v : Nat) : (d.setWin w r v).faults = d.faults := rfl
@[simp] theorem Dev.setWin_mgmt (w r v : Nat) : (d.setWin w r v).mgmt = d.mgmt := rfl
@[simp] theorem Dev.setWin_snap (w r v : Nat) : (d.setWin w r v).snap = d.snap := rfl
@[simp] theorem Dev.setWin_sampler (w r v : Nat) : (d.setWin w r v).sampler = d.sampler := rfl
@[simp] theorem Dev.setWin_chip (w r v : Nat) : (d.setWin w r v).chip = d.chip := rfl
@[simp] theorem Dev.setWin_pmEnds (w r v : Nat) : (d.setWin w r v).pmEnds = d.pmEnds := rfl
@[simp] theorem Dev.setWin_pmSecond (w r v : Nat) : (d.setWin w r v).pmSecond = d.pmSecond := rfl
@[simp] theorem Dev.setWin_wire (w r v : Nat) : (d.setWin w r v).wire = d.wire := rfl
@[simp] theorem Dev.setWin_free (w r v : Nat) : (d.setWin w r v).free = d.free := rfl
@[simp] theorem Dev.setWin_rd (w r v : Nat) (reg : Reg) (j : Nat) : (d.setWin w r v).rd reg j = d.rd reg j := rfl
@[simp] theorem Dev.setWin_on (w r v : Nat) (reg : Reg) (j : Nat) : (d.setWin w r v).on reg j = d.on reg j := rfl
@[simp] theorem Dev.setWin_tree (w r v : Nat) (x : Nat) : (d.setWin w r v).tree x = d.tree x := rfl
@[simp] theorem Dev.setWin_term (w r v : Nat) (x : Nat) : (d.setWin w r v).term x = d.term x := rfl
@[simp] theorem Dev.setWin_alloc (w r v : Nat) (x : Nat) : (d.setWin w r v).alloc x = d.alloc x := rfl
@[simp] theorem Dev.setWin_slot (w r v : Nat) (x : Nat) : (d.setWin w r v).slot x = d.slot x := rfl
@[simp] theorem Dev.setWin_bank (w r v : Nat) (x : Nat) : (d.setWin w r v).bank x = d.bank x := rfl
@[simp] theorem Dev.setWin_quad (w r v : Nat) (x : Nat) : (d.setWin w r v).quad x = d.quad x := rfl
@[simp] theorem Dev.setWin_port (w r v : Nat) (x : Nat) : (d.setWin w r v).port x = d.port x := rfl
@[simp] theorem Dev.setWin_lane (w r v : Nat) (x : Nat) : (d.setWin w r v).lane x = d.lane x := rfl
@[simp] theorem Dev.setWin_source (w r v : Nat) (x : Nat) : (d.setWin w r v).source x = d.source x := rfl

/-! ### Fields under `modTree` -/

@[simp] theorem Dev.modTree_regs (t : Nat) (f : Tree → Tree) : (d.modTree t f).regs = d.regs := rfl
@[simp] theorem Dev.modTree_wins (t : Nat) (f : Tree → Tree) : (d.modTree t f).wins = d.wins := rfl
@[simp] theorem Dev.modTree_active (t : Nat) (f : Tree → Tree) : (d.modTree t f).active = d.active := rfl
@[simp] theorem Dev.modTree_staging (t : Nat) (f : Tree → Tree) : (d.modTree t f).staging = d.staging := rfl
@[simp] theorem Dev.modTree_older (t : Nat) (f : Tree → Tree) : (d.modTree t f).older = d.older := rfl
@[simp] theorem Dev.modTree_terms (t : Nat) (f : Tree → Tree) : (d.modTree t f).terms = d.terms := rfl
@[simp] theorem Dev.modTree_allocs (t : Nat) (f : Tree → Tree) : (d.modTree t f).allocs = d.allocs := rfl
@[simp] theorem Dev.modTree_osps (t : Nat) (f : Tree → Tree) : (d.modTree t f).osps = d.osps := rfl
@[simp] theorem Dev.modTree_slots (t : Nat) (f : Tree → Tree) : (d.modTree t f).slots = d.slots := rfl
@[simp] theorem Dev.modTree_banks (t : Nat) (f : Tree → Tree) : (d.modTree t f).banks = d.banks := rfl
@[simp] theorem Dev.modTree_quads (t : Nat) (f : Tree → Tree) : (d.modTree t f).quads = d.quads := rfl
@[simp] theorem Dev.modTree_frags (t : Nat) (f : Tree → Tree) : (d.modTree t f).frags = d.frags := rfl
@[simp] theorem Dev.modTree_addr (t : Nat) (f : Tree → Tree) : (d.modTree t f).addr = d.addr := rfl
@[simp] theorem Dev.modTree_swept (t : Nat) (f : Tree → Tree) : (d.modTree t f).swept = d.swept := rfl
@[simp] theorem Dev.modTree_buf (t : Nat) (f : Tree → Tree) : (d.modTree t f).buf = d.buf := rfl
@[simp] theorem Dev.modTree_treeWaiting (t : Nat) (f : Tree → Tree) : (d.modTree t f).treeWaiting = d.treeWaiting := rfl
@[simp] theorem Dev.modTree_sched (t : Nat) (f : Tree → Tree) : (d.modTree t f).sched = d.sched := rfl
@[simp] theorem Dev.modTree_ports (t : Nat) (f : Tree → Tree) : (d.modTree t f).ports = d.ports := rfl
@[simp] theorem Dev.modTree_lanes (t : Nat) (f : Tree → Tree) : (d.modTree t f).lanes = d.lanes := rfl
@[simp] theorem Dev.modTree_gnomon (t : Nat) (f : Tree → Tree) : (d.modTree t f).gnomon = d.gnomon := rfl
@[simp] theorem Dev.modTree_mate (t : Nat) (f : Tree → Tree) : (d.modTree t f).mate = d.mate := rfl
@[simp] theorem Dev.modTree_faults (t : Nat) (f : Tree → Tree) : (d.modTree t f).faults = d.faults := rfl
@[simp] theorem Dev.modTree_mgmt (t : Nat) (f : Tree → Tree) : (d.modTree t f).mgmt = d.mgmt := rfl
@[simp] theorem Dev.modTree_snap (t : Nat) (f : Tree → Tree) : (d.modTree t f).snap = d.snap := rfl
@[simp] theorem Dev.modTree_sampler (t : Nat) (f : Tree → Tree) : (d.modTree t f).sampler = d.sampler := rfl
@[simp] theorem Dev.modTree_chip (t : Nat) (f : Tree → Tree) : (d.modTree t f).chip = d.chip := rfl
@[simp] theorem Dev.modTree_pmEnds (t : Nat) (f : Tree → Tree) : (d.modTree t f).pmEnds = d.pmEnds := rfl
@[simp] theorem Dev.modTree_pmSecond (t : Nat) (f : Tree → Tree) : (d.modTree t f).pmSecond = d.pmSecond := rfl
@[simp] theorem Dev.modTree_wire (t : Nat) (f : Tree → Tree) : (d.modTree t f).wire = d.wire := rfl
@[simp] theorem Dev.modTree_free (t : Nat) (f : Tree → Tree) : (d.modTree t f).free = d.free := rfl
@[simp] theorem Dev.modTree_rd (t : Nat) (f : Tree → Tree) (reg : Reg) (j : Nat) : (d.modTree t f).rd reg j = d.rd reg j := rfl
@[simp] theorem Dev.modTree_on (t : Nat) (f : Tree → Tree) (reg : Reg) (j : Nat) : (d.modTree t f).on reg j = d.on reg j := rfl
@[simp] theorem Dev.modTree_win (t : Nat) (f : Tree → Tree) (x j : Nat) : (d.modTree t f).win x j = d.win x j := rfl
@[simp] theorem Dev.modTree_severity (t : Nat) (f : Tree → Tree) (x : Nat) : (d.modTree t f).severity x = d.severity x := rfl
@[simp] theorem Dev.modTree_disabled (t : Nat) (f : Tree → Tree) (x : Nat) : (d.modTree t f).disabled x = d.disabled x := rfl
@[simp] theorem Dev.modTree_term (t : Nat) (f : Tree → Tree) (x : Nat) : (d.modTree t f).term x = d.term x := rfl
@[simp] theorem Dev.modTree_alloc (t : Nat) (f : Tree → Tree) (x : Nat) : (d.modTree t f).alloc x = d.alloc x := rfl
@[simp] theorem Dev.modTree_slot (t : Nat) (f : Tree → Tree) (x : Nat) : (d.modTree t f).slot x = d.slot x := rfl
@[simp] theorem Dev.modTree_bank (t : Nat) (f : Tree → Tree) (x : Nat) : (d.modTree t f).bank x = d.bank x := rfl
@[simp] theorem Dev.modTree_quad (t : Nat) (f : Tree → Tree) (x : Nat) : (d.modTree t f).quad x = d.quad x := rfl
@[simp] theorem Dev.modTree_port (t : Nat) (f : Tree → Tree) (x : Nat) : (d.modTree t f).port x = d.port x := rfl
@[simp] theorem Dev.modTree_lane (t : Nat) (f : Tree → Tree) (x : Nat) : (d.modTree t f).lane x = d.lane x := rfl
@[simp] theorem Dev.modTree_source (t : Nat) (f : Tree → Tree) (x : Nat) : (d.modTree t f).source x = d.source x := rfl

/-! ### Fields under `modTerm` -/

@[simp] theorem Dev.modTerm_regs (g : Nat) (f : Term → Term) : (d.modTerm g f).regs = d.regs := rfl
@[simp] theorem Dev.modTerm_wins (g : Nat) (f : Term → Term) : (d.modTerm g f).wins = d.wins := rfl
@[simp] theorem Dev.modTerm_active (g : Nat) (f : Term → Term) : (d.modTerm g f).active = d.active := rfl
@[simp] theorem Dev.modTerm_staging (g : Nat) (f : Term → Term) : (d.modTerm g f).staging = d.staging := rfl
@[simp] theorem Dev.modTerm_older (g : Nat) (f : Term → Term) : (d.modTerm g f).older = d.older := rfl
@[simp] theorem Dev.modTerm_trees (g : Nat) (f : Term → Term) : (d.modTerm g f).trees = d.trees := rfl
@[simp] theorem Dev.modTerm_allocs (g : Nat) (f : Term → Term) : (d.modTerm g f).allocs = d.allocs := rfl
@[simp] theorem Dev.modTerm_osps (g : Nat) (f : Term → Term) : (d.modTerm g f).osps = d.osps := rfl
@[simp] theorem Dev.modTerm_slots (g : Nat) (f : Term → Term) : (d.modTerm g f).slots = d.slots := rfl
@[simp] theorem Dev.modTerm_banks (g : Nat) (f : Term → Term) : (d.modTerm g f).banks = d.banks := rfl
@[simp] theorem Dev.modTerm_quads (g : Nat) (f : Term → Term) : (d.modTerm g f).quads = d.quads := rfl
@[simp] theorem Dev.modTerm_frags (g : Nat) (f : Term → Term) : (d.modTerm g f).frags = d.frags := rfl
@[simp] theorem Dev.modTerm_addr (g : Nat) (f : Term → Term) : (d.modTerm g f).addr = d.addr := rfl
@[simp] theorem Dev.modTerm_swept (g : Nat) (f : Term → Term) : (d.modTerm g f).swept = d.swept := rfl
@[simp] theorem Dev.modTerm_buf (g : Nat) (f : Term → Term) : (d.modTerm g f).buf = d.buf := rfl
@[simp] theorem Dev.modTerm_treeWaiting (g : Nat) (f : Term → Term) : (d.modTerm g f).treeWaiting = d.treeWaiting := rfl
@[simp] theorem Dev.modTerm_sched (g : Nat) (f : Term → Term) : (d.modTerm g f).sched = d.sched := rfl
@[simp] theorem Dev.modTerm_ports (g : Nat) (f : Term → Term) : (d.modTerm g f).ports = d.ports := rfl
@[simp] theorem Dev.modTerm_lanes (g : Nat) (f : Term → Term) : (d.modTerm g f).lanes = d.lanes := rfl
@[simp] theorem Dev.modTerm_gnomon (g : Nat) (f : Term → Term) : (d.modTerm g f).gnomon = d.gnomon := rfl
@[simp] theorem Dev.modTerm_mate (g : Nat) (f : Term → Term) : (d.modTerm g f).mate = d.mate := rfl
@[simp] theorem Dev.modTerm_faults (g : Nat) (f : Term → Term) : (d.modTerm g f).faults = d.faults := rfl
@[simp] theorem Dev.modTerm_mgmt (g : Nat) (f : Term → Term) : (d.modTerm g f).mgmt = d.mgmt := rfl
@[simp] theorem Dev.modTerm_snap (g : Nat) (f : Term → Term) : (d.modTerm g f).snap = d.snap := rfl
@[simp] theorem Dev.modTerm_sampler (g : Nat) (f : Term → Term) : (d.modTerm g f).sampler = d.sampler := rfl
@[simp] theorem Dev.modTerm_chip (g : Nat) (f : Term → Term) : (d.modTerm g f).chip = d.chip := rfl
@[simp] theorem Dev.modTerm_pmEnds (g : Nat) (f : Term → Term) : (d.modTerm g f).pmEnds = d.pmEnds := rfl
@[simp] theorem Dev.modTerm_pmSecond (g : Nat) (f : Term → Term) : (d.modTerm g f).pmSecond = d.pmSecond := rfl
@[simp] theorem Dev.modTerm_wire (g : Nat) (f : Term → Term) : (d.modTerm g f).wire = d.wire := rfl
@[simp] theorem Dev.modTerm_free (g : Nat) (f : Term → Term) : (d.modTerm g f).free = d.free := rfl
@[simp] theorem Dev.modTerm_rd (g : Nat) (f : Term → Term) (reg : Reg) (j : Nat) : (d.modTerm g f).rd reg j = d.rd reg j := rfl
@[simp] theorem Dev.modTerm_on (g : Nat) (f : Term → Term) (reg : Reg) (j : Nat) : (d.modTerm g f).on reg j = d.on reg j := rfl
@[simp] theorem Dev.modTerm_win (g : Nat) (f : Term → Term) (x j : Nat) : (d.modTerm g f).win x j = d.win x j := rfl
@[simp] theorem Dev.modTerm_severity (g : Nat) (f : Term → Term) (x : Nat) : (d.modTerm g f).severity x = d.severity x := rfl
@[simp] theorem Dev.modTerm_disabled (g : Nat) (f : Term → Term) (x : Nat) : (d.modTerm g f).disabled x = d.disabled x := rfl
@[simp] theorem Dev.modTerm_tree (g : Nat) (f : Term → Term) (x : Nat) : (d.modTerm g f).tree x = d.tree x := rfl
@[simp] theorem Dev.modTerm_alloc (g : Nat) (f : Term → Term) (x : Nat) : (d.modTerm g f).alloc x = d.alloc x := rfl
@[simp] theorem Dev.modTerm_slot (g : Nat) (f : Term → Term) (x : Nat) : (d.modTerm g f).slot x = d.slot x := rfl
@[simp] theorem Dev.modTerm_bank (g : Nat) (f : Term → Term) (x : Nat) : (d.modTerm g f).bank x = d.bank x := rfl
@[simp] theorem Dev.modTerm_quad (g : Nat) (f : Term → Term) (x : Nat) : (d.modTerm g f).quad x = d.quad x := rfl
@[simp] theorem Dev.modTerm_port (g : Nat) (f : Term → Term) (x : Nat) : (d.modTerm g f).port x = d.port x := rfl
@[simp] theorem Dev.modTerm_lane (g : Nat) (f : Term → Term) (x : Nat) : (d.modTerm g f).lane x = d.lane x := rfl
@[simp] theorem Dev.modTerm_source (g : Nat) (f : Term → Term) (x : Nat) : (d.modTerm g f).source x = d.source x := rfl

/-! ### Fields under `modAlloc` -/

@[simp] theorem Dev.modAlloc_regs (a : Nat) (f : Alloc → Alloc) : (d.modAlloc a f).regs = d.regs := rfl
@[simp] theorem Dev.modAlloc_wins (a : Nat) (f : Alloc → Alloc) : (d.modAlloc a f).wins = d.wins := rfl
@[simp] theorem Dev.modAlloc_active (a : Nat) (f : Alloc → Alloc) : (d.modAlloc a f).active = d.active := rfl
@[simp] theorem Dev.modAlloc_staging (a : Nat) (f : Alloc → Alloc) : (d.modAlloc a f).staging = d.staging := rfl
@[simp] theorem Dev.modAlloc_older (a : Nat) (f : Alloc → Alloc) : (d.modAlloc a f).older = d.older := rfl
@[simp] theorem Dev.modAlloc_trees (a : Nat) (f : Alloc → Alloc) : (d.modAlloc a f).trees = d.trees := rfl
@[simp] theorem Dev.modAlloc_terms (a : Nat) (f : Alloc → Alloc) : (d.modAlloc a f).terms = d.terms := rfl
@[simp] theorem Dev.modAlloc_osps (a : Nat) (f : Alloc → Alloc) : (d.modAlloc a f).osps = d.osps := rfl
@[simp] theorem Dev.modAlloc_slots (a : Nat) (f : Alloc → Alloc) : (d.modAlloc a f).slots = d.slots := rfl
@[simp] theorem Dev.modAlloc_banks (a : Nat) (f : Alloc → Alloc) : (d.modAlloc a f).banks = d.banks := rfl
@[simp] theorem Dev.modAlloc_quads (a : Nat) (f : Alloc → Alloc) : (d.modAlloc a f).quads = d.quads := rfl
@[simp] theorem Dev.modAlloc_frags (a : Nat) (f : Alloc → Alloc) : (d.modAlloc a f).frags = d.frags := rfl
@[simp] theorem Dev.modAlloc_addr (a : Nat) (f : Alloc → Alloc) : (d.modAlloc a f).addr = d.addr := rfl
@[simp] theorem Dev.modAlloc_swept (a : Nat) (f : Alloc → Alloc) : (d.modAlloc a f).swept = d.swept := rfl
@[simp] theorem Dev.modAlloc_buf (a : Nat) (f : Alloc → Alloc) : (d.modAlloc a f).buf = d.buf := rfl
@[simp] theorem Dev.modAlloc_treeWaiting (a : Nat) (f : Alloc → Alloc) : (d.modAlloc a f).treeWaiting = d.treeWaiting := rfl
@[simp] theorem Dev.modAlloc_sched (a : Nat) (f : Alloc → Alloc) : (d.modAlloc a f).sched = d.sched := rfl
@[simp] theorem Dev.modAlloc_ports (a : Nat) (f : Alloc → Alloc) : (d.modAlloc a f).ports = d.ports := rfl
@[simp] theorem Dev.modAlloc_lanes (a : Nat) (f : Alloc → Alloc) : (d.modAlloc a f).lanes = d.lanes := rfl
@[simp] theorem Dev.modAlloc_gnomon (a : Nat) (f : Alloc → Alloc) : (d.modAlloc a f).gnomon = d.gnomon := rfl
@[simp] theorem Dev.modAlloc_mate (a : Nat) (f : Alloc → Alloc) : (d.modAlloc a f).mate = d.mate := rfl
@[simp] theorem Dev.modAlloc_faults (a : Nat) (f : Alloc → Alloc) : (d.modAlloc a f).faults = d.faults := rfl
@[simp] theorem Dev.modAlloc_mgmt (a : Nat) (f : Alloc → Alloc) : (d.modAlloc a f).mgmt = d.mgmt := rfl
@[simp] theorem Dev.modAlloc_snap (a : Nat) (f : Alloc → Alloc) : (d.modAlloc a f).snap = d.snap := rfl
@[simp] theorem Dev.modAlloc_sampler (a : Nat) (f : Alloc → Alloc) : (d.modAlloc a f).sampler = d.sampler := rfl
@[simp] theorem Dev.modAlloc_chip (a : Nat) (f : Alloc → Alloc) : (d.modAlloc a f).chip = d.chip := rfl
@[simp] theorem Dev.modAlloc_pmEnds (a : Nat) (f : Alloc → Alloc) : (d.modAlloc a f).pmEnds = d.pmEnds := rfl
@[simp] theorem Dev.modAlloc_pmSecond (a : Nat) (f : Alloc → Alloc) : (d.modAlloc a f).pmSecond = d.pmSecond := rfl
@[simp] theorem Dev.modAlloc_wire (a : Nat) (f : Alloc → Alloc) : (d.modAlloc a f).wire = d.wire := rfl
@[simp] theorem Dev.modAlloc_free (a : Nat) (f : Alloc → Alloc) : (d.modAlloc a f).free = d.free := rfl
@[simp] theorem Dev.modAlloc_rd (a : Nat) (f : Alloc → Alloc) (reg : Reg) (j : Nat) : (d.modAlloc a f).rd reg j = d.rd reg j := rfl
@[simp] theorem Dev.modAlloc_on (a : Nat) (f : Alloc → Alloc) (reg : Reg) (j : Nat) : (d.modAlloc a f).on reg j = d.on reg j := rfl
@[simp] theorem Dev.modAlloc_win (a : Nat) (f : Alloc → Alloc) (x j : Nat) : (d.modAlloc a f).win x j = d.win x j := rfl
@[simp] theorem Dev.modAlloc_severity (a : Nat) (f : Alloc → Alloc) (x : Nat) : (d.modAlloc a f).severity x = d.severity x := rfl
@[simp] theorem Dev.modAlloc_disabled (a : Nat) (f : Alloc → Alloc) (x : Nat) : (d.modAlloc a f).disabled x = d.disabled x := rfl
@[simp] theorem Dev.modAlloc_tree (a : Nat) (f : Alloc → Alloc) (x : Nat) : (d.modAlloc a f).tree x = d.tree x := rfl
@[simp] theorem Dev.modAlloc_term (a : Nat) (f : Alloc → Alloc) (x : Nat) : (d.modAlloc a f).term x = d.term x := rfl
@[simp] theorem Dev.modAlloc_slot (a : Nat) (f : Alloc → Alloc) (x : Nat) : (d.modAlloc a f).slot x = d.slot x := rfl
@[simp] theorem Dev.modAlloc_bank (a : Nat) (f : Alloc → Alloc) (x : Nat) : (d.modAlloc a f).bank x = d.bank x := rfl
@[simp] theorem Dev.modAlloc_quad (a : Nat) (f : Alloc → Alloc) (x : Nat) : (d.modAlloc a f).quad x = d.quad x := rfl
@[simp] theorem Dev.modAlloc_port (a : Nat) (f : Alloc → Alloc) (x : Nat) : (d.modAlloc a f).port x = d.port x := rfl
@[simp] theorem Dev.modAlloc_lane (a : Nat) (f : Alloc → Alloc) (x : Nat) : (d.modAlloc a f).lane x = d.lane x := rfl
@[simp] theorem Dev.modAlloc_source (a : Nat) (f : Alloc → Alloc) (x : Nat) : (d.modAlloc a f).source x = d.source x := rfl

/-! ### Fields under `modSlot` -/

@[simp] theorem Dev.modSlot_regs (k : Nat) (f : Slot → Slot) : (d.modSlot k f).regs = d.regs := rfl
@[simp] theorem Dev.modSlot_wins (k : Nat) (f : Slot → Slot) : (d.modSlot k f).wins = d.wins := rfl
@[simp] theorem Dev.modSlot_active (k : Nat) (f : Slot → Slot) : (d.modSlot k f).active = d.active := rfl
@[simp] theorem Dev.modSlot_staging (k : Nat) (f : Slot → Slot) : (d.modSlot k f).staging = d.staging := rfl
@[simp] theorem Dev.modSlot_older (k : Nat) (f : Slot → Slot) : (d.modSlot k f).older = d.older := rfl
@[simp] theorem Dev.modSlot_trees (k : Nat) (f : Slot → Slot) : (d.modSlot k f).trees = d.trees := rfl
@[simp] theorem Dev.modSlot_terms (k : Nat) (f : Slot → Slot) : (d.modSlot k f).terms = d.terms := rfl
@[simp] theorem Dev.modSlot_allocs (k : Nat) (f : Slot → Slot) : (d.modSlot k f).allocs = d.allocs := rfl
@[simp] theorem Dev.modSlot_osps (k : Nat) (f : Slot → Slot) : (d.modSlot k f).osps = d.osps := rfl
@[simp] theorem Dev.modSlot_banks (k : Nat) (f : Slot → Slot) : (d.modSlot k f).banks = d.banks := rfl
@[simp] theorem Dev.modSlot_quads (k : Nat) (f : Slot → Slot) : (d.modSlot k f).quads = d.quads := rfl
@[simp] theorem Dev.modSlot_frags (k : Nat) (f : Slot → Slot) : (d.modSlot k f).frags = d.frags := rfl
@[simp] theorem Dev.modSlot_addr (k : Nat) (f : Slot → Slot) : (d.modSlot k f).addr = d.addr := rfl
@[simp] theorem Dev.modSlot_swept (k : Nat) (f : Slot → Slot) : (d.modSlot k f).swept = d.swept := rfl
@[simp] theorem Dev.modSlot_buf (k : Nat) (f : Slot → Slot) : (d.modSlot k f).buf = d.buf := rfl
@[simp] theorem Dev.modSlot_treeWaiting (k : Nat) (f : Slot → Slot) : (d.modSlot k f).treeWaiting = d.treeWaiting := rfl
@[simp] theorem Dev.modSlot_sched (k : Nat) (f : Slot → Slot) : (d.modSlot k f).sched = d.sched := rfl
@[simp] theorem Dev.modSlot_ports (k : Nat) (f : Slot → Slot) : (d.modSlot k f).ports = d.ports := rfl
@[simp] theorem Dev.modSlot_lanes (k : Nat) (f : Slot → Slot) : (d.modSlot k f).lanes = d.lanes := rfl
@[simp] theorem Dev.modSlot_gnomon (k : Nat) (f : Slot → Slot) : (d.modSlot k f).gnomon = d.gnomon := rfl
@[simp] theorem Dev.modSlot_mate (k : Nat) (f : Slot → Slot) : (d.modSlot k f).mate = d.mate := rfl
@[simp] theorem Dev.modSlot_faults (k : Nat) (f : Slot → Slot) : (d.modSlot k f).faults = d.faults := rfl
@[simp] theorem Dev.modSlot_mgmt (k : Nat) (f : Slot → Slot) : (d.modSlot k f).mgmt = d.mgmt := rfl
@[simp] theorem Dev.modSlot_snap (k : Nat) (f : Slot → Slot) : (d.modSlot k f).snap = d.snap := rfl
@[simp] theorem Dev.modSlot_sampler (k : Nat) (f : Slot → Slot) : (d.modSlot k f).sampler = d.sampler := rfl
@[simp] theorem Dev.modSlot_chip (k : Nat) (f : Slot → Slot) : (d.modSlot k f).chip = d.chip := rfl
@[simp] theorem Dev.modSlot_pmEnds (k : Nat) (f : Slot → Slot) : (d.modSlot k f).pmEnds = d.pmEnds := rfl
@[simp] theorem Dev.modSlot_pmSecond (k : Nat) (f : Slot → Slot) : (d.modSlot k f).pmSecond = d.pmSecond := rfl
@[simp] theorem Dev.modSlot_wire (k : Nat) (f : Slot → Slot) : (d.modSlot k f).wire = d.wire := rfl
@[simp] theorem Dev.modSlot_free (k : Nat) (f : Slot → Slot) : (d.modSlot k f).free = d.free := rfl
@[simp] theorem Dev.modSlot_rd (k : Nat) (f : Slot → Slot) (reg : Reg) (j : Nat) : (d.modSlot k f).rd reg j = d.rd reg j := rfl
@[simp] theorem Dev.modSlot_on (k : Nat) (f : Slot → Slot) (reg : Reg) (j : Nat) : (d.modSlot k f).on reg j = d.on reg j := rfl
@[simp] theorem Dev.modSlot_win (k : Nat) (f : Slot → Slot) (x j : Nat) : (d.modSlot k f).win x j = d.win x j := rfl
@[simp] theorem Dev.modSlot_severity (k : Nat) (f : Slot → Slot) (x : Nat) : (d.modSlot k f).severity x = d.severity x := rfl
@[simp] theorem Dev.modSlot_disabled (k : Nat) (f : Slot → Slot) (x : Nat) : (d.modSlot k f).disabled x = d.disabled x := rfl
@[simp] theorem Dev.modSlot_tree (k : Nat) (f : Slot → Slot) (x : Nat) : (d.modSlot k f).tree x = d.tree x := rfl
@[simp] theorem Dev.modSlot_term (k : Nat) (f : Slot → Slot) (x : Nat) : (d.modSlot k f).term x = d.term x := rfl
@[simp] theorem Dev.modSlot_alloc (k : Nat) (f : Slot → Slot) (x : Nat) : (d.modSlot k f).alloc x = d.alloc x := rfl
@[simp] theorem Dev.modSlot_bank (k : Nat) (f : Slot → Slot) (x : Nat) : (d.modSlot k f).bank x = d.bank x := rfl
@[simp] theorem Dev.modSlot_quad (k : Nat) (f : Slot → Slot) (x : Nat) : (d.modSlot k f).quad x = d.quad x := rfl
@[simp] theorem Dev.modSlot_port (k : Nat) (f : Slot → Slot) (x : Nat) : (d.modSlot k f).port x = d.port x := rfl
@[simp] theorem Dev.modSlot_lane (k : Nat) (f : Slot → Slot) (x : Nat) : (d.modSlot k f).lane x = d.lane x := rfl
@[simp] theorem Dev.modSlot_source (k : Nat) (f : Slot → Slot) (x : Nat) : (d.modSlot k f).source x = d.source x := rfl

/-! ### Fields under `modBank` -/

@[simp] theorem Dev.modBank_regs (q : Nat) (f : Bank → Bank) : (d.modBank q f).regs = d.regs := rfl
@[simp] theorem Dev.modBank_wins (q : Nat) (f : Bank → Bank) : (d.modBank q f).wins = d.wins := rfl
@[simp] theorem Dev.modBank_active (q : Nat) (f : Bank → Bank) : (d.modBank q f).active = d.active := rfl
@[simp] theorem Dev.modBank_staging (q : Nat) (f : Bank → Bank) : (d.modBank q f).staging = d.staging := rfl
@[simp] theorem Dev.modBank_older (q : Nat) (f : Bank → Bank) : (d.modBank q f).older = d.older := rfl
@[simp] theorem Dev.modBank_trees (q : Nat) (f : Bank → Bank) : (d.modBank q f).trees = d.trees := rfl
@[simp] theorem Dev.modBank_terms (q : Nat) (f : Bank → Bank) : (d.modBank q f).terms = d.terms := rfl
@[simp] theorem Dev.modBank_allocs (q : Nat) (f : Bank → Bank) : (d.modBank q f).allocs = d.allocs := rfl
@[simp] theorem Dev.modBank_osps (q : Nat) (f : Bank → Bank) : (d.modBank q f).osps = d.osps := rfl
@[simp] theorem Dev.modBank_slots (q : Nat) (f : Bank → Bank) : (d.modBank q f).slots = d.slots := rfl
@[simp] theorem Dev.modBank_quads (q : Nat) (f : Bank → Bank) : (d.modBank q f).quads = d.quads := rfl
@[simp] theorem Dev.modBank_frags (q : Nat) (f : Bank → Bank) : (d.modBank q f).frags = d.frags := rfl
@[simp] theorem Dev.modBank_addr (q : Nat) (f : Bank → Bank) : (d.modBank q f).addr = d.addr := rfl
@[simp] theorem Dev.modBank_swept (q : Nat) (f : Bank → Bank) : (d.modBank q f).swept = d.swept := rfl
@[simp] theorem Dev.modBank_buf (q : Nat) (f : Bank → Bank) : (d.modBank q f).buf = d.buf := rfl
@[simp] theorem Dev.modBank_treeWaiting (q : Nat) (f : Bank → Bank) : (d.modBank q f).treeWaiting = d.treeWaiting := rfl
@[simp] theorem Dev.modBank_sched (q : Nat) (f : Bank → Bank) : (d.modBank q f).sched = d.sched := rfl
@[simp] theorem Dev.modBank_ports (q : Nat) (f : Bank → Bank) : (d.modBank q f).ports = d.ports := rfl
@[simp] theorem Dev.modBank_lanes (q : Nat) (f : Bank → Bank) : (d.modBank q f).lanes = d.lanes := rfl
@[simp] theorem Dev.modBank_gnomon (q : Nat) (f : Bank → Bank) : (d.modBank q f).gnomon = d.gnomon := rfl
@[simp] theorem Dev.modBank_mate (q : Nat) (f : Bank → Bank) : (d.modBank q f).mate = d.mate := rfl
@[simp] theorem Dev.modBank_faults (q : Nat) (f : Bank → Bank) : (d.modBank q f).faults = d.faults := rfl
@[simp] theorem Dev.modBank_mgmt (q : Nat) (f : Bank → Bank) : (d.modBank q f).mgmt = d.mgmt := rfl
@[simp] theorem Dev.modBank_snap (q : Nat) (f : Bank → Bank) : (d.modBank q f).snap = d.snap := rfl
@[simp] theorem Dev.modBank_sampler (q : Nat) (f : Bank → Bank) : (d.modBank q f).sampler = d.sampler := rfl
@[simp] theorem Dev.modBank_chip (q : Nat) (f : Bank → Bank) : (d.modBank q f).chip = d.chip := rfl
@[simp] theorem Dev.modBank_pmEnds (q : Nat) (f : Bank → Bank) : (d.modBank q f).pmEnds = d.pmEnds := rfl
@[simp] theorem Dev.modBank_pmSecond (q : Nat) (f : Bank → Bank) : (d.modBank q f).pmSecond = d.pmSecond := rfl
@[simp] theorem Dev.modBank_wire (q : Nat) (f : Bank → Bank) : (d.modBank q f).wire = d.wire := rfl
@[simp] theorem Dev.modBank_free (q : Nat) (f : Bank → Bank) : (d.modBank q f).free = d.free := rfl
@[simp] theorem Dev.modBank_rd (q : Nat) (f : Bank → Bank) (reg : Reg) (j : Nat) : (d.modBank q f).rd reg j = d.rd reg j := rfl
@[simp] theorem Dev.modBank_on (q : Nat) (f : Bank → Bank) (reg : Reg) (j : Nat) : (d.modBank q f).on reg j = d.on reg j := rfl
@[simp] theorem Dev.modBank_win (q : Nat) (f : Bank → Bank) (x j : Nat) : (d.modBank q f).win x j = d.win x j := rfl
@[simp] theorem Dev.modBank_severity (q : Nat) (f : Bank → Bank) (x : Nat) : (d.modBank q f).severity x = d.severity x := rfl
@[simp] theorem Dev.modBank_disabled (q : Nat) (f : Bank → Bank) (x : Nat) : (d.modBank q f).disabled x = d.disabled x := rfl
@[simp] theorem Dev.modBank_tree (q : Nat) (f : Bank → Bank) (x : Nat) : (d.modBank q f).tree x = d.tree x := rfl
@[simp] theorem Dev.modBank_term (q : Nat) (f : Bank → Bank) (x : Nat) : (d.modBank q f).term x = d.term x := rfl
@[simp] theorem Dev.modBank_alloc (q : Nat) (f : Bank → Bank) (x : Nat) : (d.modBank q f).alloc x = d.alloc x := rfl
@[simp] theorem Dev.modBank_slot (q : Nat) (f : Bank → Bank) (x : Nat) : (d.modBank q f).slot x = d.slot x := rfl
@[simp] theorem Dev.modBank_quad (q : Nat) (f : Bank → Bank) (x : Nat) : (d.modBank q f).quad x = d.quad x := rfl
@[simp] theorem Dev.modBank_port (q : Nat) (f : Bank → Bank) (x : Nat) : (d.modBank q f).port x = d.port x := rfl
@[simp] theorem Dev.modBank_lane (q : Nat) (f : Bank → Bank) (x : Nat) : (d.modBank q f).lane x = d.lane x := rfl
@[simp] theorem Dev.modBank_source (q : Nat) (f : Bank → Bank) (x : Nat) : (d.modBank q f).source x = d.source x := rfl

/-! ### Fields under `modQuad` -/

@[simp] theorem Dev.modQuad_regs (q : Nat) (f : Quad → Quad) : (d.modQuad q f).regs = d.regs := rfl
@[simp] theorem Dev.modQuad_wins (q : Nat) (f : Quad → Quad) : (d.modQuad q f).wins = d.wins := rfl
@[simp] theorem Dev.modQuad_active (q : Nat) (f : Quad → Quad) : (d.modQuad q f).active = d.active := rfl
@[simp] theorem Dev.modQuad_staging (q : Nat) (f : Quad → Quad) : (d.modQuad q f).staging = d.staging := rfl
@[simp] theorem Dev.modQuad_older (q : Nat) (f : Quad → Quad) : (d.modQuad q f).older = d.older := rfl
@[simp] theorem Dev.modQuad_trees (q : Nat) (f : Quad → Quad) : (d.modQuad q f).trees = d.trees := rfl
@[simp] theorem Dev.modQuad_terms (q : Nat) (f : Quad → Quad) : (d.modQuad q f).terms = d.terms := rfl
@[simp] theorem Dev.modQuad_allocs (q : Nat) (f : Quad → Quad) : (d.modQuad q f).allocs = d.allocs := rfl
@[simp] theorem Dev.modQuad_osps (q : Nat) (f : Quad → Quad) : (d.modQuad q f).osps = d.osps := rfl
@[simp] theorem Dev.modQuad_slots (q : Nat) (f : Quad → Quad) : (d.modQuad q f).slots = d.slots := rfl
@[simp] theorem Dev.modQuad_banks (q : Nat) (f : Quad → Quad) : (d.modQuad q f).banks = d.banks := rfl
@[simp] theorem Dev.modQuad_frags (q : Nat) (f : Quad → Quad) : (d.modQuad q f).frags = d.frags := rfl
@[simp] theorem Dev.modQuad_addr (q : Nat) (f : Quad → Quad) : (d.modQuad q f).addr = d.addr := rfl
@[simp] theorem Dev.modQuad_swept (q : Nat) (f : Quad → Quad) : (d.modQuad q f).swept = d.swept := rfl
@[simp] theorem Dev.modQuad_buf (q : Nat) (f : Quad → Quad) : (d.modQuad q f).buf = d.buf := rfl
@[simp] theorem Dev.modQuad_treeWaiting (q : Nat) (f : Quad → Quad) : (d.modQuad q f).treeWaiting = d.treeWaiting := rfl
@[simp] theorem Dev.modQuad_sched (q : Nat) (f : Quad → Quad) : (d.modQuad q f).sched = d.sched := rfl
@[simp] theorem Dev.modQuad_ports (q : Nat) (f : Quad → Quad) : (d.modQuad q f).ports = d.ports := rfl
@[simp] theorem Dev.modQuad_lanes (q : Nat) (f : Quad → Quad) : (d.modQuad q f).lanes = d.lanes := rfl
@[simp] theorem Dev.modQuad_gnomon (q : Nat) (f : Quad → Quad) : (d.modQuad q f).gnomon = d.gnomon := rfl
@[simp] theorem Dev.modQuad_mate (q : Nat) (f : Quad → Quad) : (d.modQuad q f).mate = d.mate := rfl
@[simp] theorem Dev.modQuad_faults (q : Nat) (f : Quad → Quad) : (d.modQuad q f).faults = d.faults := rfl
@[simp] theorem Dev.modQuad_mgmt (q : Nat) (f : Quad → Quad) : (d.modQuad q f).mgmt = d.mgmt := rfl
@[simp] theorem Dev.modQuad_snap (q : Nat) (f : Quad → Quad) : (d.modQuad q f).snap = d.snap := rfl
@[simp] theorem Dev.modQuad_sampler (q : Nat) (f : Quad → Quad) : (d.modQuad q f).sampler = d.sampler := rfl
@[simp] theorem Dev.modQuad_chip (q : Nat) (f : Quad → Quad) : (d.modQuad q f).chip = d.chip := rfl
@[simp] theorem Dev.modQuad_pmEnds (q : Nat) (f : Quad → Quad) : (d.modQuad q f).pmEnds = d.pmEnds := rfl
@[simp] theorem Dev.modQuad_pmSecond (q : Nat) (f : Quad → Quad) : (d.modQuad q f).pmSecond = d.pmSecond := rfl
@[simp] theorem Dev.modQuad_wire (q : Nat) (f : Quad → Quad) : (d.modQuad q f).wire = d.wire := rfl
@[simp] theorem Dev.modQuad_free (q : Nat) (f : Quad → Quad) : (d.modQuad q f).free = d.free := rfl
@[simp] theorem Dev.modQuad_rd (q : Nat) (f : Quad → Quad) (reg : Reg) (j : Nat) : (d.modQuad q f).rd reg j = d.rd reg j := rfl
@[simp] theorem Dev.modQuad_on (q : Nat) (f : Quad → Quad) (reg : Reg) (j : Nat) : (d.modQuad q f).on reg j = d.on reg j := rfl
@[simp] theorem Dev.modQuad_win (q : Nat) (f : Quad → Quad) (x j : Nat) : (d.modQuad q f).win x j = d.win x j := rfl
@[simp] theorem Dev.modQuad_severity (q : Nat) (f : Quad → Quad) (x : Nat) : (d.modQuad q f).severity x = d.severity x := rfl
@[simp] theorem Dev.modQuad_disabled (q : Nat) (f : Quad → Quad) (x : Nat) : (d.modQuad q f).disabled x = d.disabled x := rfl
@[simp] theorem Dev.modQuad_tree (q : Nat) (f : Quad → Quad) (x : Nat) : (d.modQuad q f).tree x = d.tree x := rfl
@[simp] theorem Dev.modQuad_term (q : Nat) (f : Quad → Quad) (x : Nat) : (d.modQuad q f).term x = d.term x := rfl
@[simp] theorem Dev.modQuad_alloc (q : Nat) (f : Quad → Quad) (x : Nat) : (d.modQuad q f).alloc x = d.alloc x := rfl
@[simp] theorem Dev.modQuad_slot (q : Nat) (f : Quad → Quad) (x : Nat) : (d.modQuad q f).slot x = d.slot x := rfl
@[simp] theorem Dev.modQuad_bank (q : Nat) (f : Quad → Quad) (x : Nat) : (d.modQuad q f).bank x = d.bank x := rfl
@[simp] theorem Dev.modQuad_port (q : Nat) (f : Quad → Quad) (x : Nat) : (d.modQuad q f).port x = d.port x := rfl
@[simp] theorem Dev.modQuad_lane (q : Nat) (f : Quad → Quad) (x : Nat) : (d.modQuad q f).lane x = d.lane x := rfl
@[simp] theorem Dev.modQuad_source (q : Nat) (f : Quad → Quad) (x : Nat) : (d.modQuad q f).source x = d.source x := rfl

/-! ### Fields under `modPort` -/

@[simp] theorem Dev.modPort_regs (p : Nat) (f : Port → Port) : (d.modPort p f).regs = d.regs := rfl
@[simp] theorem Dev.modPort_wins (p : Nat) (f : Port → Port) : (d.modPort p f).wins = d.wins := rfl
@[simp] theorem Dev.modPort_active (p : Nat) (f : Port → Port) : (d.modPort p f).active = d.active := rfl
@[simp] theorem Dev.modPort_staging (p : Nat) (f : Port → Port) : (d.modPort p f).staging = d.staging := rfl
@[simp] theorem Dev.modPort_older (p : Nat) (f : Port → Port) : (d.modPort p f).older = d.older := rfl
@[simp] theorem Dev.modPort_trees (p : Nat) (f : Port → Port) : (d.modPort p f).trees = d.trees := rfl
@[simp] theorem Dev.modPort_terms (p : Nat) (f : Port → Port) : (d.modPort p f).terms = d.terms := rfl
@[simp] theorem Dev.modPort_allocs (p : Nat) (f : Port → Port) : (d.modPort p f).allocs = d.allocs := rfl
@[simp] theorem Dev.modPort_osps (p : Nat) (f : Port → Port) : (d.modPort p f).osps = d.osps := rfl
@[simp] theorem Dev.modPort_slots (p : Nat) (f : Port → Port) : (d.modPort p f).slots = d.slots := rfl
@[simp] theorem Dev.modPort_banks (p : Nat) (f : Port → Port) : (d.modPort p f).banks = d.banks := rfl
@[simp] theorem Dev.modPort_quads (p : Nat) (f : Port → Port) : (d.modPort p f).quads = d.quads := rfl
@[simp] theorem Dev.modPort_frags (p : Nat) (f : Port → Port) : (d.modPort p f).frags = d.frags := rfl
@[simp] theorem Dev.modPort_addr (p : Nat) (f : Port → Port) : (d.modPort p f).addr = d.addr := rfl
@[simp] theorem Dev.modPort_swept (p : Nat) (f : Port → Port) : (d.modPort p f).swept = d.swept := rfl
@[simp] theorem Dev.modPort_buf (p : Nat) (f : Port → Port) : (d.modPort p f).buf = d.buf := rfl
@[simp] theorem Dev.modPort_treeWaiting (p : Nat) (f : Port → Port) : (d.modPort p f).treeWaiting = d.treeWaiting := rfl
@[simp] theorem Dev.modPort_sched (p : Nat) (f : Port → Port) : (d.modPort p f).sched = d.sched := rfl
@[simp] theorem Dev.modPort_lanes (p : Nat) (f : Port → Port) : (d.modPort p f).lanes = d.lanes := rfl
@[simp] theorem Dev.modPort_gnomon (p : Nat) (f : Port → Port) : (d.modPort p f).gnomon = d.gnomon := rfl
@[simp] theorem Dev.modPort_mate (p : Nat) (f : Port → Port) : (d.modPort p f).mate = d.mate := rfl
@[simp] theorem Dev.modPort_faults (p : Nat) (f : Port → Port) : (d.modPort p f).faults = d.faults := rfl
@[simp] theorem Dev.modPort_mgmt (p : Nat) (f : Port → Port) : (d.modPort p f).mgmt = d.mgmt := rfl
@[simp] theorem Dev.modPort_snap (p : Nat) (f : Port → Port) : (d.modPort p f).snap = d.snap := rfl
@[simp] theorem Dev.modPort_sampler (p : Nat) (f : Port → Port) : (d.modPort p f).sampler = d.sampler := rfl
@[simp] theorem Dev.modPort_chip (p : Nat) (f : Port → Port) : (d.modPort p f).chip = d.chip := rfl
@[simp] theorem Dev.modPort_pmEnds (p : Nat) (f : Port → Port) : (d.modPort p f).pmEnds = d.pmEnds := rfl
@[simp] theorem Dev.modPort_pmSecond (p : Nat) (f : Port → Port) : (d.modPort p f).pmSecond = d.pmSecond := rfl
@[simp] theorem Dev.modPort_wire (p : Nat) (f : Port → Port) : (d.modPort p f).wire = d.wire := rfl
@[simp] theorem Dev.modPort_free (p : Nat) (f : Port → Port) : (d.modPort p f).free = d.free := rfl
@[simp] theorem Dev.modPort_rd (p : Nat) (f : Port → Port) (reg : Reg) (j : Nat) : (d.modPort p f).rd reg j = d.rd reg j := rfl
@[simp] theorem Dev.modPort_on (p : Nat) (f : Port → Port) (reg : Reg) (j : Nat) : (d.modPort p f).on reg j = d.on reg j := rfl
@[simp] theorem Dev.modPort_win (p : Nat) (f : Port → Port) (x j : Nat) : (d.modPort p f).win x j = d.win x j := rfl
@[simp] theorem Dev.modPort_severity (p : Nat) (f : Port → Port) (x : Nat) : (d.modPort p f).severity x = d.severity x := rfl
@[simp] theorem Dev.modPort_disabled (p : Nat) (f : Port → Port) (x : Nat) : (d.modPort p f).disabled x = d.disabled x := rfl
@[simp] theorem Dev.modPort_tree (p : Nat) (f : Port → Port) (x : Nat) : (d.modPort p f).tree x = d.tree x := rfl
@[simp] theorem Dev.modPort_term (p : Nat) (f : Port → Port) (x : Nat) : (d.modPort p f).term x = d.term x := rfl
@[simp] theorem Dev.modPort_alloc (p : Nat) (f : Port → Port) (x : Nat) : (d.modPort p f).alloc x = d.alloc x := rfl
@[simp] theorem Dev.modPort_slot (p : Nat) (f : Port → Port) (x : Nat) : (d.modPort p f).slot x = d.slot x := rfl
@[simp] theorem Dev.modPort_bank (p : Nat) (f : Port → Port) (x : Nat) : (d.modPort p f).bank x = d.bank x := rfl
@[simp] theorem Dev.modPort_quad (p : Nat) (f : Port → Port) (x : Nat) : (d.modPort p f).quad x = d.quad x := rfl
@[simp] theorem Dev.modPort_lane (p : Nat) (f : Port → Port) (x : Nat) : (d.modPort p f).lane x = d.lane x := rfl
@[simp] theorem Dev.modPort_source (p : Nat) (f : Port → Port) (x : Nat) : (d.modPort p f).source x = d.source x := rfl

/-! ### Fields under `modLane` -/

@[simp] theorem Dev.modLane_regs (l : Nat) (f : Lane → Lane) : (d.modLane l f).regs = d.regs := rfl
@[simp] theorem Dev.modLane_wins (l : Nat) (f : Lane → Lane) : (d.modLane l f).wins = d.wins := rfl
@[simp] theorem Dev.modLane_active (l : Nat) (f : Lane → Lane) : (d.modLane l f).active = d.active := rfl
@[simp] theorem Dev.modLane_staging (l : Nat) (f : Lane → Lane) : (d.modLane l f).staging = d.staging := rfl
@[simp] theorem Dev.modLane_older (l : Nat) (f : Lane → Lane) : (d.modLane l f).older = d.older := rfl
@[simp] theorem Dev.modLane_trees (l : Nat) (f : Lane → Lane) : (d.modLane l f).trees = d.trees := rfl
@[simp] theorem Dev.modLane_terms (l : Nat) (f : Lane → Lane) : (d.modLane l f).terms = d.terms := rfl
@[simp] theorem Dev.modLane_allocs (l : Nat) (f : Lane → Lane) : (d.modLane l f).allocs = d.allocs := rfl
@[simp] theorem Dev.modLane_osps (l : Nat) (f : Lane → Lane) : (d.modLane l f).osps = d.osps := rfl
@[simp] theorem Dev.modLane_slots (l : Nat) (f : Lane → Lane) : (d.modLane l f).slots = d.slots := rfl
@[simp] theorem Dev.modLane_banks (l : Nat) (f : Lane → Lane) : (d.modLane l f).banks = d.banks := rfl
@[simp] theorem Dev.modLane_quads (l : Nat) (f : Lane → Lane) : (d.modLane l f).quads = d.quads := rfl
@[simp] theorem Dev.modLane_frags (l : Nat) (f : Lane → Lane) : (d.modLane l f).frags = d.frags := rfl
@[simp] theorem Dev.modLane_addr (l : Nat) (f : Lane → Lane) : (d.modLane l f).addr = d.addr := rfl
@[simp] theorem Dev.modLane_swept (l : Nat) (f : Lane → Lane) : (d.modLane l f).swept = d.swept := rfl
@[simp] theorem Dev.modLane_buf (l : Nat) (f : Lane → Lane) : (d.modLane l f).buf = d.buf := rfl
@[simp] theorem Dev.modLane_treeWaiting (l : Nat) (f : Lane → Lane) : (d.modLane l f).treeWaiting = d.treeWaiting := rfl
@[simp] theorem Dev.modLane_sched (l : Nat) (f : Lane → Lane) : (d.modLane l f).sched = d.sched := rfl
@[simp] theorem Dev.modLane_ports (l : Nat) (f : Lane → Lane) : (d.modLane l f).ports = d.ports := rfl
@[simp] theorem Dev.modLane_gnomon (l : Nat) (f : Lane → Lane) : (d.modLane l f).gnomon = d.gnomon := rfl
@[simp] theorem Dev.modLane_mate (l : Nat) (f : Lane → Lane) : (d.modLane l f).mate = d.mate := rfl
@[simp] theorem Dev.modLane_faults (l : Nat) (f : Lane → Lane) : (d.modLane l f).faults = d.faults := rfl
@[simp] theorem Dev.modLane_mgmt (l : Nat) (f : Lane → Lane) : (d.modLane l f).mgmt = d.mgmt := rfl
@[simp] theorem Dev.modLane_snap (l : Nat) (f : Lane → Lane) : (d.modLane l f).snap = d.snap := rfl
@[simp] theorem Dev.modLane_sampler (l : Nat) (f : Lane → Lane) : (d.modLane l f).sampler = d.sampler := rfl
@[simp] theorem Dev.modLane_chip (l : Nat) (f : Lane → Lane) : (d.modLane l f).chip = d.chip := rfl
@[simp] theorem Dev.modLane_pmEnds (l : Nat) (f : Lane → Lane) : (d.modLane l f).pmEnds = d.pmEnds := rfl
@[simp] theorem Dev.modLane_pmSecond (l : Nat) (f : Lane → Lane) : (d.modLane l f).pmSecond = d.pmSecond := rfl
@[simp] theorem Dev.modLane_wire (l : Nat) (f : Lane → Lane) : (d.modLane l f).wire = d.wire := rfl
@[simp] theorem Dev.modLane_free (l : Nat) (f : Lane → Lane) : (d.modLane l f).free = d.free := rfl
@[simp] theorem Dev.modLane_rd (l : Nat) (f : Lane → Lane) (reg : Reg) (j : Nat) : (d.modLane l f).rd reg j = d.rd reg j := rfl
@[simp] theorem Dev.modLane_on (l : Nat) (f : Lane → Lane) (reg : Reg) (j : Nat) : (d.modLane l f).on reg j = d.on reg j := rfl
@[simp] theorem Dev.modLane_win (l : Nat) (f : Lane → Lane) (x j : Nat) : (d.modLane l f).win x j = d.win x j := rfl
@[simp] theorem Dev.modLane_severity (l : Nat) (f : Lane → Lane) (x : Nat) : (d.modLane l f).severity x = d.severity x := rfl
@[simp] theorem Dev.modLane_disabled (l : Nat) (f : Lane → Lane) (x : Nat) : (d.modLane l f).disabled x = d.disabled x := rfl
@[simp] theorem Dev.modLane_tree (l : Nat) (f : Lane → Lane) (x : Nat) : (d.modLane l f).tree x = d.tree x := rfl
@[simp] theorem Dev.modLane_term (l : Nat) (f : Lane → Lane) (x : Nat) : (d.modLane l f).term x = d.term x := rfl
@[simp] theorem Dev.modLane_alloc (l : Nat) (f : Lane → Lane) (x : Nat) : (d.modLane l f).alloc x = d.alloc x := rfl
@[simp] theorem Dev.modLane_slot (l : Nat) (f : Lane → Lane) (x : Nat) : (d.modLane l f).slot x = d.slot x := rfl
@[simp] theorem Dev.modLane_bank (l : Nat) (f : Lane → Lane) (x : Nat) : (d.modLane l f).bank x = d.bank x := rfl
@[simp] theorem Dev.modLane_quad (l : Nat) (f : Lane → Lane) (x : Nat) : (d.modLane l f).quad x = d.quad x := rfl
@[simp] theorem Dev.modLane_port (l : Nat) (f : Lane → Lane) (x : Nat) : (d.modLane l f).port x = d.port x := rfl
@[simp] theorem Dev.modLane_source (l : Nat) (f : Lane → Lane) (x : Nat) : (d.modLane l f).source x = d.source x := rfl

/-! ### Fields under `modSource` -/

@[simp] theorem Dev.modSource_regs (k : Nat) (f : Source → Source) : (d.modSource k f).regs = d.regs := rfl
@[simp] theorem Dev.modSource_wins (k : Nat) (f : Source → Source) : (d.modSource k f).wins = d.wins := rfl
@[simp] theorem Dev.modSource_active (k : Nat) (f : Source → Source) : (d.modSource k f).active = d.active := rfl
@[simp] theorem Dev.modSource_staging (k : Nat) (f : Source → Source) : (d.modSource k f).staging = d.staging := rfl
@[simp] theorem Dev.modSource_older (k : Nat) (f : Source → Source) : (d.modSource k f).older = d.older := rfl
@[simp] theorem Dev.modSource_trees (k : Nat) (f : Source → Source) : (d.modSource k f).trees = d.trees := rfl
@[simp] theorem Dev.modSource_terms (k : Nat) (f : Source → Source) : (d.modSource k f).terms = d.terms := rfl
@[simp] theorem Dev.modSource_allocs (k : Nat) (f : Source → Source) : (d.modSource k f).allocs = d.allocs := rfl
@[simp] theorem Dev.modSource_osps (k : Nat) (f : Source → Source) : (d.modSource k f).osps = d.osps := rfl
@[simp] theorem Dev.modSource_slots (k : Nat) (f : Source → Source) : (d.modSource k f).slots = d.slots := rfl
@[simp] theorem Dev.modSource_banks (k : Nat) (f : Source → Source) : (d.modSource k f).banks = d.banks := rfl
@[simp] theorem Dev.modSource_quads (k : Nat) (f : Source → Source) : (d.modSource k f).quads = d.quads := rfl
@[simp] theorem Dev.modSource_frags (k : Nat) (f : Source → Source) : (d.modSource k f).frags = d.frags := rfl
@[simp] theorem Dev.modSource_addr (k : Nat) (f : Source → Source) : (d.modSource k f).addr = d.addr := rfl
@[simp] theorem Dev.modSource_swept (k : Nat) (f : Source → Source) : (d.modSource k f).swept = d.swept := rfl
@[simp] theorem Dev.modSource_buf (k : Nat) (f : Source → Source) : (d.modSource k f).buf = d.buf := rfl
@[simp] theorem Dev.modSource_treeWaiting (k : Nat) (f : Source → Source) : (d.modSource k f).treeWaiting = d.treeWaiting := rfl
@[simp] theorem Dev.modSource_sched (k : Nat) (f : Source → Source) : (d.modSource k f).sched = d.sched := rfl
@[simp] theorem Dev.modSource_ports (k : Nat) (f : Source → Source) : (d.modSource k f).ports = d.ports := rfl
@[simp] theorem Dev.modSource_lanes (k : Nat) (f : Source → Source) : (d.modSource k f).lanes = d.lanes := rfl
@[simp] theorem Dev.modSource_gnomon (k : Nat) (f : Source → Source) : (d.modSource k f).gnomon = d.gnomon := rfl
@[simp] theorem Dev.modSource_mate (k : Nat) (f : Source → Source) : (d.modSource k f).mate = d.mate := rfl
@[simp] theorem Dev.modSource_mgmt (k : Nat) (f : Source → Source) : (d.modSource k f).mgmt = d.mgmt := rfl
@[simp] theorem Dev.modSource_snap (k : Nat) (f : Source → Source) : (d.modSource k f).snap = d.snap := rfl
@[simp] theorem Dev.modSource_sampler (k : Nat) (f : Source → Source) : (d.modSource k f).sampler = d.sampler := rfl
@[simp] theorem Dev.modSource_chip (k : Nat) (f : Source → Source) : (d.modSource k f).chip = d.chip := rfl
@[simp] theorem Dev.modSource_pmEnds (k : Nat) (f : Source → Source) : (d.modSource k f).pmEnds = d.pmEnds := rfl
@[simp] theorem Dev.modSource_pmSecond (k : Nat) (f : Source → Source) : (d.modSource k f).pmSecond = d.pmSecond := rfl
@[simp] theorem Dev.modSource_wire (k : Nat) (f : Source → Source) : (d.modSource k f).wire = d.wire := rfl
@[simp] theorem Dev.modSource_free (k : Nat) (f : Source → Source) : (d.modSource k f).free = d.free := rfl
@[simp] theorem Dev.modSource_rd (k : Nat) (f : Source → Source) (reg : Reg) (j : Nat) : (d.modSource k f).rd reg j = d.rd reg j := rfl
@[simp] theorem Dev.modSource_on (k : Nat) (f : Source → Source) (reg : Reg) (j : Nat) : (d.modSource k f).on reg j = d.on reg j := rfl
@[simp] theorem Dev.modSource_win (k : Nat) (f : Source → Source) (x j : Nat) : (d.modSource k f).win x j = d.win x j := rfl
@[simp] theorem Dev.modSource_severity (k : Nat) (f : Source → Source) (x : Nat) : (d.modSource k f).severity x = d.severity x := rfl
@[simp] theorem Dev.modSource_disabled (k : Nat) (f : Source → Source) (x : Nat) : (d.modSource k f).disabled x = d.disabled x := rfl
@[simp] theorem Dev.modSource_tree (k : Nat) (f : Source → Source) (x : Nat) : (d.modSource k f).tree x = d.tree x := rfl
@[simp] theorem Dev.modSource_term (k : Nat) (f : Source → Source) (x : Nat) : (d.modSource k f).term x = d.term x := rfl
@[simp] theorem Dev.modSource_alloc (k : Nat) (f : Source → Source) (x : Nat) : (d.modSource k f).alloc x = d.alloc x := rfl
@[simp] theorem Dev.modSource_slot (k : Nat) (f : Source → Source) (x : Nat) : (d.modSource k f).slot x = d.slot x := rfl
@[simp] theorem Dev.modSource_bank (k : Nat) (f : Source → Source) (x : Nat) : (d.modSource k f).bank x = d.bank x := rfl
@[simp] theorem Dev.modSource_quad (k : Nat) (f : Source → Source) (x : Nat) : (d.modSource k f).quad x = d.quad x := rfl
@[simp] theorem Dev.modSource_port (k : Nat) (f : Source → Source) (x : Nat) : (d.modSource k f).port x = d.port x := rfl
@[simp] theorem Dev.modSource_lane (k : Nat) (f : Source → Source) (x : Nat) : (d.modSource k f).lane x = d.lane x := rfl

/-! ### Fields under `modMate` -/

@[simp] theorem Dev.modMate_regs (f : Mate → Mate) : (d.modMate f).regs = d.regs := rfl
@[simp] theorem Dev.modMate_wins (f : Mate → Mate) : (d.modMate f).wins = d.wins := rfl
@[simp] theorem Dev.modMate_active (f : Mate → Mate) : (d.modMate f).active = d.active := rfl
@[simp] theorem Dev.modMate_staging (f : Mate → Mate) : (d.modMate f).staging = d.staging := rfl
@[simp] theorem Dev.modMate_older (f : Mate → Mate) : (d.modMate f).older = d.older := rfl
@[simp] theorem Dev.modMate_trees (f : Mate → Mate) : (d.modMate f).trees = d.trees := rfl
@[simp] theorem Dev.modMate_terms (f : Mate → Mate) : (d.modMate f).terms = d.terms := rfl
@[simp] theorem Dev.modMate_allocs (f : Mate → Mate) : (d.modMate f).allocs = d.allocs := rfl
@[simp] theorem Dev.modMate_osps (f : Mate → Mate) : (d.modMate f).osps = d.osps := rfl
@[simp] theorem Dev.modMate_slots (f : Mate → Mate) : (d.modMate f).slots = d.slots := rfl
@[simp] theorem Dev.modMate_banks (f : Mate → Mate) : (d.modMate f).banks = d.banks := rfl
@[simp] theorem Dev.modMate_quads (f : Mate → Mate) : (d.modMate f).quads = d.quads := rfl
@[simp] theorem Dev.modMate_frags (f : Mate → Mate) : (d.modMate f).frags = d.frags := rfl
@[simp] theorem Dev.modMate_addr (f : Mate → Mate) : (d.modMate f).addr = d.addr := rfl
@[simp] theorem Dev.modMate_swept (f : Mate → Mate) : (d.modMate f).swept = d.swept := rfl
@[simp] theorem Dev.modMate_buf (f : Mate → Mate) : (d.modMate f).buf = d.buf := rfl
@[simp] theorem Dev.modMate_treeWaiting (f : Mate → Mate) : (d.modMate f).treeWaiting = d.treeWaiting := rfl
@[simp] theorem Dev.modMate_sched (f : Mate → Mate) : (d.modMate f).sched = d.sched := rfl
@[simp] theorem Dev.modMate_ports (f : Mate → Mate) : (d.modMate f).ports = d.ports := rfl
@[simp] theorem Dev.modMate_lanes (f : Mate → Mate) : (d.modMate f).lanes = d.lanes := rfl
@[simp] theorem Dev.modMate_gnomon (f : Mate → Mate) : (d.modMate f).gnomon = d.gnomon := rfl
@[simp] theorem Dev.modMate_faults (f : Mate → Mate) : (d.modMate f).faults = d.faults := rfl
@[simp] theorem Dev.modMate_mgmt (f : Mate → Mate) : (d.modMate f).mgmt = d.mgmt := rfl
@[simp] theorem Dev.modMate_snap (f : Mate → Mate) : (d.modMate f).snap = d.snap := rfl
@[simp] theorem Dev.modMate_sampler (f : Mate → Mate) : (d.modMate f).sampler = d.sampler := rfl
@[simp] theorem Dev.modMate_chip (f : Mate → Mate) : (d.modMate f).chip = d.chip := rfl
@[simp] theorem Dev.modMate_pmEnds (f : Mate → Mate) : (d.modMate f).pmEnds = d.pmEnds := rfl
@[simp] theorem Dev.modMate_pmSecond (f : Mate → Mate) : (d.modMate f).pmSecond = d.pmSecond := rfl
@[simp] theorem Dev.modMate_wire (f : Mate → Mate) : (d.modMate f).wire = d.wire := rfl
@[simp] theorem Dev.modMate_free (f : Mate → Mate) : (d.modMate f).free = d.free := rfl
@[simp] theorem Dev.modMate_rd (f : Mate → Mate) (reg : Reg) (j : Nat) : (d.modMate f).rd reg j = d.rd reg j := rfl
@[simp] theorem Dev.modMate_on (f : Mate → Mate) (reg : Reg) (j : Nat) : (d.modMate f).on reg j = d.on reg j := rfl
@[simp] theorem Dev.modMate_win (f : Mate → Mate) (x j : Nat) : (d.modMate f).win x j = d.win x j := rfl
@[simp] theorem Dev.modMate_severity (f : Mate → Mate) (x : Nat) : (d.modMate f).severity x = d.severity x := rfl
@[simp] theorem Dev.modMate_disabled (f : Mate → Mate) (x : Nat) : (d.modMate f).disabled x = d.disabled x := rfl
@[simp] theorem Dev.modMate_tree (f : Mate → Mate) (x : Nat) : (d.modMate f).tree x = d.tree x := rfl
@[simp] theorem Dev.modMate_term (f : Mate → Mate) (x : Nat) : (d.modMate f).term x = d.term x := rfl
@[simp] theorem Dev.modMate_alloc (f : Mate → Mate) (x : Nat) : (d.modMate f).alloc x = d.alloc x := rfl
@[simp] theorem Dev.modMate_slot (f : Mate → Mate) (x : Nat) : (d.modMate f).slot x = d.slot x := rfl
@[simp] theorem Dev.modMate_bank (f : Mate → Mate) (x : Nat) : (d.modMate f).bank x = d.bank x := rfl
@[simp] theorem Dev.modMate_quad (f : Mate → Mate) (x : Nat) : (d.modMate f).quad x = d.quad x := rfl
@[simp] theorem Dev.modMate_port (f : Mate → Mate) (x : Nat) : (d.modMate f).port x = d.port x := rfl
@[simp] theorem Dev.modMate_lane (f : Mate → Mate) (x : Nat) : (d.modMate f).lane x = d.lane x := rfl
@[simp] theorem Dev.modMate_source (f : Mate → Mate) (x : Nat) : (d.modMate f).source x = d.source x := rfl

/-! ### Fields under `modChip` -/

@[simp] theorem Dev.modChip_regs (f : Chip → Chip) : (d.modChip f).regs = d.regs := rfl
@[simp] theorem Dev.modChip_wins (f : Chip → Chip) : (d.modChip f).wins = d.wins := rfl
@[simp] theorem Dev.modChip_active (f : Chip → Chip) : (d.modChip f).active = d.active := rfl
@[simp] theorem Dev.modChip_staging (f : Chip → Chip) : (d.modChip f).staging = d.staging := rfl
@[simp] theorem Dev.modChip_older (f : Chip → Chip) : (d.modChip f).older = d.older := rfl
@[simp] theorem Dev.modChip_trees (f : Chip → Chip) : (d.modChip f).trees = d.trees := rfl
@[simp] theorem Dev.modChip_terms (f : Chip → Chip) : (d.modChip f).terms = d.terms := rfl
@[simp] theorem Dev.modChip_allocs (f : Chip → Chip) : (d.modChip f).allocs = d.allocs := rfl
@[simp] theorem Dev.modChip_osps (f : Chip → Chip) : (d.modChip f).osps = d.osps := rfl
@[simp] theorem Dev.modChip_slots (f : Chip → Chip) : (d.modChip f).slots = d.slots := rfl
@[simp] theorem Dev.modChip_banks (f : Chip → Chip) : (d.modChip f).banks = d.banks := rfl
@[simp] theorem Dev.modChip_quads (f : Chip → Chip) : (d.modChip f).quads = d.quads := rfl
@[simp] theorem Dev.modChip_frags (f : Chip → Chip) : (d.modChip f).frags = d.frags := rfl
@[simp] theorem Dev.modChip_addr (f : Chip → Chip) : (d.modChip f).addr = d.addr := rfl
@[simp] theorem Dev.modChip_swept (f : Chip → Chip) : (d.modChip f).swept = d.swept := rfl
@[simp] theorem Dev.modChip_buf (f : Chip → Chip) : (d.modChip f).buf = d.buf := rfl
@[simp] theorem Dev.modChip_treeWaiting (f : Chip → Chip) : (d.modChip f).treeWaiting = d.treeWaiting := rfl
@[simp] theorem Dev.modChip_sched (f : Chip → Chip) : (d.modChip f).sched = d.sched := rfl
@[simp] theorem Dev.modChip_ports (f : Chip → Chip) : (d.modChip f).ports = d.ports := rfl
@[simp] theorem Dev.modChip_lanes (f : Chip → Chip) : (d.modChip f).lanes = d.lanes := rfl
@[simp] theorem Dev.modChip_gnomon (f : Chip → Chip) : (d.modChip f).gnomon = d.gnomon := rfl
@[simp] theorem Dev.modChip_mate (f : Chip → Chip) : (d.modChip f).mate = d.mate := rfl
@[simp] theorem Dev.modChip_faults (f : Chip → Chip) : (d.modChip f).faults = d.faults := rfl
@[simp] theorem Dev.modChip_mgmt (f : Chip → Chip) : (d.modChip f).mgmt = d.mgmt := rfl
@[simp] theorem Dev.modChip_snap (f : Chip → Chip) : (d.modChip f).snap = d.snap := rfl
@[simp] theorem Dev.modChip_sampler (f : Chip → Chip) : (d.modChip f).sampler = d.sampler := rfl
@[simp] theorem Dev.modChip_pmEnds (f : Chip → Chip) : (d.modChip f).pmEnds = d.pmEnds := rfl
@[simp] theorem Dev.modChip_pmSecond (f : Chip → Chip) : (d.modChip f).pmSecond = d.pmSecond := rfl
@[simp] theorem Dev.modChip_wire (f : Chip → Chip) : (d.modChip f).wire = d.wire := rfl
@[simp] theorem Dev.modChip_free (f : Chip → Chip) : (d.modChip f).free = d.free := rfl
@[simp] theorem Dev.modChip_rd (f : Chip → Chip) (reg : Reg) (j : Nat) : (d.modChip f).rd reg j = d.rd reg j := rfl
@[simp] theorem Dev.modChip_on (f : Chip → Chip) (reg : Reg) (j : Nat) : (d.modChip f).on reg j = d.on reg j := rfl
@[simp] theorem Dev.modChip_win (f : Chip → Chip) (x j : Nat) : (d.modChip f).win x j = d.win x j := rfl
@[simp] theorem Dev.modChip_severity (f : Chip → Chip) (x : Nat) : (d.modChip f).severity x = d.severity x := rfl
@[simp] theorem Dev.modChip_disabled (f : Chip → Chip) (x : Nat) : (d.modChip f).disabled x = d.disabled x := rfl
@[simp] theorem Dev.modChip_tree (f : Chip → Chip) (x : Nat) : (d.modChip f).tree x = d.tree x := rfl
@[simp] theorem Dev.modChip_term (f : Chip → Chip) (x : Nat) : (d.modChip f).term x = d.term x := rfl
@[simp] theorem Dev.modChip_alloc (f : Chip → Chip) (x : Nat) : (d.modChip f).alloc x = d.alloc x := rfl
@[simp] theorem Dev.modChip_slot (f : Chip → Chip) (x : Nat) : (d.modChip f).slot x = d.slot x := rfl
@[simp] theorem Dev.modChip_bank (f : Chip → Chip) (x : Nat) : (d.modChip f).bank x = d.bank x := rfl
@[simp] theorem Dev.modChip_quad (f : Chip → Chip) (x : Nat) : (d.modChip f).quad x = d.quad x := rfl
@[simp] theorem Dev.modChip_port (f : Chip → Chip) (x : Nat) : (d.modChip f).port x = d.port x := rfl
@[simp] theorem Dev.modChip_lane (f : Chip → Chip) (x : Nat) : (d.modChip f).lane x = d.lane x := rfl
@[simp] theorem Dev.modChip_source (f : Chip → Chip) (x : Nat) : (d.modChip f).source x = d.source x := rfl

/-! ### Fields under `modSession` -/

@[simp] theorem Dev.modSession_regs (k : Nat) (f : Session → Session) : (d.modSession k f).regs = d.regs := rfl
@[simp] theorem Dev.modSession_wins (k : Nat) (f : Session → Session) : (d.modSession k f).wins = d.wins := rfl
@[simp] theorem Dev.modSession_active (k : Nat) (f : Session → Session) : (d.modSession k f).active = d.active := rfl
@[simp] theorem Dev.modSession_staging (k : Nat) (f : Session → Session) : (d.modSession k f).staging = d.staging := rfl
@[simp] theorem Dev.modSession_older (k : Nat) (f : Session → Session) : (d.modSession k f).older = d.older := rfl
@[simp] theorem Dev.modSession_trees (k : Nat) (f : Session → Session) : (d.modSession k f).trees = d.trees := rfl
@[simp] theorem Dev.modSession_terms (k : Nat) (f : Session → Session) : (d.modSession k f).terms = d.terms := rfl
@[simp] theorem Dev.modSession_allocs (k : Nat) (f : Session → Session) : (d.modSession k f).allocs = d.allocs := rfl
@[simp] theorem Dev.modSession_osps (k : Nat) (f : Session → Session) : (d.modSession k f).osps = d.osps := rfl
@[simp] theorem Dev.modSession_slots (k : Nat) (f : Session → Session) : (d.modSession k f).slots = d.slots := rfl
@[simp] theorem Dev.modSession_banks (k : Nat) (f : Session → Session) : (d.modSession k f).banks = d.banks := rfl
@[simp] theorem Dev.modSession_quads (k : Nat) (f : Session → Session) : (d.modSession k f).quads = d.quads := rfl
@[simp] theorem Dev.modSession_frags (k : Nat) (f : Session → Session) : (d.modSession k f).frags = d.frags := rfl
@[simp] theorem Dev.modSession_addr (k : Nat) (f : Session → Session) : (d.modSession k f).addr = d.addr := rfl
@[simp] theorem Dev.modSession_swept (k : Nat) (f : Session → Session) : (d.modSession k f).swept = d.swept := rfl
@[simp] theorem Dev.modSession_buf (k : Nat) (f : Session → Session) : (d.modSession k f).buf = d.buf := rfl
@[simp] theorem Dev.modSession_treeWaiting (k : Nat) (f : Session → Session) : (d.modSession k f).treeWaiting = d.treeWaiting := rfl
@[simp] theorem Dev.modSession_sched (k : Nat) (f : Session → Session) : (d.modSession k f).sched = d.sched := rfl
@[simp] theorem Dev.modSession_ports (k : Nat) (f : Session → Session) : (d.modSession k f).ports = d.ports := rfl
@[simp] theorem Dev.modSession_lanes (k : Nat) (f : Session → Session) : (d.modSession k f).lanes = d.lanes := rfl
@[simp] theorem Dev.modSession_gnomon (k : Nat) (f : Session → Session) : (d.modSession k f).gnomon = d.gnomon := rfl
@[simp] theorem Dev.modSession_mate (k : Nat) (f : Session → Session) : (d.modSession k f).mate = d.mate := rfl
@[simp] theorem Dev.modSession_faults (k : Nat) (f : Session → Session) : (d.modSession k f).faults = d.faults := rfl
@[simp] theorem Dev.modSession_snap (k : Nat) (f : Session → Session) : (d.modSession k f).snap = d.snap := rfl
@[simp] theorem Dev.modSession_sampler (k : Nat) (f : Session → Session) : (d.modSession k f).sampler = d.sampler := rfl
@[simp] theorem Dev.modSession_chip (k : Nat) (f : Session → Session) : (d.modSession k f).chip = d.chip := rfl
@[simp] theorem Dev.modSession_pmEnds (k : Nat) (f : Session → Session) : (d.modSession k f).pmEnds = d.pmEnds := rfl
@[simp] theorem Dev.modSession_pmSecond (k : Nat) (f : Session → Session) : (d.modSession k f).pmSecond = d.pmSecond := rfl
@[simp] theorem Dev.modSession_wire (k : Nat) (f : Session → Session) : (d.modSession k f).wire = d.wire := rfl
@[simp] theorem Dev.modSession_free (k : Nat) (f : Session → Session) : (d.modSession k f).free = d.free := rfl
@[simp] theorem Dev.modSession_rd (k : Nat) (f : Session → Session) (reg : Reg) (j : Nat) : (d.modSession k f).rd reg j = d.rd reg j := rfl
@[simp] theorem Dev.modSession_on (k : Nat) (f : Session → Session) (reg : Reg) (j : Nat) : (d.modSession k f).on reg j = d.on reg j := rfl
@[simp] theorem Dev.modSession_win (k : Nat) (f : Session → Session) (x j : Nat) : (d.modSession k f).win x j = d.win x j := rfl
@[simp] theorem Dev.modSession_severity (k : Nat) (f : Session → Session) (x : Nat) : (d.modSession k f).severity x = d.severity x := rfl
@[simp] theorem Dev.modSession_disabled (k : Nat) (f : Session → Session) (x : Nat) : (d.modSession k f).disabled x = d.disabled x := rfl
@[simp] theorem Dev.modSession_tree (k : Nat) (f : Session → Session) (x : Nat) : (d.modSession k f).tree x = d.tree x := rfl
@[simp] theorem Dev.modSession_term (k : Nat) (f : Session → Session) (x : Nat) : (d.modSession k f).term x = d.term x := rfl
@[simp] theorem Dev.modSession_alloc (k : Nat) (f : Session → Session) (x : Nat) : (d.modSession k f).alloc x = d.alloc x := rfl
@[simp] theorem Dev.modSession_slot (k : Nat) (f : Session → Session) (x : Nat) : (d.modSession k f).slot x = d.slot x := rfl
@[simp] theorem Dev.modSession_bank (k : Nat) (f : Session → Session) (x : Nat) : (d.modSession k f).bank x = d.bank x := rfl
@[simp] theorem Dev.modSession_quad (k : Nat) (f : Session → Session) (x : Nat) : (d.modSession k f).quad x = d.quad x := rfl
@[simp] theorem Dev.modSession_port (k : Nat) (f : Session → Session) (x : Nat) : (d.modSession k f).port x = d.port x := rfl
@[simp] theorem Dev.modSession_lane (k : Nat) (f : Session → Session) (x : Nat) : (d.modSession k f).lane x = d.lane x := rfl
@[simp] theorem Dev.modSession_source (k : Nat) (f : Session → Session) (x : Nat) : (d.modSession k f).source x = d.source x := rfl

/-! ### Fields under `modOsp` -/

@[simp] theorem Dev.modOsp_regs (p : Nat) (f : Osp → Osp) : (d.modOsp p f).regs = d.regs := rfl
@[simp] theorem Dev.modOsp_wins (p : Nat) (f : Osp → Osp) : (d.modOsp p f).wins = d.wins := rfl
@[simp] theorem Dev.modOsp_active (p : Nat) (f : Osp → Osp) : (d.modOsp p f).active = d.active := rfl
@[simp] theorem Dev.modOsp_staging (p : Nat) (f : Osp → Osp) : (d.modOsp p f).staging = d.staging := rfl
@[simp] theorem Dev.modOsp_older (p : Nat) (f : Osp → Osp) : (d.modOsp p f).older = d.older := rfl
@[simp] theorem Dev.modOsp_trees (p : Nat) (f : Osp → Osp) : (d.modOsp p f).trees = d.trees := rfl
@[simp] theorem Dev.modOsp_terms (p : Nat) (f : Osp → Osp) : (d.modOsp p f).terms = d.terms := rfl
@[simp] theorem Dev.modOsp_allocs (p : Nat) (f : Osp → Osp) : (d.modOsp p f).allocs = d.allocs := rfl
@[simp] theorem Dev.modOsp_slots (p : Nat) (f : Osp → Osp) : (d.modOsp p f).slots = d.slots := rfl
@[simp] theorem Dev.modOsp_banks (p : Nat) (f : Osp → Osp) : (d.modOsp p f).banks = d.banks := rfl
@[simp] theorem Dev.modOsp_quads (p : Nat) (f : Osp → Osp) : (d.modOsp p f).quads = d.quads := rfl
@[simp] theorem Dev.modOsp_frags (p : Nat) (f : Osp → Osp) : (d.modOsp p f).frags = d.frags := rfl
@[simp] theorem Dev.modOsp_addr (p : Nat) (f : Osp → Osp) : (d.modOsp p f).addr = d.addr := rfl
@[simp] theorem Dev.modOsp_swept (p : Nat) (f : Osp → Osp) : (d.modOsp p f).swept = d.swept := rfl
@[simp] theorem Dev.modOsp_buf (p : Nat) (f : Osp → Osp) : (d.modOsp p f).buf = d.buf := rfl
@[simp] theorem Dev.modOsp_treeWaiting (p : Nat) (f : Osp → Osp) : (d.modOsp p f).treeWaiting = d.treeWaiting := rfl
@[simp] theorem Dev.modOsp_sched (p : Nat) (f : Osp → Osp) : (d.modOsp p f).sched = d.sched := rfl
@[simp] theorem Dev.modOsp_ports (p : Nat) (f : Osp → Osp) : (d.modOsp p f).ports = d.ports := rfl
@[simp] theorem Dev.modOsp_lanes (p : Nat) (f : Osp → Osp) : (d.modOsp p f).lanes = d.lanes := rfl
@[simp] theorem Dev.modOsp_gnomon (p : Nat) (f : Osp → Osp) : (d.modOsp p f).gnomon = d.gnomon := rfl
@[simp] theorem Dev.modOsp_mate (p : Nat) (f : Osp → Osp) : (d.modOsp p f).mate = d.mate := rfl
@[simp] theorem Dev.modOsp_faults (p : Nat) (f : Osp → Osp) : (d.modOsp p f).faults = d.faults := rfl
@[simp] theorem Dev.modOsp_mgmt (p : Nat) (f : Osp → Osp) : (d.modOsp p f).mgmt = d.mgmt := rfl
@[simp] theorem Dev.modOsp_snap (p : Nat) (f : Osp → Osp) : (d.modOsp p f).snap = d.snap := rfl
@[simp] theorem Dev.modOsp_sampler (p : Nat) (f : Osp → Osp) : (d.modOsp p f).sampler = d.sampler := rfl
@[simp] theorem Dev.modOsp_chip (p : Nat) (f : Osp → Osp) : (d.modOsp p f).chip = d.chip := rfl
@[simp] theorem Dev.modOsp_pmEnds (p : Nat) (f : Osp → Osp) : (d.modOsp p f).pmEnds = d.pmEnds := rfl
@[simp] theorem Dev.modOsp_pmSecond (p : Nat) (f : Osp → Osp) : (d.modOsp p f).pmSecond = d.pmSecond := rfl
@[simp] theorem Dev.modOsp_wire (p : Nat) (f : Osp → Osp) : (d.modOsp p f).wire = d.wire := rfl
@[simp] theorem Dev.modOsp_free (p : Nat) (f : Osp → Osp) : (d.modOsp p f).free = d.free := rfl
@[simp] theorem Dev.modOsp_rd (p : Nat) (f : Osp → Osp) (reg : Reg) (j : Nat) : (d.modOsp p f).rd reg j = d.rd reg j := rfl
@[simp] theorem Dev.modOsp_on (p : Nat) (f : Osp → Osp) (reg : Reg) (j : Nat) : (d.modOsp p f).on reg j = d.on reg j := rfl
@[simp] theorem Dev.modOsp_win (p : Nat) (f : Osp → Osp) (x j : Nat) : (d.modOsp p f).win x j = d.win x j := rfl
@[simp] theorem Dev.modOsp_severity (p : Nat) (f : Osp → Osp) (x : Nat) : (d.modOsp p f).severity x = d.severity x := rfl
@[simp] theorem Dev.modOsp_disabled (p : Nat) (f : Osp → Osp) (x : Nat) : (d.modOsp p f).disabled x = d.disabled x := rfl
@[simp] theorem Dev.modOsp_tree (p : Nat) (f : Osp → Osp) (x : Nat) : (d.modOsp p f).tree x = d.tree x := rfl
@[simp] theorem Dev.modOsp_term (p : Nat) (f : Osp → Osp) (x : Nat) : (d.modOsp p f).term x = d.term x := rfl
@[simp] theorem Dev.modOsp_alloc (p : Nat) (f : Osp → Osp) (x : Nat) : (d.modOsp p f).alloc x = d.alloc x := rfl
@[simp] theorem Dev.modOsp_slot (p : Nat) (f : Osp → Osp) (x : Nat) : (d.modOsp p f).slot x = d.slot x := rfl
@[simp] theorem Dev.modOsp_bank (p : Nat) (f : Osp → Osp) (x : Nat) : (d.modOsp p f).bank x = d.bank x := rfl
@[simp] theorem Dev.modOsp_quad (p : Nat) (f : Osp → Osp) (x : Nat) : (d.modOsp p f).quad x = d.quad x := rfl
@[simp] theorem Dev.modOsp_port (p : Nat) (f : Osp → Osp) (x : Nat) : (d.modOsp p f).port x = d.port x := rfl
@[simp] theorem Dev.modOsp_lane (p : Nat) (f : Osp → Osp) (x : Nat) : (d.modOsp p f).lane x = d.lane x := rfl
@[simp] theorem Dev.modOsp_source (p : Nat) (f : Osp → Osp) (x : Nat) : (d.modOsp p f).source x = d.source x := rfl

/-! ### Fields under `emit` -/

@[simp] theorem Dev.emit_regs (e : Emission) : (d.emit e).regs = d.regs := rfl
@[simp] theorem Dev.emit_wins (e : Emission) : (d.emit e).wins = d.wins := rfl
@[simp] theorem Dev.emit_active (e : Emission) : (d.emit e).active = d.active := rfl
@[simp] theorem Dev.emit_staging (e : Emission) : (d.emit e).staging = d.staging := rfl
@[simp] theorem Dev.emit_older (e : Emission) : (d.emit e).older = d.older := rfl
@[simp] theorem Dev.emit_trees (e : Emission) : (d.emit e).trees = d.trees := rfl
@[simp] theorem Dev.emit_terms (e : Emission) : (d.emit e).terms = d.terms := rfl
@[simp] theorem Dev.emit_allocs (e : Emission) : (d.emit e).allocs = d.allocs := rfl
@[simp] theorem Dev.emit_osps (e : Emission) : (d.emit e).osps = d.osps := rfl
@[simp] theorem Dev.emit_slots (e : Emission) : (d.emit e).slots = d.slots := rfl
@[simp] theorem Dev.emit_banks (e : Emission) : (d.emit e).banks = d.banks := rfl
@[simp] theorem Dev.emit_quads (e : Emission) : (d.emit e).quads = d.quads := rfl
@[simp] theorem Dev.emit_frags (e : Emission) : (d.emit e).frags = d.frags := rfl
@[simp] theorem Dev.emit_addr (e : Emission) : (d.emit e).addr = d.addr := rfl
@[simp] theorem Dev.emit_swept (e : Emission) : (d.emit e).swept = d.swept := rfl
@[simp] theorem Dev.emit_buf (e : Emission) : (d.emit e).buf = d.buf := rfl
@[simp] theorem Dev.emit_treeWaiting (e : Emission) : (d.emit e).treeWaiting = d.treeWaiting := rfl
@[simp] theorem Dev.emit_sched (e : Emission) : (d.emit e).sched = d.sched := rfl
@[simp] theorem Dev.emit_ports (e : Emission) : (d.emit e).ports = d.ports := rfl
@[simp] theorem Dev.emit_lanes (e : Emission) : (d.emit e).lanes = d.lanes := rfl
@[simp] theorem Dev.emit_gnomon (e : Emission) : (d.emit e).gnomon = d.gnomon := rfl
@[simp] theorem Dev.emit_mate (e : Emission) : (d.emit e).mate = d.mate := rfl
@[simp] theorem Dev.emit_faults (e : Emission) : (d.emit e).faults = d.faults := rfl
@[simp] theorem Dev.emit_mgmt (e : Emission) : (d.emit e).mgmt = d.mgmt := rfl
@[simp] theorem Dev.emit_snap (e : Emission) : (d.emit e).snap = d.snap := rfl
@[simp] theorem Dev.emit_sampler (e : Emission) : (d.emit e).sampler = d.sampler := rfl
@[simp] theorem Dev.emit_chip (e : Emission) : (d.emit e).chip = d.chip := rfl
@[simp] theorem Dev.emit_pmEnds (e : Emission) : (d.emit e).pmEnds = d.pmEnds := rfl
@[simp] theorem Dev.emit_pmSecond (e : Emission) : (d.emit e).pmSecond = d.pmSecond := rfl
@[simp] theorem Dev.emit_free (e : Emission) : (d.emit e).free = d.free := rfl
@[simp] theorem Dev.emit_rd (e : Emission) (reg : Reg) (j : Nat) : (d.emit e).rd reg j = d.rd reg j := rfl
@[simp] theorem Dev.emit_on (e : Emission) (reg : Reg) (j : Nat) : (d.emit e).on reg j = d.on reg j := rfl
@[simp] theorem Dev.emit_win (e : Emission) (x j : Nat) : (d.emit e).win x j = d.win x j := rfl
@[simp] theorem Dev.emit_severity (e : Emission) (x : Nat) : (d.emit e).severity x = d.severity x := rfl
@[simp] theorem Dev.emit_disabled (e : Emission) (x : Nat) : (d.emit e).disabled x = d.disabled x := rfl
@[simp] theorem Dev.emit_tree (e : Emission) (x : Nat) : (d.emit e).tree x = d.tree x := rfl
@[simp] theorem Dev.emit_term (e : Emission) (x : Nat) : (d.emit e).term x = d.term x := rfl
@[simp] theorem Dev.emit_alloc (e : Emission) (x : Nat) : (d.emit e).alloc x = d.alloc x := rfl
@[simp] theorem Dev.emit_slot (e : Emission) (x : Nat) : (d.emit e).slot x = d.slot x := rfl
@[simp] theorem Dev.emit_bank (e : Emission) (x : Nat) : (d.emit e).bank x = d.bank x := rfl
@[simp] theorem Dev.emit_quad (e : Emission) (x : Nat) : (d.emit e).quad x = d.quad x := rfl
@[simp] theorem Dev.emit_port (e : Emission) (x : Nat) : (d.emit e).port x = d.port x := rfl
@[simp] theorem Dev.emit_lane (e : Emission) (x : Nat) : (d.emit e).lane x = d.lane x := rfl
@[simp] theorem Dev.emit_source (e : Emission) (x : Nat) : (d.emit e).source x = d.source x := rfl

@[simp] theorem Dev.chip_modChip (f : Chip → Chip) : (d.modChip f).chip = f d.chip := rfl
@[simp] theorem Dev.mate_modMate (f : Mate → Mate) : (d.modMate f).mate = f d.mate := rfl
@[simp] theorem Dev.wire_emit (e : Emission) : (d.emit e).wire = d.wire ++ [e] := rfl

/-! ### Steps over a list, conditional steps, open values -/

@[simp] theorem Dev.each_nil {α : Type} (f : Dev → α → Dev) : d.each [] f = d := rfl
@[simp] theorem Dev.each_cons {α : Type} (x : α) (l : List α) (f : Dev → α → Dev) :
    d.each (x :: l) f = (f d x).each l f := rfl
theorem Dev.each_append {α : Type} (k l : List α) (f : Dev → α → Dev) : d.each (k ++ l) f = (d.each k f).each l f :=
  List.foldl_append

/-- What every step of a list keeps, the list keeps. -/
theorem Dev.each_keeps {α β : Type} (p : Dev → β) {l : List α} {f : Dev → α → Dev}
    (h : ∀ d, ∀ x ∈ l, p (f d x) = p d) : p (d.each l f) = p d := by
  induction l generalizing d with
  | nil => rfl
  | cons x l ih =>
    rw [Dev.each_cons, ih _ fun d y hy => h d y (List.mem_cons_of_mem _ hy), h d x List.mem_cons_self]

@[simp] theorem Dev.when_true (f : Dev → Dev) : d.when true f = f d := rfl
@[simp] theorem Dev.when_false (f : Dev → Dev) : d.when false f = d := rfl
@[simp] theorem Dev.draw_fst : d.draw.1 = Config.freeValue d.free := rfl
@[simp] theorem Dev.draw_snd : d.draw.2 = { d with free := d.free + 1 } := rfl

end Sys2Proof.Machine
end

