-- ==== Sys2Proof/Laws/Rows.lean ====
section
/-!
SUPPORT. The laws of the object tables: a register's row, its address and its key lead back to it.
-/
namespace Sys2Proof.Machine
open Sys2Proof

set_option maxRecDepth 40000 in
/-- The rows stand in the order of the registers. -/
theorem objRows_ctorIdx : objRows.map (fun p => p.1.ctorIdx) = List.range objRows.length := by rfl

/-- An address as one number. -/
def addrKey (p : Reg × ObjRow) : Nat := p.2.index * 256 + p.2.sub

set_option maxRecDepth 40000 in
theorem objRows_rising_step : ((objRows.map addrKey).zip (objRows.map addrKey).tail).all (fun p => decide (p.1 < p.2)) = true := by
  rfl

set_option maxRecDepth 40000 in
theorem objRows_small : objRows.all (fun p => decide (p.2.sub < 256) && decide (p.2.index < 0x3000)) = true := by rfl

set_option maxRecDepth 40000 in
theorem objRows_count : objRows.length = 578 := by rfl

theorem Reg.ctorIdx_row (r : Reg) : r.ctorIdx < objRows.length := by rw [objRows_count]; cases r <;> decide

/-- The row at a register's place is the register's. -/
theorem objRows_getElem (r : Reg) : objRows[r.ctorIdx]? = some (r, r.row) := by
  have hlt := r.ctorIdx_row
  have h1 : (objRows.map fun p => p.1.ctorIdx)[r.ctorIdx]? = some r.ctorIdx := by
    rw [objRows_ctorIdx]; simp [List.getElem?_range hlt]
  rw [List.getElem?_map, Option.map_eq_some_iff] at h1
  obtain ⟨p, hp, hi⟩ := h1
  have hr : p.1 = r := Reg.ctorIdx_inj hi
  have : r.row = p.2 := by simp [Reg.row, List.getD_eq_getElem?_getD, hp]
  rw [hp, this, ← hr]

/-- The register at a key is the register whose key it is. -/
@[simp] theorem regAt_regKey (r : Reg) (i : Nat) : regAt (regKey r i) = r := by
  have h : regKey r i % 1024 = r.ctorIdx := by
    have := r.ctorIdx_lt
    unfold regKey; omega
  simp [regAt, h, List.getD_eq_getElem?_getD, objRows_getElem]

/-- The instance of a key. -/
@[simp] theorem regKey_instance (r : Reg) (i : Nat) : regKey r i / 1024 = i := by
  have := r.ctorIdx_lt
  unfold regKey; omega

theorem objRows_rising : (objRows.map addrKey).Pairwise (· < ·) := by
  rw [← List.isChain_iff_pairwise]
  have h := objRows_rising_step
  generalize objRows.map addrKey = l at h
  induction l with
  | nil => simp
  | cons a l ih =>
    cases l with
    | nil => simp
    | cons b l =>
      simp only [List.tail_cons, List.zip_cons_cons, List.all_cons, Bool.and_eq_true, decide_eq_true_eq] at h ih
      rw [List.isChain_cons_cons]
      exact ⟨h.1, ih (by simpa using h.2)⟩

theorem find_of_rising {α : Type} (f : α → Nat) {l : List α} (h : (l.map f).Pairwise (· < ·)) {x : α} (hx : x ∈ l)
    (p : α → Bool) (hp : ∀ y ∈ l, p y = true ↔ f y = f x) : l.find? p = some x := by
  induction l with
  | nil => cases hx
  | cons a l ih =>
    rw [List.map_cons, List.pairwise_cons] at h
    rw [List.find?_cons]
    rcases List.mem_cons.mp hx with rfl | hx
    · have : p x = true := (hp x (by simp)).2 rfl
      simp [this]
    · have : p a = false := by
        rw [Bool.eq_false_iff, Ne, hp a (by simp)]
        have := h.1 (f x) (List.mem_map_of_mem hx)
        omega
      rw [this]; exact ih h.2 hx fun y hy => hp y (by simp [hy])

theorem Reg.row_mem (r : Reg) : (r, r.row) ∈ objRows := List.mem_of_getElem? (objRows_getElem r)

theorem Reg.row_small (r : Reg) : r.row.sub < 256 ∧ r.row.index < 0x3000 := by
  have h := List.all_eq_true.mp objRows_small _ r.row_mem
  simpa using h

/-- A register's address names it (R317). -/
@[simp] theorem Reg.ofAddr_row (r : Reg) : Reg.ofAddr r.row.index r.row.sub = some r := by
  have := find_of_rising addrKey objRows_rising r.row_mem (fun p => p.2.index = r.row.index && p.2.sub = r.row.sub) (by
    intro y hy
    have h1 := List.all_eq_true.mp objRows_small _ hy
    have h2 := r.row_small
    simp only [Bool.and_eq_true, decide_eq_true_eq] at h1
    simp only [addrKey, Bool.and_eq_true, decide_eq_true_eq]
    omega)
  simp [Reg.ofAddr, this]

/-- No register lies among the windows. -/
@[simp] theorem winRow_reg (r : Reg) : winRow r.row.index = none := by
  have h := r.row_small.2
  unfold winRow
  rw [if_neg (by omega), if_neg (by omega)]
  unfold chapterWindow
  split <;> first | omega | rfl

/-- The target of a register's address is the register (R303, step 3). -/
@[simp] theorem placeAt_row (r : Reg) : placeAt r.row.index r.row.sub = some (.reg r) := by simp [placeAt]

end Sys2Proof.Machine
end

