-- ==== Sys2Proof/Laws/Exec.lean ====
section
/-!
SUPPORT. What a master's access does, said once: a write that passes the checks, its bytes, and the response.
-/
namespace Sys2Proof.Machine
open Sys2Proof

/-! ### Numbers as bytes -/

@[simp] theorem toBytes_length (k v : Nat) : (toBytes k v).length = k := by
  induction k with
  | zero => rfl
  | succ k ih => simp [toBytes, ih]

theorem ofBytes_go (l : Bytes) (a : Nat) :
    l.foldl (fun a b => a * 256 + b % 256) a = a * 256 ^ l.length + ofBytes l := by
  induction l generalizing a with
  | nil => simp [ofBytes]
  | cons b l ih =>
    simp only [List.foldl_cons, List.length_cons, ofBytes]
    rw [ih, ih (0 * 256 + b % 256), pow_succ]
    ring

theorem ofBytes_cons (b : Nat) (l : Bytes) : ofBytes (b :: l) = b % 256 * 256 ^ l.length + ofBytes l := by
  have := ofBytes_go l (0 * 256 + b % 256)
  simpa [ofBytes] using this

/-- The number that the bytes of a number spell is the number, within their width. -/
theorem ofBytes_toBytes (k v : Nat) : ofBytes (toBytes k v) = v % 256 ^ k := by
  induction k generalizing v with
  | zero => simp [toBytes, ofBytes, Nat.mod_one]
  | succ k ih =>
    rw [toBytes, ofBytes_cons, ih, toBytes_length, Nat.mod_mod, pow_succ, Nat.mod_mul, Nat.mul_comm]
    exact Nat.add_comm _ _

/-! ### Writes -/

/-- The wait of a reset is over where none waits. -/
theorem Dev.startPending_none {d : Dev} (n : Nat) (h : d.chip.pendingReset = none) : d.startPending n = d := by
  simp [Dev.startPending, h]

/-- A write that passes the checks of R303 acts, and is answered. -/
theorem byMaster_accepts {s : State} {n : Nat} {m : Master} {r : Reg} {i : Nat} {data : Bytes}
    (h : s.dev.accepts (max s.now n) m r i data = true) (hl : r ≠ .leaseReg)
    (hr : ¬(r = .roleCmd ∧ ofBytes data = 1)) :
    byMaster n m (writeCmd r i data) s = .next
      { s with now := max s.now n,
               dev := (((s.dev.asked (max s.now n) m).writeReg (max s.now n) m r i data).emit
                 (.response m ⟨0, []⟩)).startPending (max s.now n) } := by
  simp only [Dev.accepts, Dev.hears, Bool.and_eq_true, Bool.not_eq_true', beq_iff_eq, Option.isNone_iff_eq_none] at h
  obtain ⟨⟨⟨⟨⟨⟨⟨⟨⟨⟨⟨hm, hp⟩, ho⟩, hlo⟩, hpr⟩, hi⟩, hw⟩, hmw⟩, hle⟩, hlen⟩, hb⟩, hd⟩ := h
  have hr' : ∀ x : Option Resp × Dev, (if r = .roleCmd ∧ ofBytes data = 1 then x else
      (some ⟨0, []⟩, (s.dev.asked (max s.now n) m).writeReg (max s.now n) m r i data)) =
      (some ⟨0, []⟩, (s.dev.asked (max s.now n) m).writeReg (max s.now n) m r i data) := fun x => if_neg hr
  simp only [byMaster, hm, if_true, State.at_, Dev.serveMaster, hp, ne_eq, not_true, if_false, ho, Bool.not_true,
    Bool.false_and, Bool.false_eq_true]
  rw [show ((s.dev.settleTimes (max s.now n)).settleMgmt.touch (max s.now n) m) = s.dev.asked (max s.now n) m from rfl]
  have : (s.dev.asked (max s.now n) m).transact (max s.now n) m (soleSpace m) (writeCmd r i data) =
      (some ⟨0, []⟩, (s.dev.asked (max s.now n) m).writeReg (max s.now n) m r i data) := by
    simp only [Dev.transact, Dev.busy, hlo, Option.map_none, writeCmd, Dev.doWrite, placeAt_row]
    have hi' : (Place.reg r).hasInstance i = true := hi
    have hle' : (s.dev.asked (max s.now n) m).leaseRefuses m r.row.index = false := by simp [Dev.leaseRefuses, hle]
    simp only [hi', Bool.not_true, Bool.false_eq_true, if_false, hw, hmw, hle', Dev.doWriteReg, hlen, ne_eq, not_true, hb,
      hl, hle, hd, hr', ite_self]
  rw [this]

/-- The same with what holds of the device afterwards, for a command that is such a write. -/
theorem Answered.of_accepts {c : Instr} {s : State} {n : Nat} {m : Master} {r : Reg} {i : Nat} {data : Bytes}
    {p : Dev → Dev → Prop} (hc : exec c s = byMaster n m (writeCmd r i data) s)
    (h : s.dev.accepts (max s.now n) m r i data = true) (hl : r ≠ .leaseReg) (hr : ¬(r = .roleCmd ∧ ofBytes data = 1))
    (hq : ((s.dev.asked (max s.now n) m).writeReg (max s.now n) m r i data).chip.pendingReset = none)
    (hp : p (s.dev.asked (max s.now n) m)
      (((s.dev.asked (max s.now n) m).writeReg (max s.now n) m r i data).emit (.response m ⟨0, []⟩))) :
    Answered c s n m p := by
  have key := byMaster_accepts h hl hr
  rw [Dev.startPending_none _ (show (Dev.emit _ _).chip.pendingReset = none from hq)] at key
  exact ⟨_, hc.trans key, rfl, rfl, by simp [Dev.emit], hp⟩

/-- A number that fits the type travels in its bytes. -/
theorem writeNum_fits {r : Reg} {i v : Nat} (h : v < 256 ^ r.size) : writeNum r i v = writeCmd r i (toBytes r.size v) := by
  simp [writeNum, h]

/-- The same for a write of a number. -/
theorem Answered.of_acceptsNum {c : Instr} {s : State} {n : Nat} {m : Master} {r : Reg} {i v : Nat}
    {p : Dev → Dev → Prop} (hc : exec c s = byMaster n m (writeNum r i v) s)
    (h : s.dev.acceptsNum (max s.now n) m r i v = true) (hl : r ≠ .leaseReg) (hr : ¬(r = .roleCmd ∧ v = 1))
    (hq : ((s.dev.asked (max s.now n) m).writeReg (max s.now n) m r i (toBytes r.size v)).chip.pendingReset = none)
    (hp : p (s.dev.asked (max s.now n) m)
      (((s.dev.asked (max s.now n) m).writeReg (max s.now n) m r i (toBytes r.size v)).emit (.response m ⟨0, []⟩))) :
    Answered c s n m p := by
  simp only [Dev.acceptsNum, Bool.and_eq_true, decide_eq_true_eq] at h
  refine Answered.of_accepts (hc.trans (by rw [writeNum_fits h.1])) h.2 hl ?_ hq hp
  rw [ofBytes_toBytes, Nat.mod_eq_of_lt h.1]
  exact hr

/-! ### Durable records (R267, R268) -/

variable (d : Dev)

/-- Making a durable record touches DSEQ_SENT and the records not acknowledged, nothing else. -/
theorem Dev.durable_cases (n : Nat) (f : Nat → MirrorRecord) :
    d.durable n f = d ∨ ∃ k, d.durable n f =
      { d.wr .dseqSent 0 k with mate := { d.mate with unacked := d.mate.unacked ++ [(n, f k)] } } := by
  unfold Dev.durable
  split
  · exact Or.inr ⟨_, rfl⟩
  · exact Or.inl rfl

theorem Dev.durable_rd (n : Nat) (f : Nat → MirrorRecord) {r : Reg} (i : Nat) (h : r ≠ .dseqSent) :
    (d.durable n f).rd r i = d.rd r i := by
  rcases d.durable_cases n f with e | ⟨k, e⟩
  · rw [e]
  · rw [e]; exact Dev.rd_wr_other d 0 i k h

@[simp] theorem Dev.durable_wins (n : Nat) (f : Nat → MirrorRecord) : (d.durable n f).wins = d.wins := by
  unfold Dev.durable; split <;> rfl
@[simp] theorem Dev.durable_active (n : Nat) (f : Nat → MirrorRecord) : (d.durable n f).active = d.active := by
  unfold Dev.durable; split <;> rfl
@[simp] theorem Dev.durable_staging (n : Nat) (f : Nat → MirrorRecord) : (d.durable n f).staging = d.staging := by
  unfold Dev.durable; split <;> rfl
@[simp] theorem Dev.durable_older (n : Nat) (f : Nat → MirrorRecord) : (d.durable n f).older = d.older := by
  unfold Dev.durable; split <;> rfl
@[simp] theorem Dev.durable_trees (n : Nat) (f : Nat → MirrorRecord) : (d.durable n f).trees = d.trees := by
  unfold Dev.durable; split <;> rfl
@[simp] theorem Dev.durable_terms (n : Nat) (f : Nat → MirrorRecord) : (d.durable n f).terms = d.terms := by
  unfold Dev.durable; split <;> rfl
@[simp] theorem Dev.durable_allocs (n : Nat) (f : Nat → MirrorRecord) : (d.durable n f).allocs = d.allocs := by
  unfold Dev.durable; split <;> rfl
@[simp] theorem Dev.durable_osps (n : Nat) (f : Nat → MirrorRecord) : (d.durable n f).osps = d.osps := by
  unfold Dev.durable; split <;> rfl
@[simp] theorem Dev.durable_slots (n : Nat) (f : Nat → MirrorRecord) : (d.durable n f).slots = d.slots := by
  unfold Dev.durable; split <;> rfl
@[simp] theorem Dev.durable_banks (n : Nat) (f : Nat → MirrorRecord) : (d.durable n f).banks = d.banks := by
  unfold Dev.durable; split <;> rfl
@[simp] theorem Dev.durable_quads (n : Nat) (f : Nat → MirrorRecord) : (d.durable n f).quads = d.quads := by
  unfold Dev.durable; split <;> rfl
@[simp] theorem Dev.durable_frags (n : Nat) (f : Nat → MirrorRecord) : (d.durable n f).frags = d.frags := by
  unfold Dev.durable; split <;> rfl
@[simp] theorem Dev.durable_addr (n : Nat) (f : Nat → MirrorRecord) : (d.durable n f).addr = d.addr := by
  unfold Dev.durable; split <;> rfl
@[simp] theorem Dev.durable_swept (n : Nat) (f : Nat → MirrorRecord) : (d.durable n f).swept = d.swept := by
  unfold Dev.durable; split <;> rfl
@[simp] theorem Dev.durable_buf (n : Nat) (f : Nat → MirrorRecord) : (d.durable n f).buf = d.buf := by
  unfold Dev.durable; split <;> rfl
@[simp] theorem Dev.durable_treeWaiting (n : Nat) (f : Nat → MirrorRecord) : (d.durable n f).treeWaiting = d.treeWaiting := by
  unfold Dev.durable; split <;> rfl
@[simp] theorem Dev.durable_sched (n : Nat) (f : Nat → MirrorRecord) : (d.durable n f).sched = d.sched := by
  unfold Dev.durable; split <;> rfl
@[simp] theorem Dev.durable_ports (n : Nat) (f : Nat → MirrorRecord) : (d.durable n f).ports = d.ports := by
  unfold Dev.durable; split <;> rfl
@[simp] theorem Dev.durable_lanes (n : Nat) (f : Nat → MirrorRecord) : (d.durable n f).lanes = d.lanes := by
  unfold Dev.durable; split <;> rfl
@[simp] theorem Dev.durable_gnomon (n : Nat) (f : Nat → MirrorRecord) : (d.durable n f).gnomon = d.gnomon := by
  unfold Dev.durable; split <;> rfl
@[simp] theorem Dev.durable_faults (n : Nat) (f : Nat → MirrorRecord) : (d.durable n f).faults = d.faults := by
  unfold Dev.durable; split <;> rfl
@[simp] theorem Dev.durable_mgmt (n : Nat) (f : Nat → MirrorRecord) : (d.durable n f).mgmt = d.mgmt := by
  unfold Dev.durable; split <;> rfl
@[simp] theorem Dev.durable_snap (n : Nat) (f : Nat → MirrorRecord) : (d.durable n f).snap = d.snap := by
  unfold Dev.durable; split <;> rfl
@[simp] theorem Dev.durable_sampler (n : Nat) (f : Nat → MirrorRecord) : (d.durable n f).sampler = d.sampler := by
  unfold Dev.durable; split <;> rfl
@[simp] theorem Dev.durable_chip (n : Nat) (f : Nat → MirrorRecord) : (d.durable n f).chip = d.chip := by
  unfold Dev.durable; split <;> rfl
@[simp] theorem Dev.durable_pmEnds (n : Nat) (f : Nat → MirrorRecord) : (d.durable n f).pmEnds = d.pmEnds := by
  unfold Dev.durable; split <;> rfl
@[simp] theorem Dev.durable_pmSecond (n : Nat) (f : Nat → MirrorRecord) : (d.durable n f).pmSecond = d.pmSecond := by
  unfold Dev.durable; split <;> rfl
@[simp] theorem Dev.durable_wire (n : Nat) (f : Nat → MirrorRecord) : (d.durable n f).wire = d.wire := by
  unfold Dev.durable; split <;> rfl
@[simp] theorem Dev.durable_free (n : Nat) (f : Nat → MirrorRecord) : (d.durable n f).free = d.free := by
  unfold Dev.durable; split <;> rfl

/-- An accepted write is its action, with a durable record or without. -/
theorem Dev.writeReg_cases (n : Nat) (m : Master) (r : Reg) (i : Nat) (data : Bytes) :
    d.writeReg n m r i data = d.applyReg n m r i (d.stored r i (ofBytes data)) data ∨
      ∃ f, d.writeReg n m r i data = (d.applyReg n m r i (d.stored r i (ofBytes data)) data).durable n f := by
  unfold Dev.writeReg
  simp only
  split
  · exact Or.inr ⟨_, rfl⟩
  · exact Or.inl rfl

end Sys2Proof.Machine
end

