-- ==== Sys2Proof/Laws/PerInstr.lean ====
section
/-!
SUPPORT. One lemma per command of the family Named: whether a command's operands name elements of the device does not
depend on when the command comes.
-/
namespace Sys2Proof.Laws.Named

/-- Delaying a command keeps its checks and moves its tick, where it has one. -/
def Statement (i : Instr) : Prop :=
  ∀ k, (i.delay k).wellFormed = i.wellFormed ∧ (i.delay k).tick = i.tick.map (· + k)

theorem frameStart : Statement (.frameStart) := fun _ => ⟨rfl, rfl⟩
theorem creditSnapshot (a0 : MapPoint) : Statement (.creditSnapshot a0) := fun _ => ⟨rfl, rfl⟩
theorem buildStart (a0 : MapPoint) (a1 : List Nat) : Statement (.buildStart a0 a1) := fun _ => ⟨rfl, rfl⟩
theorem mapSeal (a0 : MapPoint) : Statement (.mapSeal a0) := fun _ => ⟨rfl, rfl⟩
theorem fanOutDeadline (a0 : MapPoint) (a1 : List (Nat × Consumer)) : Statement (.fanOutDeadline a0 a1) := fun _ => ⟨rfl, rfl⟩
theorem headerLock (a0 : MapPoint) : Statement (.headerLock a0) := fun _ => ⟨rfl, rfl⟩
theorem mirrorDeadline : Statement (.mirrorDeadline) := fun _ => ⟨rfl, rfl⟩
theorem heartbeatMidframe : Statement (.heartbeatMidframe) := fun _ => ⟨rfl, rfl⟩
theorem bridgeLockLoss (a0 : Nat) (a1 : Nat) (a2 : List Nat) (a3 : List Nat) : Statement (.bridgeLockLoss a0 a1 a2 a3) := fun _ => ⟨rfl, rfl⟩
theorem profileWrite (a0 : Nat) (a1 : Master) (a2 : Nat) (a3 : Nat) : Statement (.profileWrite a0 a1 a2 a3) := fun _ => ⟨rfl, rfl⟩
theorem profileChangeDarken (a0 : Nat) : Statement (.profileChangeDarken a0) := fun _ => ⟨rfl, rfl⟩
theorem profileChangeApply (a0 : Nat) (a1 : Nat) : Statement (.profileChangeApply a0 a1) := fun _ => ⟨rfl, rfl⟩
theorem profileChangeComplete (a0 : Nat) (a1 : Nat) : Statement (.profileChangeComplete a0 a1) := fun _ => ⟨rfl, rfl⟩
theorem sliceWake (a0 : Nat) (a1 : Nat) : Statement (.sliceWake a0 a1) := fun _ => ⟨rfl, rfl⟩
theorem sliceGate (a0 : Nat) (a1 : Nat) : Statement (.sliceGate a0 a1) := fun _ => ⟨rfl, rfl⟩
theorem rxrstPulse (a0 : Nat) (a1 : Nat) (a2 : BurstRef) : Statement (.rxrstPulse a0 a1 a2) := fun _ => ⟨rfl, rfl⟩
theorem burstReceive (a0 : Nat) (a1 : Nat) (a2 : BurstRef) (a3 : BurstObs) : Statement (.burstReceive a0 a1 a2 a3) := fun _ => ⟨rfl, rfl⟩
theorem treeDefectDeclare (a0 : Nat) (a1 : Nat) (a2 : Defect) : Statement (.treeDefectDeclare a0 a1 a2) := fun _ => ⟨rfl, rfl⟩
theorem treeDefectClear (a0 : Nat) (a1 : Nat) (a2 : Defect) : Statement (.treeDefectClear a0 a1 a2) := fun _ => ⟨rfl, rfl⟩
theorem terminalDefectDeclare (a0 : Nat) (a1 : Nat) (a2 : TermDefect) : Statement (.terminalDefectDeclare a0 a1 a2) := fun _ => ⟨rfl, rfl⟩
theorem terminalDefectClear (a0 : Nat) (a1 : Nat) (a2 : TermDefect) : Statement (.terminalDefectClear a0 a1 a2) := fun _ => ⟨rfl, rfl⟩
theorem mateDefectDeclare (a0 : Nat) (a1 : Defect) : Statement (.mateDefectDeclare a0 a1) := fun _ => ⟨rfl, rfl⟩
theorem mateDefectClear (a0 : Nat) (a1 : Defect) : Statement (.mateDefectClear a0 a1) := fun _ => ⟨rfl, rfl⟩
theorem indicationRepeat (a0 : Nat) (a1 : Nat) : Statement (.indicationRepeat a0 a1) := fun _ => ⟨rfl, rfl⟩
theorem pmSecondEnd (a0 : Nat) : Statement (.pmSecondEnd a0) := fun _ => ⟨rfl, rfl⟩
theorem pmSecondCommit (a0 : Nat) : Statement (.pmSecondCommit a0) := fun _ => ⟨rfl, rfl⟩
theorem ospHostMessage (a0 : Nat) (a1 : Nat) (a2 : Bytes) : Statement (.ospHostMessage a0 a1 a2) := fun _ => ⟨rfl, rfl⟩
theorem ospCredit (a0 : Nat) (a1 : Nat) : Statement (.ospCredit a0 a1) := fun _ => ⟨rfl, rfl⟩
theorem treeEnableWrite (a0 : Nat) (a1 : Master) (a2 : Nat) (a3 : Nat) : Statement (.treeEnableWrite a0 a1 a2 a3) := fun _ => ⟨rfl, rfl⟩
theorem lineModeWrite (a0 : Nat) (a1 : Master) (a2 : Nat) (a3 : Nat) : Statement (.lineModeWrite a0 a1 a2 a3) := fun _ => ⟨rfl, rfl⟩
theorem bpValidWrite (a0 : Nat) (a1 : Master) (a2 : Nat) (a3 : Nat) : Statement (.bpValidWrite a0 a1 a2 a3) := fun _ => ⟨rfl, rfl⟩
theorem discoveryWindowOpen (a0 : Nat) (a1 : Nat) : Statement (.discoveryWindowOpen a0 a1) := fun _ => ⟨rfl, rfl⟩
theorem discListAgeOut (a0 : Nat) (a1 : Nat) : Statement (.discListAgeOut a0 a1) := fun _ => ⟨rfl, rfl⟩
theorem rangeRetry (a0 : Nat) (a1 : Nat) : Statement (.rangeRetry a0 a1) := fun _ => ⟨rfl, rfl⟩
theorem rangeTimeout (a0 : Nat) (a1 : Nat) : Statement (.rangeTimeout a0 a1) := fun _ => ⟨rfl, rfl⟩
theorem lostTimeout (a0 : Nat) (a1 : Nat) : Statement (.lostTimeout a0 a1) := fun _ => ⟨rfl, rfl⟩
theorem jumpRerange (a0 : Nat) (a1 : Nat) : Statement (.jumpRerange a0 a1) := fun _ => ⟨rfl, rfl⟩
theorem terminalDeactivate (a0 : Nat) (a1 : Master) (a2 : Nat) : Statement (.terminalDeactivate a0 a1 a2) := fun _ => ⟨rfl, rfl⟩
theorem terminalQuarantine (a0 : Nat) (a1 : Master) (a2 : Nat) : Statement (.terminalQuarantine a0 a1 a2) := fun _ => ⟨rfl, rfl⟩
theorem terminalRelease (a0 : Nat) (a1 : Master) (a2 : Nat) : Statement (.terminalRelease a0 a1 a2) := fun _ => ⟨rfl, rfl⟩
theorem rogueWatch (a0 : Nat) (a1 : Nat) (a2 : RogueObs) : Statement (.rogueWatch a0 a1 a2) := fun _ => ⟨rfl, rfl⟩
theorem reportMissLimit (a0 : Nat) (a1 : Nat) : Statement (.reportMissLimit a0 a1) := fun _ => ⟨rfl, rfl⟩
theorem keyNext (a0 : Nat) (a1 : Master) (a2 : Nat) (a3 : Bytes) : Statement (.keyNext a0 a1 a2 a3) := fun _ => ⟨rfl, rfl⟩
theorem keyErase (a0 : Nat) (a1 : Master) (a2 : Nat) : Statement (.keyErase a0 a1 a2) := fun _ => ⟨rfl, rfl⟩
theorem keyRetire (a0 : Nat) (a1 : Nat) : Statement (.keyRetire a0 a1) := fun _ => ⟨rfl, rfl⟩
theorem jobQueued (a0 : Nat) (a1 : Nat) (a2 : JobReq) : Statement (.jobQueued a0 a1 a2) := fun _ => ⟨rfl, rfl⟩
theorem jobResume (a0 : Nat) (a1 : Nat) (a2 : Nat) : Statement (.jobResume a0 a1 a2) := fun _ => ⟨rfl, rfl⟩
theorem jobPromote (a0 : Nat) (a1 : Nat) (a2 : Nat) : Statement (.jobPromote a0 a1 a2) := fun _ => ⟨rfl, rfl⟩
theorem downstreamFrameEncipher (a0 : Nat) (a1 : Nat) (a2 : Nat) : Statement (.downstreamFrameEncipher a0 a1 a2) := fun _ => ⟨rfl, rfl⟩
theorem entropyFail (a0 : Nat) : Statement (.entropyFail a0) := fun _ => ⟨rfl, rfl⟩
theorem loadGo (a0 : Nat) (a1 : Master) : Statement (.loadGo a0 a1) := fun _ => ⟨rfl, rfl⟩
theorem loadComplete (a0 : Nat) : Statement (.loadComplete a0) := fun _ => ⟨rfl, rfl⟩
theorem mateFrameReceive (a0 : Nat) (a1 : MateFrameIn) : Statement (.mateFrameReceive a0 a1) := fun _ => ⟨rfl, rfl⟩
theorem macFrameReceive (a0 : Stamp) (a1 : RxPort) (a2 : Bytes) (a3 : Bool) : Statement (.macFrameReceive a0 a1 a2 a3) := fun _ => ⟨rfl, rfl⟩
theorem classify (a0 : Nat) (a1 : Nat) : Statement (.classify a0 a1) := fun _ => ⟨rfl, rfl⟩
theorem fragAgeOut (a0 : Nat) (a1 : Nat) : Statement (.fragAgeOut a0 a1) := fun _ => ⟨rfl, rfl⟩
theorem graphDefault (a0 : Nat) (a1 : Master) : Statement (.graphDefault a0 a1) := fun _ => ⟨rfl, rfl⟩
theorem commit (a0 : Nat) (a1 : Master) : Statement (.commit a0 a1) := fun _ => ⟨rfl, rfl⟩
theorem commitSwap (a0 : Nat) : Statement (.commitSwap a0) := fun _ => ⟨rfl, rfl⟩
theorem commitTimeout (a0 : Nat) : Statement (.commitTimeout a0) := fun _ => ⟨rfl, rfl⟩
theorem discard (a0 : Nat) (a1 : Master) : Statement (.discard a0 a1) := fun _ => ⟨rfl, rfl⟩
theorem learnRequest (a0 : Nat) : Statement (.learnRequest a0) := fun _ => ⟨rfl, rfl⟩
theorem stashRetry (a0 : Nat) : Statement (.stashRetry a0) := fun _ => ⟨rfl, rfl⟩
theorem holdSweep (a0 : Nat) : Statement (.holdSweep a0) := fun _ => ⟨rfl, rfl⟩
theorem agerVisit (a0 : Nat) (a1 : Nat) : Statement (.agerVisit a0 a1) := fun _ => ⟨rfl, rfl⟩
theorem addrInsertStatic (a0 : Nat) (a1 : Master) (a2 : Nat) : Statement (.addrInsertStatic a0 a1 a2) := fun _ => ⟨rfl, rfl⟩
theorem addrInsertDynamic (a0 : Nat) (a1 : Master) (a2 : Nat) : Statement (.addrInsertDynamic a0 a1 a2) := fun _ => ⟨rfl, rfl⟩
theorem addrDelete (a0 : Nat) (a1 : Master) (a2 : Nat) : Statement (.addrDelete a0 a1 a2) := fun _ => ⟨rfl, rfl⟩
theorem addrFlush (a0 : Nat) (a1 : Master) (a2 : Bytes) : Statement (.addrFlush a0 a1 a2) := fun _ => ⟨rfl, rfl⟩
theorem tableSweep (a0 : Nat) (a1 : Nat) (a2 : Bool) (a3 : Nat) : Statement (.tableSweep a0 a1 a2 a3) := fun _ => ⟨rfl, rfl⟩
theorem freeModeWrite (a0 : Nat) (a1 : Master) (a2 : Nat) : Statement (.freeModeWrite a0 a1 a2) := fun _ => ⟨rfl, rfl⟩
theorem leakSweep (a0 : Nat) : Statement (.leakSweep a0) := fun _ => ⟨rfl, rfl⟩
theorem auditGo (a0 : Nat) (a1 : Master) : Statement (.auditGo a0 a1) := fun _ => ⟨rfl, rfl⟩
theorem auditDone (a0 : Nat) : Statement (.auditDone a0) := fun _ => ⟨rfl, rfl⟩
theorem portHoldExpiry (a0 : Nat) (a1 : Nat) : Statement (.portHoldExpiry a0 a1) := fun _ => ⟨rfl, rfl⟩
theorem termHoldExpiry (a0 : Nat) (a1 : Nat) : Statement (.termHoldExpiry a0 a1) := fun _ => ⟨rfl, rfl⟩
theorem membersWrite (a0 : Nat) (a1 : Master) (a2 : Nat) (a3 : Nat) : Statement (.membersWrite a0 a1 a2 a3) := fun _ => ⟨rfl, rfl⟩
theorem lagRevert (a0 : Nat) (a1 : Nat) (a2 : Nat) : Statement (.lagRevert a0 a1 a2) := fun _ => ⟨rfl, rfl⟩
theorem portWidthWrite (a0 : Nat) (a1 : Master) (a2 : Nat) : Statement (.portWidthWrite a0 a1 a2) := fun _ => ⟨rfl, rfl⟩
theorem scheduleDecision (a0 : Stamp) (a1 : Egress) : Statement (.scheduleDecision a0 a1) := fun _ => ⟨rfl, rfl⟩
theorem peakReset (a0 : Nat) (a1 : Master) : Statement (.peakReset a0 a1) := fun _ => ⟨rfl, rfl⟩
theorem rateSet (a0 : Nat) (a1 : Master) (a2 : Nat) (a3 : Nat) : Statement (.rateSet a0 a1 a2 a3) := fun _ => ⟨rfl, rfl⟩
theorem rateChangeApply (a0 : Nat) : Statement (.rateChangeApply a0) := fun _ => ⟨rfl, rfl⟩
theorem stepAdd (a0 : Nat) (a1 : Master) (a2 : Nat) (a3 : Nat) : Statement (.stepAdd a0 a1 a2 a3) := fun _ => ⟨rfl, rfl⟩
theorem stepSubtract (a0 : Nat) (a1 : Master) (a2 : Nat) (a3 : Nat) : Statement (.stepSubtract a0 a1 a2 a3) := fun _ => ⟨rfl, rfl⟩
theorem stepSetTime (a0 : Nat) (a1 : Master) (a2 : Nat) (a3 : Nat) : Statement (.stepSetTime a0 a1 a2 a3) := fun _ => ⟨rfl, rfl⟩
theorem stepApply (a0 : Nat) : Statement (.stepApply a0) := fun _ => ⟨rfl, rfl⟩
theorem servoAlive (a0 : Nat) (a1 : Master) : Statement (.servoAlive a0 a1) := fun _ => ⟨rfl, rfl⟩
theorem timeHoldover (a0 : Nat) : Statement (.timeHoldover a0) := fun _ => ⟨rfl, rfl⟩
theorem capture (a0 : Nat) (a1 : Master) : Statement (.capture a0 a1) := fun _ => ⟨rfl, rfl⟩
theorem ptpTx (a0 : Nat) (a1 : Master) (a2 : Bytes) : Statement (.ptpTx a0 a1 a2) := fun _ => ⟨rfl, rfl⟩
theorem todUpdate (a0 : Nat) (a1 : Nat) : Statement (.todUpdate a0 a1) := fun _ => ⟨rfl, rfl⟩
theorem ppsOutEdge (a0 : Nat) : Statement (.ppsOutEdge a0) := fun _ => ⟨rfl, rfl⟩
theorem ppsInEdge (a0 : Nat) (a1 : Nat) : Statement (.ppsInEdge a0 a1) := fun _ => ⟨rfl, rfl⟩
theorem rclkSrcWrite (a0 : Nat) (a1 : Master) (a2 : Nat) : Statement (.rclkSrcWrite a0 a1 a2) := fun _ => ⟨rfl, rfl⟩
theorem rclkRestore (a0 : Nat) : Statement (.rclkRestore a0) := fun _ => ⟨rfl, rfl⟩
theorem heartbeatReceive (a0 : Nat) (a1 : HeartbeatIn) : Statement (.heartbeatReceive a0 a1) := fun _ => ⟨rfl, rfl⟩
theorem calibrate (a0 : Nat) (a1 : Master) : Statement (.calibrate a0 a1) := fun _ => ⟨rfl, rfl⟩
theorem calibrationDone (a0 : Nat) (a1 : Nat) : Statement (.calibrationDone a0 a1) := fun _ => ⟨rfl, rfl⟩
theorem portEnableWrite (a0 : Nat) (a1 : Master) (a2 : Nat) (a3 : Nat) : Statement (.portEnableWrite a0 a1 a2 a3) := fun _ => ⟨rfl, rfl⟩
theorem mateEnableWrite (a0 : Nat) (a1 : Master) (a2 : Nat) : Statement (.mateEnableWrite a0 a1 a2) := fun _ => ⟨rfl, rfl⟩
theorem laneStageAdvance (a0 : Nat) (a1 : Nat) (a2 : LaneReport) : Statement (.laneStageAdvance a0 a1 a2) := fun _ => ⟨rfl, rfl⟩
theorem detectRetry (a0 : Nat) (a1 : Nat) : Statement (.detectRetry a0 a1) := fun _ => ⟨rfl, rfl⟩
theorem capabilityFrameSend (a0 : Nat) (a1 : Nat) : Statement (.capabilityFrameSend a0 a1) := fun _ => ⟨rfl, rfl⟩
theorem laneStageTimeout (a0 : Nat) (a1 : Nat) : Statement (.laneStageTimeout a0 a1) := fun _ => ⟨rfl, rfl⟩
theorem exchangeWaitEnd (a0 : Nat) (a1 : Nat) : Statement (.exchangeWaitEnd a0 a1) := fun _ => ⟨rfl, rfl⟩
theorem linkDown (a0 : Nat) (a1 : LinkId) : Statement (.linkDown a0 a1) := fun _ => ⟨rfl, rfl⟩
theorem idleEntry (a0 : Nat) (a1 : Nat) : Statement (.idleEntry a0 a1) := fun _ => ⟨rfl, rfl⟩
theorem idleExit (a0 : Nat) (a1 : Nat) : Statement (.idleExit a0 a1) := fun _ => ⟨rfl, rfl⟩
theorem pauseExpiry (a0 : Nat) (a1 : Nat) : Statement (.pauseExpiry a0 a1) := fun _ => ⟨rfl, rfl⟩
theorem pauseTx (a0 : Nat) (a1 : Nat) : Statement (.pauseTx a0 a1) := fun _ => ⟨rfl, rfl⟩
theorem pauseRepeat (a0 : Nat) (a1 : Nat) : Statement (.pauseRepeat a0 a1) := fun _ => ⟨rfl, rfl⟩
theorem pauseStorm (a0 : Nat) (a1 : Nat) : Statement (.pauseStorm a0 a1) := fun _ => ⟨rfl, rfl⟩
theorem pauseStormEnd (a0 : Nat) (a1 : Nat) : Statement (.pauseStormEnd a0 a1) := fun _ => ⟨rfl, rfl⟩
theorem fecDegradeCheck (a0 : Nat) (a1 : Nat) (a2 : Nat) (a3 : Nat) (a4 : Nat) : Statement (.fecDegradeCheck a0 a1 a2 a3 a4) := fun _ => ⟨rfl, rfl⟩
theorem eyeScan (a0 : Nat) (a1 : Master) (a2 : Nat) : Statement (.eyeScan a0 a1 a2) := fun _ => ⟨rfl, rfl⟩
theorem redundancyEnableWrite (a0 : Nat) (a1 : Master) (a2 : Nat) : Statement (.redundancyEnableWrite a0 a1 a2) := fun _ => ⟨rfl, rfl⟩
theorem joinDecide (a0 : Nat) : Statement (.joinDecide a0) := fun _ => ⟨rfl, rfl⟩
theorem relinquish (a0 : Nat) (a1 : RelinquishCause) : Statement (.relinquish a0 a1) := fun _ => ⟨rfl, rfl⟩
theorem rejoin (a0 : Nat) (a1 : Master) : Statement (.rejoin a0 a1) := fun _ => ⟨rfl, rfl⟩
theorem relinquishRefused (a0 : Nat) : Statement (.relinquishRefused a0) := fun _ => ⟨rfl, rfl⟩
theorem heartbeatMiss (a0 : Nat) : Statement (.heartbeatMiss a0) := fun _ => ⟨rfl, rfl⟩
theorem pathSilent (a0 : Nat) (a1 : Path) : Statement (.pathSilent a0 a1) := fun _ => ⟨rfl, rfl⟩
theorem takeover (a0 : Nat) (a1 : TakeoverCause) : Statement (.takeover a0 a1) := fun _ => ⟨rfl, rfl⟩
theorem mirrorRecordApply (a0 : Nat) (a1 : MirrorRecord) : Statement (.mirrorRecordApply a0 a1) := fun _ => ⟨rfl, rfl⟩
theorem mirrorStale (a0 : Nat) : Statement (.mirrorStale a0) := fun _ => ⟨rfl, rfl⟩
theorem resync (a0 : Nat) (a1 : Master) : Statement (.resync a0 a1) := fun _ => ⟨rfl, rfl⟩
theorem resyncDone (a0 : Nat) : Statement (.resyncDone a0) := fun _ => ⟨rfl, rfl⟩
theorem selfFence (a0 : Nat) : Statement (.selfFence a0) := fun _ => ⟨rfl, rfl⟩
theorem dualActiveFence (a0 : Nat) : Statement (.dualActiveFence a0) := fun _ => ⟨rfl, rfl⟩
theorem faultOccurrence (a0 : Nat) (a1 : List HwReport) : Statement (.faultOccurrence a0 a1) := fun _ => ⟨rfl, rfl⟩
theorem brokenWire (a0 : Nat) (a1 : Nat) (a2 : Nat) : Statement (.brokenWire a0 a1 a2) := fun _ => ⟨rfl, rfl⟩
theorem faultStatusClear (a0 : Nat) (a1 : Master) (a2 : Nat) : Statement (.faultStatusClear a0 a1 a2) := fun _ => ⟨rfl, rfl⟩
theorem ffClear (a0 : Nat) (a1 : Master) : Statement (.ffClear a0 a1) := fun _ => ⟨rfl, rfl⟩
theorem faultTest (a0 : Nat) (a1 : Master) (a2 : Nat) : Statement (.faultTest a0 a1 a2) := fun _ => ⟨rfl, rfl⟩
theorem faultLevelWrite (a0 : Nat) (a1 : Master) (a2 : Nat) : Statement (.faultLevelWrite a0 a1 a2) := fun _ => ⟨rfl, rfl⟩
theorem counterVisit (a0 : Nat) (a1 : Nat) (a2 : Nat) (a3 : CounterRead) : Statement (.counterVisit a0 a1 a2 a3) := fun _ => ⟨rfl, rfl⟩
theorem snapGo (a0 : Nat) (a1 : Master) (a2 : Nat) : Statement (.snapGo a0 a1 a2) := fun _ => ⟨rfl, rfl⟩
theorem snapReady (a0 : Nat) : Statement (.snapReady a0) := fun _ => ⟨rfl, rfl⟩
theorem counterClear (a0 : Nat) (a1 : Master) (a2 : Nat) : Statement (.counterClear a0 a1 a2) := fun _ => ⟨rfl, rfl⟩
theorem swijanRequest (a0 : Nat) (a1 : SwijanFrame) : Statement (.swijanRequest a0 a1) := fun _ => ⟨rfl, rfl⟩
theorem dspRequest (a0 : Nat) (a1 : Bytes) : Statement (.dspRequest a0 a1) := fun _ => ⟨rfl, rfl⟩
theorem dspFetch (a0 : Nat) : Statement (.dspFetch a0) := fun _ => ⟨rfl, rfl⟩
theorem read (a0 : Nat) (a1 : Master) (a2 : Nat) (a3 : Nat) (a4 : Nat) : Statement (.read a0 a1 a2 a3 a4) := fun _ => ⟨rfl, rfl⟩
theorem write (a0 : Nat) (a1 : Master) (a2 : Nat) (a3 : Nat) (a4 : Nat) (a5 : Bytes) : Statement (.write a0 a1 a2 a3 a4 a5) := fun _ => ⟨rfl, rfl⟩
theorem bulkRead (a0 : Nat) (a1 : Master) (a2 : Nat) (a3 : Nat) (a4 : Nat) (a5 : Nat) (a6 : Nat) : Statement (.bulkRead a0 a1 a2 a3 a4 a5 a6) := fun _ => ⟨rfl, rfl⟩
theorem bulkWrite (a0 : Nat) (a1 : Master) (a2 : Nat) (a3 : Nat) (a4 : Nat) (a5 : Nat) (a6 : Nat) (a7 : Bytes) : Statement (.bulkWrite a0 a1 a2 a3 a4 a5 a6 a7) := fun _ => ⟨rfl, rfl⟩
theorem openSession (a0 : Nat) (a1 : Nat) (a2 : Nat) (a3 : Bytes) : Statement (.openSession a0 a1 a2 a3) := fun _ => ⟨rfl, rfl⟩
theorem close (a0 : Nat) (a1 : Master) : Statement (.close a0 a1) := fun _ => ⟨rfl, rfl⟩
theorem nop (a0 : Nat) (a1 : Master) : Statement (.nop a0 a1) := fun _ => ⟨rfl, rfl⟩
theorem lockWrite (a0 : Nat) (a1 : Master) (a2 : Nat) (a3 : Nat) (a4 : Nat) : Statement (.lockWrite a0 a1 a2 a3 a4) := fun _ => ⟨rfl, rfl⟩
theorem lockExpiry (a0 : Nat) (a1 : Nat) (a2 : Nat) : Statement (.lockExpiry a0 a1 a2) := fun _ => ⟨rfl, rfl⟩
theorem leaseWrite (a0 : Nat) (a1 : Master) (a2 : Nat) : Statement (.leaseWrite a0 a1 a2) := fun _ => ⟨rfl, rfl⟩
theorem leaseExpiry (a0 : Nat) : Statement (.leaseExpiry a0) := fun _ => ⟨rfl, rfl⟩
theorem sessionIdleExpiry (a0 : Nat) (a1 : Nat) : Statement (.sessionIdleExpiry a0 a1) := fun _ => ⟨rfl, rfl⟩
theorem pendingSessionExpiry (a0 : Nat) (a1 : Nat) : Statement (.pendingSessionExpiry a0 a1) := fun _ => ⟨rfl, rfl⟩
theorem sessionClose (a0 : Nat) (a1 : Master) (a2 : Nat) : Statement (.sessionClose a0 a1 a2) := fun _ => ⟨rfl, rfl⟩
theorem refLost (a0 : Nat) : Statement (.refLost a0) := fun _ => ⟨rfl, rfl⟩
theorem refGood (a0 : Nat) (a1 : Nat) : Statement (.refGood a0 a1) := fun _ => ⟨rfl, rfl⟩
theorem refRelock (a0 : Nat) (a1 : Nat) (a2 : Int) : Statement (.refRelock a0 a1 a2) := fun _ => ⟨rfl, rfl⟩
theorem refHoldoverFault (a0 : Nat) : Statement (.refHoldoverFault a0) := fun _ => ⟨rfl, rfl⟩
theorem refSelectWrite (a0 : Nat) (a1 : Master) (a2 : Nat) : Statement (.refSelectWrite a0 a1 a2) := fun _ => ⟨rfl, rfl⟩
theorem pdEnableWrite (a0 : Nat) (a1 : Master) (a2 : Nat) (a3 : Nat) : Statement (.pdEnableWrite a0 a1 a2 a3) := fun _ => ⟨rfl, rfl⟩
theorem pdOnDone (a0 : Nat) (a1 : Nat) : Statement (.pdOnDone a0 a1) := fun _ => ⟨rfl, rfl⟩
theorem powerDomainFault (a0 : Nat) (a1 : Nat) : Statement (.powerDomainFault a0 a1) := fun _ => ⟨rfl, rfl⟩
theorem sidebandFrame (a0 : Nat) (a1 : Nat) (a2 : Nat) : Statement (.sidebandFrame a0 a1 a2) := fun _ => ⟨rfl, rfl⟩
theorem powerOnReset (a0 : Nat) (a1 : Nat) : Statement (.powerOnReset a0 a1) := fun _ => ⟨rfl, rfl⟩
theorem dictionaryReady (a0 : Nat) : Statement (.dictionaryReady a0) := fun _ => ⟨rfl, rfl⟩
theorem warmReset (a0 : Nat) (a1 : Master) : Statement (.warmReset a0 a1) := fun _ => ⟨rfl, rfl⟩
theorem dieReset (a0 : Nat) (a1 : Master) (a2 : Nat) : Statement (.dieReset a0 a1 a2) := fun _ => ⟨rfl, rfl⟩
theorem quadReset (a0 : Nat) (a1 : Master) (a2 : Nat) : Statement (.quadReset a0 a1 a2) := fun _ => ⟨rfl, rfl⟩
theorem treeReset (a0 : Nat) (a1 : Master) (a2 : Nat) : Statement (.treeReset a0 a1 a2) := fun _ => ⟨rfl, rfl⟩
theorem treeRestart (a0 : Nat) (a1 : Master) (a2 : Nat) : Statement (.treeRestart a0 a1 a2) := fun _ => ⟨rfl, rfl⟩
theorem resetEnd (a0 : Nat) (a1 : ResetScope) : Statement (.resetEnd a0 a1) := fun _ => ⟨rfl, rfl⟩
theorem treeRelight (a0 : Nat) (a1 : Nat) : Statement (.treeRelight a0 a1) := fun _ => ⟨rfl, rfl⟩
theorem bridgeRelock (a0 : Nat) (a1 : Nat) : Statement (.bridgeRelock a0 a1) := fun _ => ⟨rfl, rfl⟩
theorem entropyRecovery (a0 : Nat) : Statement (.entropyRecovery a0) := fun _ => ⟨rfl, rfl⟩
theorem porstRelease (a0 : Nat) (a1 : Nat) : Statement (.porstRelease a0 a1) := fun _ => ⟨rfl, rfl⟩
theorem mgmtLinkUp (a0 : Nat) : Statement (.mgmtLinkUp a0) := fun _ => ⟨rfl, rfl⟩
theorem mgmtLinkDown (a0 : Nat) : Statement (.mgmtLinkDown a0) := fun _ => ⟨rfl, rfl⟩
theorem otherRefLost (a0 : Nat) (a1 : Nat) : Statement (.otherRefLost a0 a1) := fun _ => ⟨rfl, rfl⟩
theorem relinquishDrainEnd (a0 : Nat) : Statement (.relinquishDrainEnd a0) := fun _ => ⟨rfl, rfl⟩
theorem eyeScanDone (a0 : Nat) (a1 : Nat) (a2 : Nat) (a3 : Nat) : Statement (.eyeScanDone a0 a1 a2 a3) := fun _ => ⟨rfl, rfl⟩
theorem addrFlushDone (a0 : Nat) : Statement (.addrFlushDone a0) := fun _ => ⟨rfl, rfl⟩
theorem resyncFailed (a0 : Nat) : Statement (.resyncFailed a0) := fun _ => ⟨rfl, rfl⟩

end Sys2Proof.Laws.Named
end

