-- ==== Sys2Proof/Tests/Slice0.lean ====
section
/-!
SUPPORT. The author's tests: an ill-formed term for each check of WellFormed, a state and operands that meet the
hypotheses of each statement (`test_hyp_…`, clause by clause), and single steps against the spec's own figures.
-/
namespace Sys2Proof.Tests
open Sys2Proof Sys2Proof.Machine

set_option maxRecDepth 40000
set_option Elab.async false

/-! ### Small states -/

/-- The device up, after a start-up with nothing configured. -/
def up : Dev := { State.reset.dev with chip := { State.reset.dev.chip with phase := .up } }

/-- The device with register instances set. -/
def set (d : Dev) (l : List (Reg × Nat × Nat)) : Dev := l.foldl (fun d x => d.wr x.1 x.2.1 x.2.2) d

/-- The device up with register instances set. -/
def at_ (l : List (Reg × Nat × Nat)) : Dev := set up l

/-- The device as a request at tick 5 finds it, but for the requester's own session. -/
def asFound (d : Dev) : Dev := (d.settleTimes 5).settleMgmt

/-- A state at tick `n`. -/
def st (n : Nat) (d : Dev) : State := ⟨n, [], d⟩

/-- What a command does to a device at tick 0. -/
def run (c : Instr) (d : Dev) : Dev :=
  match exec c (st 0 d) with
  | .next t => t.dev
  | _ => d

/-! ### The queue -/

/-- A queue of two commands; one names element 31 of the trees. -/
def queued : State := { State.reset with pending := [.treeEnableWrite 5 .serial 31 1, .ospCredit 2 31] }

/-- What still waits after a step. -/
def after (s : State) : List Instr :=
  match step s with
  | .next t => t.pending
  | _ => s.pending

theorem test_hyp_StepRunsTheFront : queued.pending ≠ [] ∧ State.reset.pending = [] := by decide +kernel
theorem test_hyp_NamedCommandsComplete :
    (Instr.ospCredit 2 31).namesElements = true ∧ isPowerOn (.ospCredit 2 31) = false ∧
    (Instr.ospCredit 2 31).tick = some 2 := by decide +kernel
theorem test_hyp_OnlyUnnamedElementsStop : (Instr.ospCredit 2 32).namesElements = false := by decide +kernel
theorem test_hyp_NamedQueueRunsToItsEnd :
    (∀ c ∈ queued.pending, c.namesElements = true) ∧ ∀ c ∈ queued.pending, isPowerOn c = false := by decide +kernel
theorem test_hyp_StepKeepsQueueNamed :
    (∀ c ∈ queued.pending, c.namesElements = true) ∧
        after queued = [.ospCredit 2 31] := by decide +kernel

/-! ### The frame -/

/-- Tree 31 lit, 3 ticks of phase left to slew; tree 4 is of a LATENCY quad. -/
def frameDev : Dev :=
  ({ at_ [(.superframe, 0, 2 ^ 51 - 1), (.frameTick, 0, 155520), (.quadProfile, 1, 1)] with
    gnomon := { residual := 3 } }.modTree 31 fun x => { x with lit := true }).modTree 4 fun x => { x with lit := true }

theorem test_hyp_FrameStartAdvances : State.reset.dev.chip.phase = .porst ∧ frameDev.chip.phase ≠ .porst ∧
    (frameDev.mate.relinquishing = none ∧ frameDev.mate.firstFrame = none ∧
      ∀ t < 32, (frameDev.tree t).restarting = false ∨ (frameDev.tree t).lit = false) ∧
    (frameDev.tree 31).lit = true ∧ (frameDev.quad (quadOf 31)).change = 0 := by decide +kernel
/-- R41: the superframe count wraps from 2^51 - 1 to 0. -/
theorem test_superframe_wraps :
    let d := { at_ [(.superframe, 0, 2 ^ 51 - 1), (.frameTick, 0, 155520)] with gnomon := { residual := 3 } }
    (run .frameStart d).rd .superframe 0 = 0 ∧ (run .frameStart d).rd .frameTick 0 = 155520 + 155520 + 1 := by decide +kernel

/-- An ACTIVE unit whose mate link is up and whose mate key is set. -/
def activeDev : Dev :=
  (at_ [(.unitRole, 0, 1), (.redundancyEnable, 0, 1), (.mateState, 0, 1)]).modSlot 32836 fun x =>
    { x with current := some ⟨1, 2, 3⟩ }

theorem test_hyp_MateSendingPoints : activeDev.on .redundancyEnable 0 = true ∧
    (up.on .redundancyEnable 0 = false ∧ up.rd .mateState 0 ≠ 1) ∧
    (let d := at_ [(.mateState, 0, 1)]; d.on .redundancyEnable 0 = false ∧ d.rd .mateState 0 = 1) ∧
    (activeDev.rd .unitRole 0 = 1 ∧ activeDev.rd .mateState 0 ≠ 0 ∧ activeDev.mateKey.isSome = true ∧
      ∀ t < 32, activeDev.mirrorTooLate t = false) ∧
    ¬(up.rd .unitRole 0 = 1 ∧ up.rd .mateState 0 ≠ 0 ∧ up.mateKey.isSome = true ∧
      ∀ t < 32, up.mirrorTooLate t = false) := by decide +kernel

/-- A burst without grants, and a map of bursts. -/
def burstAs (kind : BurstKind) (terminal : Nat) (window : Option Int) (ended : Bool) : MapBurst :=
  { kind, terminal, entry := 0, start := 0, cost := 0, ploam := false, grants := [], window, ended, orphan := false }
def mapAs (sfc : Nat) (point : MapPoint) (bursts : List MapBurst) : Map :=
  { sfc, point, empty := false, bursts, late := [] }

/-- The next map of tree 31, and the sub-map of tree 4, sealed; tree 30 builds its map. -/
def nextMap (p : MapPoint) : Map :=
  mapAs (frameDev.nextMap p).1 (frameDev.nextMap p).2 [burstAs .data 511 none false]
def mapDev : Dev :=
  ((frameDev.modTree 31 fun x => { x with maps := [nextMap .frame] }).modTree 4 fun x =>
    { x with maps := [nextMap (.sub 0)] }).modTree 30 fun x => { x with building := some (nextMap .frame) }

theorem test_hyp_MapBuildingPoints : pointExists .frame = true ∧ pointExists (.sub 7) = true ∧
    31 ∈ frameDev.treesAt .frame ∧ 4 ∈ frameDev.treesAt (.sub 7) ∧ 4 ∉ frameDev.treesAt .frame ∧
    frameDev.treeProfile 31 ≠ 3 ∧ frameDev.carries 31 (frameDev.nextMap .frame).1 = true ∧ frameDev.gated 31 = false ∧
    (frameDev.tree 31).maps = [] := by decide +kernel
theorem test_hyp_MapSendingPoints :
    (30 ∈ mapDev.treesAt .frame ∧ (mapDev.tree 30).building.isSome = true ∧ (mapDev.tree 29).building = none) ∧
    (31 ∈ mapDev.treesAt .frame ∧ mapDev.carries 31 (mapDev.nextMap .frame).1 = true ∧
      (∃ m ∈ (mapDev.tree 31).maps, m.sfc = (mapDev.nextMap .frame).1 ∧ m.point = (mapDev.nextMap .frame).2 ∧
        m.empty = false)) ∧
    (4 ∈ mapDev.treesAt (.sub 0) ∧ mapDev.carries 4 (mapDev.nextMap (.sub 0)).1 = true) := by decide +kernel
/-- R103: with nothing stored or in flight the credit is POOL_SIZE less DRAIN_CAP. -/
theorem test_credit_of_an_empty_tree :
    ((run (.creditSnapshot .frame) (set frameDev [(.bridgeBState, 0, 2)])).tree 31).credit =
      some ((frameDev.rd .poolSize 31 : Int) - frameDev.rd .drainCap 31) ∧
    ((run (.creditSnapshot .frame) frameDev).tree 31).credit = none := by decide +kernel
theorem test_hyp_DrainEstimates : pointExists .frame = true ∧ pointExists (.sub 7) = true := by decide +kernel
/-- R105: 16 ports of 100GE; port 15 is up, port 14 in its hold, port 13 paused. -/
theorem test_drain_estimates :
    let d := (((at_ [(.portState, 15, 1), (.portState, 14, 1), (.portState, 13, 1)]).modPort 14 fun x =>
      { x with hold := some (0, 50) }).modPort 13 fun x => { x with pausedAt := some 0, pauseUntil := 10 ^ 9 })
    let e := run (.creditSnapshot .frame) d
    e.rd .drainEst 15 = 3125000 ∧ e.rd .drainEst 14 = 0 ∧ e.rd .drainEst 13 = 0 ∧ e.rd .drainEst 0 = 0 := by decide +kernel

/-! ### Bridges, profiles, slices -/

/-- Bridge B locked, bridge A down; tree 31's slice gated before a window; quad 7 in ECONOMY. -/
def bridgeDev : Dev :=
  (at_ [(.bridgeAState, 0, 1), (.bridgeBState, 0, 2), (.slicesGated, 7, 8), (.discEnable, 31, 1),
    (.quadProfile, 7, 3)]).modTree 31 fun x => { x with windowFrame := some 0 }

theorem test_hyp_BridgesAndSlices :
    (bridgeDev.rd (bridgeState 1) 0 = 2 ∧ bridgeDev.rd (bridgeState 0) 0 ≠ 2 ∧ bridgeDev.chip.phase ≠ .porst ∧
      bridgeDev.chip.phase ≠ .starting) ∧
    (bridgeDev.gated 31 = true ∧ bridgeDev.on .discEnable 31 = true ∧
      bridgeDev.rd .frameTick 0 + bridgeDev.framesToWindow 31 (bridgeDev.rd .superframe 0) * 155520 ≤
        max 0 (10 ^ 10) + msTicks 2) ∧
    (bridgeDev.treeProfile 31 = 3 ∧ bridgeDev.anyCaptured 31 = false ∧ (bridgeDev.tree 31).captures = 0 ∧
      (bridgeDev.tree 31).windowFrame = some 0 ∧ bridgeDev.quietEnd 31 0 ≤ max 0 (10 ^ 10) ∧
      0 = bridgeDev.rd .superframe 0) ∧
    (let d := set bridgeDev [(.superframe, 0, 100), (.frameTick, 0, 15552000)];
      (d.tree 31).windowFrame = some 0 ∧ d.quietEnd 31 0 ≤ 15552000 ∧ d.wakeDue 15552000 31 = false) := by decide +kernel

/-- Quads 5, 6 and 7 at the three steps of a profile change from BALANCED to REACH. -/
def changeDev : Dev :=
  { ((at_ [(.quadProfile, 5, 2), (.quadProfile, 6, 2), (.quadProfile, 7, 2)]).modQuad 5 fun x => { x with change := 1 }).modQuad 6
    (fun x => { x with change := 2 }) with mgmt := { longOp := some ⟨4, 0, msTicks 40, 21⟩ } }.modQuad 7 fun x =>
      { x with change := 3 }

theorem test_hyp_ProfileChangeSteps :
    ((changeDev.quad 5).change = 1 ∧ changeDev.changeRuns 5 = true) ∧ (changeDev.quad 6).change = 2 ∧
    (changeDev.quad 7).change = 3 ∧ changeDev.mgmt.waitingOps = [] := by decide +kernel
theorem test_hyp_ProfileChangeSteps_terms :
    ∀ x ∈ treesOfQuad 5, ∀ g ∈ termsOfTree x, changeDev.rd .termState g = 0 := by decide +kernel

/-! ### Bursts, defects, seconds -/

/-- A burst of each kind of interest in the sealed map of tree 31: data, discovery, and one that is over. -/
def burstMap : Map := mapAs 0 .frame
  [burstAs .data 511 none false, burstAs .discovery 0 (some 0) false, burstAs .data 510 none true,
   { burstAs .data 509 none false with pulsed := true }]
def burstDev : Dev := (at_ [(.rxrstLead, 31, 400), (.rxrstWidth, 31, 400), (.rxrstLead, 30, 399), (.rxrstWidth, 30, 400)]).modTree 31
  (fun x => { x with maps := [burstMap] }) |>.modTree 30 fun x => { x with maps := [burstMap] }
def noBurst (locked : Bool) : BurstObs :=
  { locked, positions := [], onuId := 0, rdi := false, codewords := 0, correctedBits := 0, uncorrectable := 0, bits := 0,
    reports := [], messages := [], intervals := [], signal := false }

theorem test_hyp_BurstsPulsedAndReceived :
    ((burstDev.burstOf 31 ⟨0, .frame, 0⟩).map (·.pulsed) = some false ∧ burstDev.receives 31 = true ∧
      burstDev.rd .rxrstWidth 31 ≤ burstDev.rd .rxrstLead 31) ∧
    ((burstDev.burstOf 30 ⟨0, .frame, 0⟩).map (·.pulsed) = some false ∧ burstDev.receives 30 = true ∧
      burstDev.rd .rxrstLead 30 < burstDev.rd .rxrstWidth 30) ∧
    ((burstDev.burstOf 31 ⟨0, .frame, 3⟩).map (·.pulsed) = some true ∧
      (set burstDev [(.slicesGated, 7, 8)]).receives 31 = false) ∧
    burstDev.rd .unitRole 0 ≠ 2 ∧ burstDev.burstOf 31 ⟨1, .frame, 0⟩ = none ∧
    ((burstDev.burstOf 31 ⟨0, .frame, 2⟩).map (·.ended) = some true) ∧
    ((burstDev.burstOf 31 ⟨0, .frame, 0⟩).map (fun x => (x.kind, x.orphan, x.ended)) = some (.data, false, false)) ∧
    ((burstDev.burstOf 31 ⟨0, .frame, 1⟩).map (fun x => (x.kind, x.ended,
      burstDev.arrivalOf 31 ⟨0, .frame, 1⟩ x (noBurst true))) = some (.discovery, false, none)) := by decide +kernel

/-- Defects at their limits: tree 30 without a feed, tree 31 with AIS declared and a feed again, tree 29 with LOS about to be
declared, tree 28 with LOS about to clear; terminals 16383 and 15871 of trees 31 and 30. -/
def defectDev : Dev :=
  let d := at_ [(.aisFrames, 30, 3), (.aisFrames, 31, 3), (.treeDefects, 31, 4), (.treeDefects, 28, 1), (.termState, 16383, 2),
    (.termState, 15871, 3), (.termDefects, 15871, 1)]
  let d := d.modTree 30 fun x => { x with feed := false, feedRun := 3 }
  let d := d.modTree 31 fun x => { x with feed := true, feedRun := 3 }
  let d := d.modTree 29 fun x => { x with losSet := some ⟨0, 2⟩ }
  let d := d.modTree 28 fun x => { x with losClr := some ⟨0, 2⟩ }
  let d := d.modTerm 16383 fun x => { x with missRun := 255 }
  d.modTerm 15871 fun x => { x with lockRun := 255 }

theorem test_hyp_TreeDefects :
    (∀ t ∈ [28, 29, 30, 31], defectDev.rd .enableMask t = 0) ∧
    ((defectDev.tree 30).feed = false ∧ defectDev.rd .aisFrames 30 ≤ (defectDev.tree 30).feedRun ∧
      defectDev.treeDefect 30 .ais = false) ∧
    ((defectDev.tree 31).feed = true ∧ defectDev.rd .aisFrames 31 ≤ (defectDev.tree 31).feedRun ∧
      defectDev.treeDefect 31 .ais = true) ∧
    (Timed.ripe (defectDev.tree 29).losSet (max 0 (msTicks 2)) = true ∧ defectDev.treeDefect 29 .los = false) ∧
    (Timed.ripe (defectDev.tree 28).losClr (max 0 (msTicks 2)) = true ∧ defectDev.treeDefect 28 .los = true) := by
  decide +kernel
theorem test_hyp_TreeDefects_terms : ∀ g ∈ termsOfTree 29,
    defectDev.rd .termState g ≠ 2 ∧ defectDev.rd .termState g ≠ 3 ∧ defectDev.rd .termDefects g = 0 := by decide +kernel
theorem test_hyp_TerminalDefects :
    (∀ t ∈ [30, 31], defectDev.unmasked t .losi = true ∧ bitAt (defectDev.rd .enableMask t) 3 = false ∧
      defectDev.rd .termHoldMs t ≠ 0) ∧
    (defectDev.rd .losiBursts (treeOfTerm 16383) ≤ (defectDev.term 16383).missRun ∧
      bitAt (defectDev.rd .termDefects 16383) 0 = false ∧ defectDev.rd .termState 16383 = 2) ∧
    (defectDev.rd .losiBursts (treeOfTerm 15871) ≤ (defectDev.term 15871).lockRun ∧ defectDev.rd .termDefects 15871 = 1 ∧
      defectDev.rd .termState 15871 = 3 ∧ (defectDev.term 15871).treeLos = false) := by decide +kernel

/-- The mate link's defects: `bits` declared, the runs and timers at their limits. -/
def mateDefectDev (bits : Nat) : Dev :=
  let d := at_ [(.mateDefects, 0, bits)]
  { d with mate := { d.mate with aisRun := 2, noAisRun := 2, losSet := some ⟨0, 2⟩, losClr := some ⟨0, 2⟩ } }

theorem test_hyp_DefectsDeclareAndClear_mate :
    ((mateDefectDev 0).mateDefect .los = false ∧ 2 ≤ (mateDefectDev 0).mate.aisRun ∧
      (mateDefectDev 0).mateDefect .ais = false) ∧
    (2 ≤ (mateDefectDev 4).mate.noAisRun ∧ (mateDefectDev 4).mateDefect .ais = true) ∧
    Timed.ripe (mateDefectDev 0).mate.losSet (msTicks 2) = true ∧
    (Timed.ripe (mateDefectDev 1).mate.losClr (msTicks 2) = true ∧ (mateDefectDev 1).mateDefect .los = true) := by
  decide +kernel

/-! ### Seconds, indications, the serial ports -/

/-- The second after the running one; an end that is due; an indication due on tree 31; a credit due on tree 31. -/
def secondDev : Dev :=
  { at_ [(.superframe, 0, 88000), (.treeDefects, 31, 8), (.enableMask, 31, 8), (.repeatMs, 31, 10), (.treeEnable, 31, 1)] with
    pmEnds := [8000] }.modTree 31 fun x => { x with creditDue := true, creditSent := some 87999 }

/-- A PLOAM message (type 1) of 48 bytes, or an OMCI message (type 2), to terminal 511 of tree 31, with its CRC. -/
def hostWire (type : Nat) : Bytes :=
  let b := [type, 0] ++ toBytes 2 16383 ++ toBytes 2 48 ++ toBytes 4 0 ++ List.replicate 48 7
  ospEscape (b ++ toBytes 4 (crc32 b))

theorem test_hyp_SecondsAndSerialPorts :
    secondDev.rd .superframe 0 / 8000 ≠ secondDev.pmSecond ∧ secondDev.pmEnds = 8000 :: [] ∧
    8000 + 80000 ≤ secondDev.rd .superframe 0 ∧
    (secondDev.rd .repeatMs 31 ≠ 0 ∧ bitAt (secondDev.rd .treeDefects 31) 3 = true ∧
      bitAt (secondDev.rd .enableMask 31) 3 = true ∧ (secondDev.tree 31).indAt + msTicks (secondDev.rd .repeatMs 31) ≤ msTicks 10) ∧
    ((secondDev.tree 31).creditDue = true ∧ (secondDev.tree 31).creditSent ≠ some (secondDev.rd .superframe 0)) := by
  decide +kernel
/-- R65: a message with a wrong CRC, and good ones to a tree that is enabled; the queue of tree 31 with room, and full. -/
theorem test_hyp_SecondsAndSerialPorts_host :
    secondDev.chip.phase = .up ∧ State.reset.dev.chip.phase ≠ .up ∧ secondDev.hostMessage [1, 0, 0] = none ∧
    secondDev.hostMessage (hostWire 1) = some (1, false, 16383, List.replicate 48 7) ∧
    secondDev.hostMessage (hostWire 2) = some (2, false, 16383, List.replicate 48 7) ∧
    (secondDev.tree (treeOfTerm 16383)).hostMsgs.length < 64 ∧
    64 ≤ ((secondDev.modTree 31 fun x => { x with hostMsgs := List.replicate 64 (.host false 0 []) }).tree 31).hostMsgs.length := by
  decide +kernel

/-! ### The dictionary -/

/-- An open session 16 with ADMIN rights, the lease held by session 15, a window lock, a sticky source 447. -/
def hostDev : Dev :=
  let d := at_ [(.sessionState, 16, 2), (.sessionPriv, 16, 2), (.sessionKey, 16, 255), (.sessionState, 15, 2), (.sessionPriv, 15, 2)]
  ({ d with mgmt := { d.mgmt with locks := [⟨0x3700, 0, .session 16, 0⟩] } }).modSource 447 fun x => { x with sticky := true }
def leasedDev : Dev := set hostDev [(.leaseReg, 0, 1), (.leaseHolder, 0, 15)]
/-- A long operation runs. -/
def busyDev : Dev := { hostDev with mgmt := { hostDev.mgmt with longOp := some ⟨5, 0, msTicks 300, 0⟩ } }

theorem test_hyp_ChecksComeInOrder :
    (masterExists (.session 16) = true ∧ hostDev.chip.phase = .up ∧ (asFound hostDev).masterOpen (.session 16) = true ∧
      (hostDev.asked 5 (.session 16)).chip.pendingReset = none ∧ (busyDev.asked 5 (.session 16)).mgmt.longOp ≠ none ∧
      (hostDev.asked 5 (.session 16)).mgmt.longOp = none) ∧
    placeAt 0x0FFF 1 = none ∧
    placeAt Reg.treeEnable.row.index Reg.treeEnable.row.sub = some (.reg .treeEnable) ∧
    (Place.reg .treeEnable).hasInstance 32 = false ∧
    ((Place.reg .superframe).hasInstance 0 = true ∧ (Place.reg .superframe).writable = false) ∧
    ((Place.reg .treeEnable).hasInstance 31 = true ∧ (Place.reg .treeEnable).writable = true ∧
      (at_ [(.sessionState, 16, 2), (.sessionPriv, 16, 0)]).mayWrite (.session 16) (.reg .treeEnable) = false ∧
      hostDev.mayWrite (.session 16) (.reg .treeEnable) = true ∧
      leasedDev.leaseRefuses (.session 16) Reg.treeEnable.row.index = true ∧
      hostDev.leaseRefuses (.session 16) Reg.treeEnable.row.index = false) ∧
    ([0, 0].length ≠ Reg.treeEnable.size ∧ [4].length = Reg.lineMode.size ∧
      hostDev.badValue 5 .lineMode 31 (ofBytes [4]) [4] = true ∧
      hostDev.badValue 5 .roleCmd 0 (ofBytes [1]) [1] = false ∧ hostDev.denied 5 (.session 16) .roleCmd 0 (ofBytes [1]) [1] = true) := by
  decide +kernel
theorem test_hyp_ReadAnswersTheValue :
    hostDev.hears 5 (.session 16) = true ∧ Reg.termState.hasInstance 16383 = true ∧ (Place.reg .termState).readable = true ∧
    (hostDev.asked 5 (.session 16)).mayRead (.session 16) 16383 (.reg .termState) = true ∧
    (hostDev.asked 5 (.session 16)).readDenied (.session 16) 16383 (.reg .termState) = false := by decide +kernel
theorem test_hyp_WriteKeepsTheValue :
    actsOnWrite .aisFrames = false ∧ up.accepts 5 .serial .aisFrames 31 (toBytes Reg.aisFrames.size 9) = true ∧
    computed .aisFrames = false ∧ (Place.reg .aisFrames).readable = true ∧
    (run (.write 5 .serial Reg.aisFrames.row.index 31 Reg.aisFrames.row.sub (toBytes Reg.aisFrames.size 9)) up).hears 6 .serial = true ∧
    ((run (.write 5 .serial Reg.aisFrames.row.index 31 Reg.aisFrames.row.sub (toBytes Reg.aisFrames.size 9)) up).asked 6
      .serial).mayRead .serial 31 (.reg .aisFrames) = true := by decide +kernel
/-- The last record of QUEUE_CFG, LAG_BUCKETS and PERMIT_SETS. -/
theorem test_hyp_BulkAccessesMoveRecords :
    up.hears 5 .serial = true ∧ up.rd .unitRole 0 < 2 ∧
    (∀ w ∈ [0x3700, 0x3701, 0x3802], 1 ≤ (winOf w).records ∧ ((winOf w).records - 1) + 1 < 2 ^ 32 ∧
      (up.asked 5 .serial).mayWrite .serial (.data w) = true ∧ (up.asked 5 .serial).leaseRefuses .serial w = false ∧
      (up.asked 5 .serial).lockedAway .serial w 0 = false ∧ (winRow w).isSome = true ∧ 0 < (winOf w).count ∧
      (winOf w).acc ≠ .wo ∧ 0 < recordsThatFit (soleSpace .serial) (winOf w).size ∧
      (up.asked 5 .serial).recordDenied .serial w ((winOf w).records - 1) = false) ∧
    1 ≤ (up.asked 5 .serial).privOf .serial := by decide +kernel
theorem test_hyp_LocksLeasesAndClears :
    hostDev.hears 5 (.session 16) = true ∧ hostDev.hears 5 .serial = true ∧
    ((winRow 0x3700).isSome = true ∧ 0 < (winOf 0x3700).count ∧
      (hostDev.asked 5 (.session 16)).mayWrite (.session 16) (.lock 0x3700) = true ∧
      (hostDev.asked 5 (.session 16)).leaseRefuses (.session 16) 0x3700 = false ∧
      (hostDev.asked 5 (.session 16)).lockedAway (.session 16) 0x3700 0 = false) ∧
    ((hostDev.asked 5 (.session 16)).mayWrite (.session 16) (.data 0x3301) = true ∧
      (hostDev.asked 5 (.session 16)).leaseRefuses (.session 16) 0x3301 = false ∧
      (hostDev.asked 5 (.session 16)).lockedAway (.session 16) 0x3301 0 = false) ∧
    ((hostDev.asked 5 (.session 16)).mayWrite (.session 16) (.reg .leaseReg) = true ∧
      (hostDev.asked 5 (.session 16)).leasedAway (.session 16) = false ∧ leasedDev.hears 5 (.session 16) = true ∧
      (leasedDev.asked 5 (.session 16)).leasedAway (.session 16) = true) ∧
    (leasedDev.rd .leaseHolder 0 ≠ 0 ∧
      leasedDev.mgmt.leaseAt + msTicks (leasedDev.rd .leaseTimeoutMs 0) ≤ msTicks (leasedDev.rd .leaseTimeoutMs 0)) ∧
    (hostDev.lockOf 0x3700 0 = some ⟨0x3700, 0, .session 16, 0⟩) := by decide +kernel
/-- R303: another master's lease answers LOCKED (3), a line mode of 4 BAD_VALUE (4), instance 32 NO_INSTANCE (6). -/
theorem test_checks_answer :
    (run (.treeEnableWrite 5 (.session 16) 31 1) leasedDev).wire = [.response (.session 16) ⟨3, []⟩] ∧
    (run (.lineModeWrite 5 (.session 16) 31 4) hostDev).wire = [.response (.session 16) ⟨4, []⟩] ∧
    (run (.treeEnableWrite 5 (.session 16) 32 1) hostDev).wire = [.response (.session 16) ⟨6, []⟩] := by decide +kernel

/-! ### Writes of the dictionary with an action -/

theorem test_hyp_LongOperationsStart :
    up.acceptsNum 5 .serial .quadProfile 7 3 = true ∧ (up.asked 5 .serial).rd .quadProfile 7 ≠ 3 ∧
    up.acceptsNum 5 .serial .quadProfile 7 0 = true ∧ (up.asked 5 .serial).rd .quadProfile 7 = 0 ∧
    up.acceptsNum 5 .serial .loadGo 0 1 = true ∧ up.acceptsNum 5 .serial .commitGo 0 1 = true ∧
    up.acceptsNum 5 .serial .auditGo 0 1 = true ∧ up.acceptsNum 5 .serial .calibrate 0 1 = true ∧
    (at_ [(.treeEnable, 31, 1)]).acceptsNum 5 .serial .treeRestart 31 1 = true := by decide +kernel

/-- Every power domain on; tree 31 enabled; terminals 16380 to 16383 of tree 31 in RANGING, OPERATION, LOST, quarantine. -/
def termDev : Dev :=
  (at_ [(.treeEnable, 31, 1), (.termState, 16380, 1), (.termState, 16381, 2), (.termState, 16382, 3), (.termState, 16383, 4),
    (.termHoldMs, 31, 50)]).modTree 31 fun x => { x with lit := true }
def poweredDev : Dev := set up ((List.range 20).map fun w => (.pdState, w, 2))

theorem test_hyp_TreesAndTerminalsWritten :
    (poweredDev.acceptsNum 5 .serial .treeEnable 31 1 = true ∧ (poweredDev.asked 5 .serial).on .treeEnable 31 = false ∧
      ((poweredDev.asked 5 .serial).wr .treeEnable 31 1).mayLight 31 = true) ∧
    (termDev.acceptsNum 5 .serial .treeEnable 31 0 = true ∧ (termDev.asked 5 .serial).on .treeEnable 31 = true) ∧
    up.acceptsNum 5 .serial .lineMode 31 3 = true ∧ up.acceptsNum 5 .serial .bpValid 127 0 = true ∧
    up.acceptsNum 5 .serial .bpValid 127 1 = true ∧
    (termDev.acceptsNum 5 .serial .termCommand 16380 1 = true ∧ termDev.acceptsNum 5 .serial .termCommand 16381 1 = true ∧
      (termDev.asked 5 .serial).rd .termHoldMs 31 ≠ 0 ∧ bitAt ((termDev.asked 5 .serial).rd .enableMask 31) 3 = false) ∧
    termDev.acceptsNum 5 .serial .termCommand 16382 2 = true ∧ termDev.acceptsNum 5 .serial .termCommand 16383 3 = true := by
  decide +kernel
theorem test_hyp_TreesAndTerminalsWritten_dark :
    let d := at_ [(.treeEnable, 31, 1)]
    d.acceptsNum 5 .serial .treeEnable 31 0 = true ∧ (d.asked 5 .serial).on .treeEnable 31 = true ∧
    ∀ g ∈ termsOfTree 31, (d.asked 5 .serial).rd .termState g = 0 := by decide +kernel

/-- Slot 16383 holds a key. -/
def keyDev : Dev := up.modSlot 16383 fun x => { x with current := some ⟨1, 2, 3⟩ }

theorem test_hyp_KeysWritten :
    (∀ k ∈ [16383, 32799], up.accepts 5 .serial .keyNext k (toBytes Reg.keyNext.size (2 ^ 57 + 2)) = true) ∧
    keyDev.acceptsNum 5 .serial .keyErase 16383 1 = true ∧ ((keyDev.asked 5 .serial).slot 16383).current ≠ none := by
  decide +kernel

theorem test_hyp_TablesAndBufferWritten :
    up.acceptsNum 5 .serial .graphDefault 0 1 = true ∧ up.acceptsNum 5 .serial .discard 0 1 = true ∧
    (∀ o ∈ [1, 2, 3], up.accepts 5 .serial .addrOp 0 (o :: toBytes 16 (2 ^ 128 - 1)) = true) ∧
    (up.accepts 5 .serial .addrFlush 0 (toBytes Reg.addrFlush.size 0) = true ∧
      (up.asked 5 .serial).addr.flushes = []) ∧
    (up.acceptsNum 5 .serial .freeMode 0 1 = true ∧ (up.asked 5 .serial).rd .freeMode 0 = 0) ∧
    (let d := at_ [(.freeMode, 0, 1)];
      d.acceptsNum 5 .serial .freeMode 0 0 = true ∧ (d.asked 5 .serial).rd .freeMode 0 ≠ 0) ∧
    up.acceptsNum 5 .serial .lagMembers 7 0x8000 = true ∧
    (up.acceptsNum 5 .serial .portWidth 0 2 = true ∧ (up.asked 5 .serial).rd .portWidth 0 ≠ 2) ∧
    up.acceptsNum 5 .serial .peakReset 0 1 = true := by decide +kernel

/-- Port 15 in a hold. -/
def heldPort : Dev := up.modPort 15 fun x => { x with hold := some (0, 50) }
/-- PTP_TX to port 15 in class 7, stamped, of 60 bytes; R239. -/
def ptpRequest : Bytes := [15, 0x47] ++ toBytes 2 60 ++ List.replicate 256 1

theorem test_hyp_TimeObjectsWritten :
    up.accepts 5 .serial .rateSet 0 (toBytes 6 884179995812 ++ toBytes 8 0) = true ∧
    (∀ o ∈ [0, 1, 2], up.accepts 5 .serial .stepSet 0 (o :: (toBytes 12 7 ++ toBytes 8 0)) = true) ∧
    up.acceptsNum 5 .serial .servoAlive 0 1 = true ∧ up.acceptsNum 5 .serial .captureCmd 0 1 = true ∧
    up.acceptsNum 5 .serial .rclkSrc 0 15 = true ∧ (up.asked 5 .serial).rd .rclkSrc 0 = 255 := by decide +kernel
theorem test_hyp_TimeObjectsWritten_ptp :
    heldPort.accepts 5 .serial .ptpTx 0 ptpRequest = true ∧ bitAt (byteAt ptpRequest 1) 6 = true ∧
    (heldPort.asked 5 .serial).portGate 15 = .held ∧
    ((heldPort.asked 5 .serial).takeCells 33 (cellsOf (max 64 (60 + 4))) []).1 = true := by decide +kernel

/-- A FENCED unit, an ACTIVE one, and a STANDBY. -/
def roleDev (role : Nat) : Dev := at_ [(.unitRole, 0, role), (.redundancyEnable, 0, 1), (.mateState, 0, 1)]

theorem test_hyp_LanesAndRolesWritten :
    (up.acceptsNum 5 .serial .portEnable 15 1 = true ∧ (up.asked 5 .serial).rd .portEnable 15 ≠ 1 ∧
      (up.asked 5 .serial).portUp 15 = false ∧ 15 < (up.asked 5 .serial).portCount) ∧
    (let d := at_ [(.portEnable, 15, 1)];
      d.acceptsNum 5 .serial .portEnable 15 0 = true ∧ (d.asked 5 .serial).rd .portEnable 15 ≠ 0) ∧
    (up.acceptsNum 5 .serial .mateEnable 0 1 = true ∧ (up.asked 5 .serial).rd .mateEnable 0 ≠ 1) ∧
    (at_ [(.laneState, 19, 5)]).acceptsNum 5 .serial .eyeScan 19 1 = true ∧
    (up.acceptsNum 5 .serial .redundancyEnable 0 1 = true ∧ (up.asked 5 .serial).rd .redundancyEnable 0 = 0) ∧
    ((roleDev 1).acceptsNum 5 .serial .redundancyEnable 0 0 = true ∧
      ((roleDev 1).asked 5 .serial).rd .redundancyEnable 0 = 1 ∧ ((roleDev 1).asked 5 .serial).mate.relinquishing = none) ∧
    (roleDev 3).acceptsNum 5 .serial .roleCmd 0 2 = true ∧ (roleDev 2).acceptsNum 5 .serial .resync 0 1 = true := by
  decide +kernel

theorem test_hyp_FaultAndCounterObjectsWritten :
    hostDev.acceptsNum 5 .serial .ffClear 0 1 = true ∧ (hostDev.asked 5 .serial).stickySevs ≠ [] ∧
    (up.asked 5 .serial).stickySevs = [] ∧
    (up.acceptsNum 5 .serial .faultTest 0 0xFFFF = true ∧ (up.asked 5 .serial).disabled 447 = false) ∧
    up.acceptsNum 5 .serial .faultLevel 0 3 = true ∧ up.acceptsNum 5 .serial .snapGo 0 (2 ^ 64 - 1) = true ∧
    up.acceptsNum 5 .serial .counterClear 0 (2 ^ 64 - 1) = true := by decide +kernel

/-! ### Sessions and the serial port -/

/-- Sessions 1 to 15 open and session 16 free; key 3 of the sessions held. -/
def sessionDev : Dev :=
  (set up ((List.range 15).map fun k => (.sessionState, k + 1, 2))).modSlot 32835 fun x => { x with current := some ⟨1, 2, 3⟩ }

theorem test_hyp_SessionsOpenAndEnd :
    (sessionDev.chip.phase = .up ∧ (asFound sessionDev).mgmt.longOp = none ∧
      (asFound sessionDev).on .authRequired 0 = false ∧ (asFound sessionDev).sessionsIn 0 = [16]) ∧
    (((asFound sessionDev).slot (32832 + 3)).current ≠ none ∧ (asFound sessionDev).fifthPending = none) ∧
    ((asFound up).mgmt.longOp = none ∧ (asFound (at_ [(.authRequired, 0, 1)])).on .authRequired 0 = true) ∧
    (asFound busyDev).mgmt.longOp ≠ none ∧
    hostDev.acceptsNum 5 .serial .sessionClose 16 1 = true ∧
    (hostDev.rd .sessionState 16 = 2 ∧ (hostDev.session 16).lastAt + msTicks (hostDev.rd .sessionIdleMs 0) ≤ msTicks 30000) ∧
    (let d := at_ [(.sessionState, 16, 1)];
      d.rd .sessionState 16 = 1 ∧ (d.session 16).openedAt + msTicks 1000 ≤ msTicks 1000) := by decide +kernel

/-- A clear request of one NOP, the first of session 16. -/
def nopBody : Bytes :=
  [1, 0, 16, 0] ++ toBytes 4 1 ++ List.replicate 24 0 ++ toBytes 2 48 ++ toBytes 2 1 ++ [7, 0, 0, 0, 0, 0, 0, 0, 0, 0, 0, 0]
def clearDev : Dev := at_ [(.sessionState, 16, 2), (.sessionKey, 16, 255), (.mgmtMac, 0, 0x024951000001)]
def nopFrame (body : Bytes) : SwijanFrame :=
  { arrival := .mgmt, dest := 0x024951000001, source := 5, tags := [], etype := clearDev.rd .swijanEtype 0, body := body,
    limitsOk := true }

theorem test_hyp_SwijanFramesAreJudged :
    let f := nopFrame nopBody
    let a := asFound clearDev
    (clearDev.chip.phase = .up ∧ f.arrival = .mgmt ∧ f.dest = clearDev.rd .mgmtMac 0 ∧ f.dest ≠ 0xFFFFFFFFFFFF) ∧
    ({ f with etype := 0x0800 } : SwijanFrame).etype ≠ clearDev.rd .swijanEtype 0 ∧
    (f.etype = clearDev.rd .swijanEtype 0 ∧ clearDev.pduGood { f with body := [] } = false) ∧
    (clearDev.pduGood { f with body := nopBody.set 1 0x40 ++ List.replicate 16 0 } = true ∧
      bitAt (byteAt (nopBody.set 1 0x40) 1) 6 = true ∧ a.rd .sessionState 15 = 0) ∧
    (clearDev.pduGood f = true ∧ bitAt (byteAt f.body 1) 6 = false ∧ f.body.length = 48 ∧ numAt f.body 32 2 = 48 ∧
      numAt f.body 34 2 = 1 ∧ byteAt f.body 36 = 7 ∧ numAt f.body 44 2 = 0 ∧ byteAt f.body 2 = 16 ∧
      a.rd .sessionState 16 = 2 ∧ a.rd .sessionKey 16 = 255 ∧ a.mgmt.longOp = none ∧ a.chip.pendingReset = none ∧
      numAt f.body 4 4 = (a.rd .lastSeq 16 + 1) % 2 ^ 32) := by decide +kernel
/-- The same SEQ with session 0, and with session 17. -/
theorem test_hyp_SwijanFramesAreJudged_stale :
    clearDev.pduGood (nopFrame (nopBody.set 1 0x40 |>.set 2 17 |>.append (List.replicate 16 0))) = true ∧
    byteAt (nopBody.set 2 17) 2 = 17 := by decide +kernel

/-- A NOP on the serial port: KIND 1, SEQ 9, the twelve bytes of the command, two zeros, the CRC. -/
def dspNop : Bytes := [1, 9, 7, 0, 0, 0, 0, 0, 0, 0, 0, 0, 0, 0]

theorem test_hyp_SerialPortAnswers :
    (up.chip.phase = .up ∧ up.dspPending = false ∧ dspGood [] = false) ∧
    (dspGood (dspNop ++ toBytes 2 (crc16 dspNop)) = true ∧ (asFound up).mgmt.longOp = none ∧
      (asFound up).chip.pendingReset = none ∧ byteAt dspNop 2 = 7) ∧
    (run (.dspRequest 1 (dspNop ++ toBytes 2 (crc16 dspNop))) up).mgmt.dspReady = 0xA5 ∧
    (run (.dspRequest 1 []) up).mgmt.dspReady = 0x3C := by decide +kernel

/-! ### References, power, resets, start-up -/

theorem test_hyp_PowerAndReferences :
    (up.running = true ∧ up.rd .refSelect 0 < 2 ∧ 1 ≠ up.rd .refSelect 0) ∧
    (let d := { at_ [(.refState, 0, 2)] with chip := { up.chip with refGoodA := true, refGoodB := true } };
      d.rd .refState 0 = 2 ∧ d.refIsGood 0 = true ∧ d.refIsGood 1 = true ∧ 0 = d.rd .refSelect 0 ∧ d.on .refAuto 0 = true) ∧
    (let d := { up with chip := { up.chip with holdoverAt := some 0 } };
      d.chip.holdoverAt = some 0 ∧ 0 + msTicks 1 < max 0 (msTicks 1 + 1)) ∧
    (let d := { up with chip := { up.chip with refGoodA := true, refGoodB := true } };
      d.acceptsNum 5 .serial .refSelect 0 1 = true ∧ (d.asked 5 .serial).rd .refSelect 0 ≠ 1) := by decide +kernel
theorem test_hyp_PowerAndReferences_domains :
    (let d := at_ [(.pdEnable, 19, 0), (.pdState, 19, 0)];
      d.acceptsNum 5 .serial .pdEnable 19 1 = true ∧ (d.asked 5 .serial).rd .pdEnable 19 = 0 ∧
      domainDie 19 ∉ (d.asked 5 .serial).chip.dieReset) ∧
    ((at_ [(.pdState, 19, 1)]).rd .pdState 19 = 1 ∧ (∃ w < 20, domainQuad w = none) ∧ ∃ w < 20, domainQuad w = some 7) ∧
    (poweredDev.running = true ∧ ∃ w < 20, poweredDev.rd .pdState w = 2 ∧ domainQuad w = none) ∧
    (poweredDev.rd .pdState (quadDomain 7) = 2 ∧ poweredDev.chip.phase = .up ∧ field 0x5F 4 4 = 5 ∧ poweredDev.rd .sbState 7 ≠ 2 ∧
      (poweredDev.modQuad 7 fun x => { x with badRun := 2 }).quad 7 = { (poweredDev.quad 7) with badRun := 2 }) := by
  decide +kernel
theorem test_hyp_PowerAndReferences_off :
    let w := quadDomain 7
    let d := set poweredDev [(.pdEnable, w, 1)]
    d.acceptsNum 5 .serial .pdEnable w 0 = true ∧ (d.asked 5 .serial).rd .pdEnable w ≠ 0 ∧ domainQuad w = some 7 := by
  decide +kernel

theorem test_hyp_ResetsBeginAndEnd :
    (up.acceptsNum 5 .serial .warmReset 0 1 = true ∧ (up.asked 5 .serial).rd .unitRole 0 ≠ 1 ∧
      (up.asked 5 .serial).mate.relinquishing = none ∧ (up.asked 5 .serial).regs = []) ∧
    (up.acceptsNum 5 .serial .dieReset 0 1 = true ∧ 1 ∉ (up.asked 5 .serial).chip.dieReset) ∧
    (up.acceptsNum 5 .serial .quadReset 7 1 = true ∧ ((up.asked 5 .serial).quad 7).inReset = false ∧
      (((up.modQuad 7 fun x => { x with inReset := true }).asked 5 .serial).quad 7).inReset = true) ∧
    (up.acceptsNum 5 .serial .treeReset 31 1 = true ∧ (up.asked 5 .serial).coveredTree 31 = false ∧
      ((up.asked 5 .serial).tree 31).inReset = false ∧
      ((up.modQuad 7 fun x => { x with inReset := true }).asked 5 .serial).coveredTree 31 = true) := by decide +kernel
/-- Every register reads its default where none is set: every terminal is EMPTY. -/
theorem test_hyp_ResetsBeginAndEnd_terms : Reg.termState.dflt 0 = 0 ∧ Reg.termState.dflt 16383 = 0 ∧
    ∀ t ∈ treesOfQuad 7, ∀ g ∈ termsOfTree t, up.rd .termState g = 0 := by decide +kernel
/-- Die 1, quad 7 and tree 31 in reset; tree 30 restarts alone; tree 29 is due and may light. -/
def resetDev : Dev :=
  let d := set poweredDev [(.treeEnable, 29, 1)]
  let d := { d with chip := { d.chip with dieReset := [1] }, mgmt := { d.mgmt with longOp := some ⟨3, 0, msTicks 10, 2 ^ 30⟩ } }
  let d := d.modQuad 7 fun x => { x with inReset := true }
  (d.modTree 31 fun x => { x with inReset := true }).modTree 30 fun x => { x with restarting := true }
theorem test_hyp_ResetsBeginAndEnd_ends :
    1 ∈ resetDev.chip.dieReset ∧ (resetDev.quad 7).inReset = true ∧ (resetDev.tree 31).inReset = true ∧
    ((resetDev.tree 30).restarting = true ∧
      (∀ x < 32, x ≠ 30 → (resetDev.tree x).restarting = false) ∧ (resetDev.mgmt.longOp.map (·.code)) = some 3 ∧
      resetDev.mgmt.waitingOps = []) ∧
    (let d := (set poweredDev [(.treeEnable, 29, 1)]).modTree 29 fun x => { x with relightDue := true };
      (d.tree 29).relightDue = true ∧ d.mayLight 29 = true ∧ d.mate.firstFrame = none) ∧
    ({ up with chip := { up.chip with phase := .warm } } : Dev).chip.phase = .warm := by decide +kernel
theorem test_hyp_ResetsBeginAndEnd_restart : ∀ g ∈ termsOfTree 30, resetDev.rd .termState g = 0 := by decide +kernel

/-- The device after the straps are released, both references good, the management link up. -/
def startingDev : Dev :=
  { at_ [(.mgmtState, 0, 1)] with chip := { up.chip with phase := .starting, refGoodA := true, refGoodB := true } }

theorem test_hyp_PowerOnAndStartUp :
    State.reset.dev.chip.phase = .porst ∧
    (startingDev.chip.phase = .starting ∧ startingDev.chip.refGoodA = true ∧ startingDev.chip.refGoodB = true ∧
      startingDev.rd .mgmtState 0 = 1 ∧ startingDev.faults.arriving = []) ∧ up.running = true := by decide +kernel
/-- R340: nothing of a set register outlives a power-on reset of 1 us; one of 999 ns changes nothing. -/
theorem test_power_on :
    (run (.powerOnReset 7 1000) (at_ [(.treeEnable, 31, 1)])).regs = [] ∧
    (run (.powerOnReset 7 999) (at_ [(.treeEnable, 31, 1)])).rd .treeEnable 31 = 1 := by decide +kernel
/-- R339: MGMT_MAC is 02:49:51:00:00:00 with the straps' low byte. -/
theorem test_straps :
    let d := run (.porstRelease 9 0x2A7) State.reset.dev
    d.rd .mgmtMac 0 = 0x0249510000A7 ∧ d.rd .unitId 0 = 1 ∧ d.rd .mgmtMode 0 = 0 := by decide +kernel

/-! ### Activation, reports, the Quarry -/

/-- Tree 31 lit, its window in frame 0, whose map has two idle slots; entry 1023 of the list refreshed at tick 0. -/
def windowDev : Dev :=
  (at_ [(.discEnable, 31, 1), (.discPhase, 31, 0), (.listValid, 1023, 1)]).modTree 31 fun x =>
    { x with lit := true, listRefresh := [(1023, 0)], maps := [{ mapAs 0 .frame [] with idle := [(0, 4000), (9000, 12000)] }] }
/-- What a pulse may see: light or nothing, in the second slot. -/
def rogueSeen (seen : Bool) (sfc : Nat := 0) : RogueObs := { sfc, slots := [darkSlot, ⟨false, seen, false, 0⟩], named := some 511 }

theorem test_hyp_RangingAndReports :
    ((windowDev.tree 31).lit = true ∧ windowDev.framesToWindow 31 (windowDev.rd .superframe 0) = 0 ∧
      (windowDev.tree 31).announcedIn ≠ some (windowDev.rd .superframe 0) ∧ windowDev.on .discEnable 31 = true ∧
      (set windowDev [(.discEnable, 31, 0)]).on .discEnable 31 = false) ∧
    (((windowDev.tree (1023 / 32)).listRefresh.find? fun p => p.1 == 1023) = some (1023, 0) ∧
      0 + msTicks 60000 ≤ max 0 (msTicks 60000)) ∧
    (windowDev.watched 31 (rogueSeen true) ≠ [] ∧ windowDev.receives 31 = true ∧ (windowDev.tree 31).watchedTo ≤ 0 ∧
      windowDev.rd .sbState (quadOf 31) ≠ 2 ∧ windowDev.on .rssiEnable 31 = false ∧ windowDev.on .rogueAuto 31 = false ∧
      (∃ x ∈ windowDev.watched 31 (rogueSeen true), x.2.lock = true ∨ x.2.signal = true) ∧
      (∀ x ∈ windowDev.watched 31 (rogueSeen false), x.2.lock = false ∧ x.2.signal = false) ∧
      windowDev.watched 31 (rogueSeen true 1) = [] ∧
      0 < ((windowDev.modTree 31 fun x => { x with watchedTo := 1 }).tree 31).watchedTo) ∧
    (let d := (set windowDev [(.superframe, 0, 16), (.termState, 16383, 1)]).modTerm 16383 fun x => { x with triesLeft := 2 };
      d.rd .termState 16383 = 1 ∧ 16383 ∉ (d.tree 31).rangeWanted ∧ (d.term 16383).tryFrame + 16 ≤ d.rd .superframe 0 ∧
      1 < (d.term 16383).triesLeft ∧ (d.term 16382).triesLeft ≤ 1) ∧
    (let d := (set windowDev [(.termState, 16383, 1), (.termState, 16382, 3)]).modTerm 16383 (fun x =>
        { x with rangeAt := some 0, lostTicks := 7 }) |>.modTerm 16382 fun x => { x with lostAt := some 0, lostTicks := 7 };
      d.rd .termState 16383 = 1 ∧ (d.term 16383).rangeAt = some 0 ∧ 0 + (d.term 16383).lostTicks ≤ 7 ∧
      d.rd .termState 16382 = 3 ∧ (d.term 16382).lostAt = some 0 ∧ 0 + (d.term 16382).lostTicks ≤ 7) ∧
    (let d := (set windowDev [(.termState, 16383, 2), (.termHoldMs, 31, 50)]).modTerm 16383 fun x => { x with jumpRun := 8 };
      d.rd .termState 16383 = 2 ∧ 8 ≤ (d.term 16383).jumpRun ∧ d.rd .termHoldMs 31 ≠ 0 ∧
      bitAt (d.rd .enableMask 31) 3 = false) ∧
    (let d := up.modAlloc 65535 fun x => { x with missRun := up.rd .reportMissMax 31 };
      d.rd .reportMissMax (treeOfAlloc 65535) ≤ (d.alloc 65535).missRun) := by decide +kernel

theorem test_hyp_KeysRetireAndLoad :
    (let d := up.modSlot 32837 fun x => { x with retiring := true };
      (d.slot 32837).retiring = true ∧ (d.slot 32837).retireAt ≤ d.rd .superframe 0) ∧
    (let d := { up with mgmt := { up.mgmt with longOp := some ⟨2, 0, msTicks 20, 0⟩ } };
      d.opRuns 2 = true ∧ d.mgmt.waitingOps = [] ∧
      (d.takeKey 32837).checkLoad d.mgmt.loadRecords [] = .passes [] ∧ (d.takeKey 32837).checkLoad [(65535, 0)] [] = .fails 2 65535) := by
  decide +kernel

/-- A job of the given class and number of blocks, from the integrity codes of tree 31 or of a grant. -/
def jobOf (id cls blocks : Nat) (src : JobSource) : Job :=
  { id, src, base := cls, cls, slot := none, ctr := 0, pos := 0, blocks, mac := 0, waited := 0, since := 0 }
def gcmJob (id : Nat) : Job := jobOf id 4 4 .gcm
def grantSource : JobSource := .grant 31 5 ⟨0, .frame, 0⟩
/-- Bank 7 with 640 jobs that run, of class 4 but for the first, and with `held` suspended. -/
def bankDev (held : Nat) : Dev :=
  let b : Bank := { running := jobOf 0 2 8 grantSource :: List.replicate 639 (gcmJob 1), suspended := List.replicate held (gcmJob 3) }
  poweredDev.modBank 7 fun _ => b
/-- Bank 7 with one job, which makes keystream for a burst of tree 31. -/
def grantDev : Dev :=
  (poweredDev.modBank 7 fun _ => { running := [jobOf 0 2 8 grantSource] }).modTree 31 fun x =>
    { x with keystream := [⟨⟨0, .frame, 0⟩, 5, 128, 16383, 0, 2, 128, 0, []⟩] }
/-- Every bank holds eight management jobs. -/
def gcmFull : Dev := { poweredDev with banks := (List.range 8).map fun q => (q, { queue := List.replicate 8 (gcmJob 1) }) }

theorem test_hyp_JobsRunAndResume :
    (sourceBank (.integrity 31) = some 7 ∧ poweredDev.bankOn 7 = true ∧
      ((poweredDev.settleBank 0 7).bank 7).running.length < 640) ∧
    (poweredDev.settleBanks 0).mgmt.gcmWaiting = [] ∧ (poweredDev.settleBanks 0).nextGcmBank = some 0 ∧
    ((poweredDev.settleBanks 0).bank 0).running.length < 640 ∧ gcmFull.nextGcmBank = none ∧
    (jobOf 0 2 8 grantSource ∈ (grantDev.bank 7).running ∧
      0 + 8 * grantDev.blockTicks 7 ≤ 8 * grantDev.blockTicks 7 ∧ grantDev.mgmt.gcmWaiting = [] ∧
      (grantDev.bank 7).running = [jobOf 0 2 8 grantSource] ∧ (grantDev.bank 7).suspended = [] ∧ (grantDev.bank 7).queue = [] ∧
      ((grantDev.tree 31).keystream.any fun k => k.burst == ⟨0, .frame, 0⟩ && k.alloc == 5) = true) := by decide +kernel
/-- A full bank: a class that finds a victim, with room to suspend it and without, and one that finds none. -/
theorem test_hyp_JobsRunAndResume_full :
    640 ≤ (((bankDev 63).settleBank 0 7).bank 7).running.length ∧
    victim 3 (((bankDev 63).settleBank 0 7).bank 7).running = some (gcmJob 1) ∧
    victim 4 (((bankDev 63).settleBank 0 7).bank 7).running = none ∧
    (((bankDev 63).settleBank 0 7).bank 7).suspended.length < 64 ∧
    64 ≤ (((bankDev 64).settleBank 0 7).bank 7).suspended.length ∧
    (gcmJob 1).madeBy (max 0 0) ((bankDev 63).blockTicks 7) + 1 < (gcmJob 1).blocks := by decide +kernel

/-- Tree 31 lit, one frame of 16 bytes in its payload for terminal 16383, `room` bytes of the running frame left; ports of each
mode. -/
def downFrame : DownFrame := { terminal := 16383, encPort := 4095, bytes := List.replicate 16 1, sampled := none, t0 := 0 }
def cipherDev (mode room : Nat) : Dev :=
  let d := (poweredDev.modTree 31 fun x => { x with lit := true, payload := [downFrame], payloadBytes := 100, room := room })
  let d := d.setWin 0x3400 (31 * 1024 + 1023) (mode * 64)
  (d.modSlot 16383 fun x => { x with current := some ⟨1, 2, 2⟩ }).modSlot 32799 fun x => { x with current := some ⟨1, 2, 1⟩ }
/-- The cutters of bank 7 are all taken for a long time. -/
def lateDev : Dev :=
  (cipherDev 1 100).modBank 7 fun _ => { running := List.replicate 640 (jobOf 0 0 100000 grantSource) }

theorem test_hyp_FramesEncipherDownstream :
    (∀ v ∈ [0, 1, 2, 3], (cipherDev v 100).portMode 31 4095 = v ∧ (cipherDev v 100).portMode 31 4094 = 0) ∧
    ((cipherDev 1 100).tree 31).payload = [downFrame] ∧ (cipherDev 1 100).rd .superframe 0 ≠ 1 ∧ ((cipherDev 1 100).tree 31).lit = true ∧
    (∀ room ∈ [9, 100], encHeader < ((cipherDev 1 room).tree 31).room) ∧ ((cipherDev 1 8).tree 31).room ≤ encHeader ∧
    bitAt ((cipherDev 1 100).rd .treeDefects 31) 2 = false ∧ ((cipherDev 1 100).slot 16383).current = some ⟨1, 2, 2⟩ ∧
    ((cipherDev 2 100).slot (32768 + 31)).current = some ⟨1, 2, 1⟩ ∧
    (((cipherDev 1 100).modSlot 16383 fun _ => {}).slot 16383).current = none := by decide +kernel
/-- R118: the keystream is there in time, and is late behind 640 long jobs of a more urgent class. -/
theorem test_hyp_FramesEncipherDownstream_keystream :
    ((cipherDev 1 100).downKeystream 5 31 16383 0 16).1 = true ∧ (lateDev.downKeystream 5 31 16383 0 16).1 = false := by
  decide +kernel
/-- R43: what does not fit waits for the next payload; R117: a port of mode 0 is not enciphered. -/
theorem test_encipher :
    (run (.downstreamFrameEncipher 5 31 0) (cipherDev 0 100)).wire = [.treeFrame 31 16383 4095 0 0 0 0 true (List.replicate 16 1)] ∧
    (run (.downstreamFrameEncipher 5 31 0) (cipherDev 0 12)).wire = [.treeFrame 31 16383 4095 0 0 88 0 false [1, 1, 1, 1]] ∧
    (((run (.downstreamFrameEncipher 5 31 0) (cipherDev 0 12)).tree 31).payload.map fun f => (f.bytes.length, f.placed)) =
      [(12, 4)] := by decide +kernel

/-! ### Frames -/

/-- Port 15 up, its store filled to the last byte but 64. -/
def portDev : Dev := at_ [(.portState, 15, 1), (.mgmtState, 0, 1), (.pauseRxEnable, 15, 1)]
def waitingOf (kind num length : Nat) (b : Bytes) : Waiting :=
  { srcKind := kind, srcNum := num, encPort := 0, bytes := b, length, stamp := 0, rxTime := 0, at_ := 0 }
def macFrame (etype op q n : Nat) : Bytes := List.replicate 12 3 ++ toBytes 2 etype ++ toBytes 2 op ++ toBytes 2 q ++ List.replicate n 0

theorem test_hyp_MacFramesReceived :
    portDev.chip.phase = .up ∧ portDev.portUp 15 = true ∧ (macFrame 0x800 0 0 41).length = 59 ∧ portDev.rd .maxlen 0 < (macFrame 0x800 0 0 16000).length + 4 ∧
    (60 ≤ (macFrame 0x8808 1 9 42).length ∧ (macFrame 0x8808 1 9 42).length + 4 ≤ portDev.rd .maxlen 0 ∧
      isCapability (macFrame 0x8808 1 9 42) = false ∧ isCapability (macFrame 0x800 0 0 42) = false ∧
      numAt (macFrame 0x8808 1 9 42) 12 2 = 0x8808 ∧ numAt (macFrame 0x8808 1 9 42) 14 2 = 1 ∧
      numAt (macFrame 0x8808 1 9 42) 16 2 ≠ 0 ∧ numAt (macFrame 0x8808 2 9 42) 14 2 ≠ 1 ∧
      numAt (macFrame 0x800 1 9 42) 12 2 ≠ 0x8808) ∧
    (portDev.obeysPause 15 = true ∧ (portDev.port 15).pausedAt = none ∧
      (portDev.modPort 15 fun x => { x with negotiated := some (false, true) }).obeysPause 15 = false) ∧
    portDev.storeBytes 15 + (60 + 4) ≤ 65536 ∧
    65536 < (portDev.modPort 15 fun x => { x with store := [waitingOf 0 15 65500 []] }).storeBytes 15 + (60 + 4) ∧
    (portDev.rd .mgmtState 0 ≠ 0 ∧ numAt (macFrame 0x800 0 0 42) 0 6 ≠ portDev.rd .mgmtMac 0 ∧
      numAt (macFrame 0x800 0 0 42) 0 6 ≠ 0xFFFFFFFFFFFF) := by decide +kernel

/-- VERDICT 1. -/
def dropAction : Nat := 0x40000000000000000000000000000000
/-- A valid rule with an empty mask, which any key matches, and an action that drops. -/
def anyRule : Nat := dropAction * 2 ^ 64 + 2 ^ 56
/-- An IPv4 frame whose TOTAL LENGTH lies beyond its end. -/
def longIp : Bytes := List.replicate 12 3 ++ [8, 0, 0x45, 0, 0xFF, 0xFF] ++ List.replicate 42 0
theorem test_hyp_FramesClassified_rule :
    (let x := parseFrame up.active (up.rd .startUplink 0) (macFrame 0x88B5 0 0 42);
      matchRule [(4095, anyRule)] (x.key 0 15 0 (up.rd .portClassSrcMeta 15) (x.flags false)) = some (4095, dropAction)) ∧
    (let x := parseFrame { up.active with nodes := defaultNodes, transitions := defaultTransitions } (up.rd .startUplink 0) longIp;
      x.conflict = true ∧ x.frag = false) := by decide +kernel

/-- A frame of another EtherType, from tree terminal 16383 and from port 15; each at the head of its store. -/
def classDev : Dev :=
  (up.modPort 15 fun x => { x with store := [waitingOf 0 15 64 (macFrame 0x88B5 0 0 42)] })
def classTree : Dev := { classDev with treeWaiting := [waitingOf 1 16383 64 (macFrame 0x88B5 0 0 42)] }

theorem test_hyp_FramesClassified :
    (let x := parseFrame up.active (up.rd .startUplink 0) (macFrame 0x88B5 0 0 42);
      x.frag = false ∧ x.conflict = false ∧
      matchRule up.active.rules (x.key 0 15 0 (up.rd .portClassSrcMeta 15) (x.flags false)) = none) ∧
    (let a := classDev.settleSends 5;
      nextTreeFrame 5 a.treeWaiting = none ∧ a.portInTurn 5 15 = true ∧
      (a.port 15).store.head? = some (waitingOf 0 15 64 (macFrame 0x88B5 0 0 42)) ∧
      ({ a with sched := { a.sched with taken := some (5, 15) } } : Dev).portInTurn 5 14 = false) ∧
    nextTreeFrame 5 (classTree.settleSends 5).treeWaiting = some (waitingOf 1 16383 64 (macFrame 0x88B5 0 0 42)) ∧ up.rd .lenConflictAction 0 = 0 ∧
    (let v := up.active.defUplink; (actionOf v).verdict = 1 ∧ (actionOf v).learn = false ∧ (actionOf v).sample = false) ∧
    (let v := up.active.defTree; (actionOf v).verdict = 1 ∧ (actionOf v).learn = false ∧ (actionOf v).sample = false) := by
  decide +kernel

/-! ### Tables -/

def opDev (code since : Nat) : Dev := { up with mgmt := { up.mgmt with longOp := some ⟨code, since, msTicks 4, 0⟩ } }
def fragOf : Frag := ⟨4, 1, 2, 17, 9, 5, 6, 0⟩

/-- A commit that runs since tick 0, its next number free from tick `ready` on. -/
def commitDev (ready : Option Nat) : Dev :=
  { up with mgmt := { up.mgmt with longOp := some ⟨1, 0, msTicks 4, 0⟩, commitReady := ready } }

theorem test_hyp_CommitsSwapOrEnd :
    ((commitDev (some (msTicks 4))).mgmt.longOp = some ⟨1, 0, msTicks 4, 0⟩ ∧
      (commitDev (some (msTicks 4))).commitInTime ⟨1, 0, msTicks 4, 0⟩ = true ∧
      (commitDev (some (msTicks 4))).mgmt.waitingOps = []) ∧
    ((commitDev (some (msTicks 4 + 1))).commitInTime ⟨1, 0, msTicks 4, 0⟩ = false ∧
      (commitDev none).commitInTime ⟨1, 0, msTicks 4, 0⟩ = false ∧ 0 + msTicks 4 ≤ max 0 (msTicks 4)) ∧
    (let d := { up with frags := List.replicate 8192 fragOf };
      d.frags[8191]? = some fragOf ∧ fragOf.refreshed + msTicks (d.rd .fragAge 0) ≤ max 0 (msTicks (d.rd .fragAge 0))) := by
  decide +kernel

/-- The entry of an address, and the Address Table with entries at the given places and a queue. -/
def addrOf (mac : Nat) (static hit : Bool) (age : Nat) : AddrEntry := ⟨mac, 0, 0, 15, static, hit, age, true, 0⟩
def addrDev (l : List (Nat × AddrEntry)) (q : List LearnItem) : Dev := { up with addr := { up.addr with entries := l, queue := q } }
/-- The place of an address in its first bucket. -/
def placeOf (mac : Nat) : Nat := (up.freeCandidate (addrOf mac false false 0)).getD 0

theorem test_hyp_AddressesLearnedAndSwept :
    (let d := addrDev [] [.learn 0 7 0 15];
      d.addrLocked = false ∧ d.addrFind 0 7 = none ∧ (d.freeCandidate (addrOf 7 false true 0)).isSome = true) ∧
    (let d := addrDev [(placeOf 7, addrOf 7 false false 0)] [.learn 0 7 0 15];
      d.addrFind 0 7 = some (placeOf 7, addrOf 7 false false 0)) ∧
    (let d := addrDev [(placeOf 7, addrOf 7 true false 0)] [.learn 0 7 0 14];
      d.addrFind 0 7 = some (placeOf 7, addrOf 7 true false 0)) ∧
    (let d := addrDev [(0, addrOf 7 false true 0), (1, addrOf 8 false false 6), (524351, addrOf 9 false false 7)] [];
      Tab.find d.addr.entries 0 = some (addrOf 7 false true 0) ∧ Tab.find d.addr.entries 1 = some (addrOf 8 false false 6) ∧
      Tab.find d.addr.entries 524351 = some (addrOf 9 false false 7) ∧ d.rd .ageTime 0 ≠ 0 ∧
      (Tab.keys d.addr.entries).filter (524288 ≤ ·) = [524351] ∧ Tab.get 0 d.addr.visited 524351 + d.agePeriod ≤ 10 ^ 12 ∧
      5 < Tab.get 0 d.addr.visited 524351 + d.agePeriod ∧
      d.freeCandidate (addrOf 9 false false 7) ≠ none ∧ d.freeCandidate (addrOf 9 false false 7) ≠ some 524351) ∧
    (sweptBlock 0).isSome = true ∧ up.disabled 416 = false ∧ up.sweepDue (msTicks (up.rd .sweepPeriodMs 0)) 0 = true ∧
    up.sweepDue (msTicks (up.rd .sweepPeriodMs 0) - 1) 0 = false := by decide +kernel
/-- Both buckets of address 9 are full; the first way holds address 7, whose other bucket has a free way. -/
def fullDev : Dev :=
  let x := addrOf 9 false false 7
  addrDev (((List.range 4).map fun i => (up.bucket0 x * 4 + i, addrOf 7 true false 0)) ++
    ((List.range 4).map fun i => (up.bucket1 x * 4 + i, addrOf 8 true false 0)) ++ [(524351, x)]) []
theorem test_hyp_AddressesLearnedAndSwept_victim :
    let x := addrOf 9 false false 7
    fullDev.freeCandidate x = none ∧ (Tab.keys fullDev.addr.entries).filter (524288 ≤ ·) = [524351] ∧
    Tab.find fullDev.addr.entries (fullDev.bucket0 x * 4 + fullDev.addr.victim % 4) = some (addrOf 7 true false 0) ∧
    (fullDev.freeWay (fullDev.otherBucket (addrOf 7 true false 0) (fullDev.bucket0 x))).isSome = true := by decide +kernel
/-- R174: a flush of every dynamic entry leaves a static one and a key learned behind its position. -/
theorem test_flush :
    let d := addrDev [(1, addrOf 7 false false 0), (2, addrOf 8 true false 0), (3, addrOf 9 false false 0)] []
    let f : AddrFlush := { kind := 0, domain := 0, dest := 0, start := 0, pos := 9, spared := [(0, 9)] }
    (run (.addrFlushDone 5) { d with addr := { d.addr with flushes := [f] } }).addr.entries =
      [(2, addrOf 8 true false 0), (3, addrOf 9 false false 0)] := by decide +kernel
/-- R173: an entry hit since the last visit starts at age 0; R169: a new address lies in a way of one of its two buckets. -/
theorem test_ager_and_learner :
    Tab.find (run (.agerVisit (10 ^ 12) 3) (addrDev [(3, addrOf 7 false true 5)] [])).addr.entries 3 = some (addrOf 7 false false 0) ∧
    (run (.learnRequest 5) (addrDev [] [.learn 0 7 0 15])).addr.entries = [(placeOf 7, addrOf 7 false true 0)] := by decide +kernel

/-! ### The buffer and egress -/

/-- A frame of 60 bytes from port 15 for the host, for terminal 16383, for port 15, in cell 5. -/
def descOf (kind dest entry : Nat) : Desc :=
  ⟨0, 60, kind, dest, 0, 0, 0, false, 0, entry, 0, 0, 0, 15, 33, false, false, false, false, false, 0, 0, 0, none, 0, false,
    none, none, 0, false, 0, none⟩
def bufferDev (kind dest q : Nat) : Dev :=
  let b : Buffer := { chains := [(0, ⟨[5], 1, List.replicate 60 1, 33⟩)], descs := [(0, descOf kind dest 65535)], queues := [(q, [0])] }
  { at_ [(.portState, 15, 1), (.termState, 16383, 2), (.mgmtState, 0, 1), (.bridgeBState, 0, 2)] with buf := b }

theorem test_hyp_BufferSweepsAndHolds :
    up.opRuns 5 = false ∧ ((opDev 5 0).opRuns 5 = true ∧ (opDev 5 0).mgmt.waitingOps = []) ∧
    ((heldPort.port 15).hold = some (0, 50) ∧ 0 + msTicks 50 ≤ max 0 (msTicks 50)) ∧
    ((up.modTerm 16383 fun x => { x with hold := some (0, 50) }).term 16383).hold = some (0, 50) ∧
    (let d := (at_ [(.lagMembers, 7, 0x8000)]).modPort 15 fun x => { x with revertAt := some 9, lost := [2047] };
      (d.port 15).revertAt = some 9 ∧ 2047 ∈ (d.port 15).lost ∧ d.groupOfPort 15 = some 7) := by decide +kernel
/-- Cell 5 is in use and no chain owns it: a leaked cell. -/
theorem test_hyp_BufferSweepsAndHolds_leak :
    let d := { up with buf := { up.buf with rings := [(5, { fresh := 1 })] } }
    let a := d.settleSends 5
    let noted := ({ a with buf := { a.buf with noted := [5] } } : Dev).buf.noted
    (a.usedCells.filter fun c => !a.ownedCells.contains c) = [5] ∧ [5].filter a.buf.noted.contains = [] ∧
    [5].filter noted.contains = [5] := by decide +kernel

theorem test_hyp_ScheduleDecides :
    (egressExists (.port 15) = true ∧ egressExists (.tree 31) = true ∧ (up.settleSends 5).choose 5 .host = none) ∧
    (let a := (bufferDev 0 15 (upQueue 15 0)).settleSends 5; let x := descOf 0 15 65535;
      ((a.choose 5 (.port 15)).map (·.queue)) = some (upQueue 15 0) ∧ a.queue (upQueue 15 0) = [0] ∧ a.desc 0 = some x ∧
      a.sched.permitBad.contains (upQueue 15 0) = false ∧ a.permitted (upQueue 15 0) x.domain = true ∧
      x.owns (upQueue 15 0) = true ∧ x.poison = false ∧ ¬(x.length < x.editedLength ∧ a.rd .maxlen 0 < x.editedLength) ∧
      ({ a with sched := { a.sched with permitBad := [upQueue 15 0] } } : Dev).sched.permitBad.contains (upQueue 15 0)
        = true) := by decide +kernel
theorem test_hyp_ScheduleDecides_others :
    (let a := (bufferDev 2 0 hostQueue).settleSends 5; let x := descOf 2 0 65535;
      ((a.choose 5 .host).map (·.queue)) = some hostQueue ∧ a.permitted hostQueue x.domain = true ∧
        x.owns hostQueue = true) ∧
    (let a := ((bufferDev 1 (16383 * 4096) (downQueue 16383 0)).modTree 31 fun x => { x with lit := true }).settleSends 5;
      let x := descOf 1 (16383 * 4096) 65535;
      ((a.choose 5 (.tree 31)).map (·.queue)) = some (downQueue 16383 0) ∧
        a.permitted (downQueue 16383 0) x.domain = true ∧ x.owns (downQueue 16383 0) = true ∧
        ¬(a.permitted (downQueue 16382 0) x.domain = true ∧ x.owns (downQueue 16382 0) = true)) := by decide +kernel
/-- R211: a frame at the head of another terminal's queue does not leave. -/
theorem test_isolation :
    let d := (bufferDev 1 (16382 * 4096) (downQueue 16383 0)).modTree 31 fun x => { x with lit := true }
    let e := run (.scheduleDecision ⟨5, 0⟩ (.tree 31)) d
    e.wire = [] ∧ e.queue (downQueue 16383 0) = [] ∧ e.rd .isolationDrop 0 = 1 := by decide +kernel

/-! ### Time -/

theorem test_hyp_ClockChangesApply :
    (let d := { up with gnomon := { rate := some (884179995812, 9) } };
      d.gnomon.rate = some (884179995812, 9) ∧ (∀ x ∈ d.gnomon.step, max 0 9 < x.2.2)) ∧
    (∀ m ∈ [0, 1, 2], let d := { up with gnomon := { step := some (m, 7, 9) } };
      d.gnomon.step = some (m, 7, 9) ∧ ∀ x ∈ d.gnomon.rate, max 0 9 < x.2) := by decide +kernel
/-- RATE_SET of the greatest increment at tick 2^40. -/
def rateData : Bytes := toBytes 6 884179995812 ++ toBytes 8 (2 ^ 30)
theorem test_hyp_RateSetIsContinuous :
    (rateData.length = 14 ∧ ofBytes (rateData.take 6) = 884179995812 ∧ ofBytes (rateData.drop 6) = 2 ^ 30 ∧
      up.accepts 5 .serial .rateSet 0 rateData = true) ∧
    (let d := { up with gnomon := { rate := some (884179995812, 2 ^ 30) } };
      d.gnomon.rate = some (884179995812, 2 ^ 30) ∧ ∀ x ∈ d.gnomon.step, 2 ^ 30 < x.2.2) := by decide +kernel
/-- R224: the time at the change's tick is the same under both models. -/
theorem test_rate_change :
    let d := { up with gnomon := { rate := some (884179995812, 2 ^ 30) } }
    (run (.rateChangeApply (2 ^ 30)) d).clock.time (2 ^ 30) = d.clock.time (2 ^ 30) ∧
    (run (.rateChangeApply (2 ^ 30)) d).rd .clkInc 0 = 884179995812 := by decide +kernel

/-- The first tick at which the reset clock reads a whole second. -/
def secondTick : Nat := 1244160000
theorem test_hyp_TimeEventsAct :
    (let d := at_ [(.keepaliveMs, 0, 1), (.timeState, 0, 1)];
      d.rd .keepaliveMs 0 ≠ 0 ∧ d.rd .timeState 0 = 1 ∧ d.gnomon.servoAt + msTicks (d.rd .keepaliveMs 0) ≤ msTicks 1) ∧
    (let d := at_ [(.todEnable, 31, 1)];
      d.on .todEnable 31 = true ∧ (d.tree 31).todN = none ∧ (d.tree 31).maps = []) ∧
    (let d := at_ [(.ppsOutEnable, 0, 1)];
      d.ppsDriven = true ∧ (d.ppsCrosses secondTick = true ∨ d.ppsCrosses (secondTick + 1) = true) ∧ up.ppsDriven = false) ∧
    (let d := { at_ [(.rclkState, 0, 2)] with gnomon := { rclkUntil := some 9 } };
      d.gnomon.rclkUntil = some 9 ∧ d.rd .rclkState 0 = 2) := by decide +kernel
theorem test_hyp_PpsInStamped :
    let d := { at_ [(.ppsInEnable, 0, 1)] with gnomon := { ppsInLast := some 0 } }
    d.on .ppsInEnable 0 = true ∧ (∀ l ∈ d.gnomon.ppsInLast, l + 622080000 < max 0 622080001) ∧
    d.gnomon.ppsInLast = some 0 ∧ max 0 622080000 ≤ 0 + 622080000 ∧ up.on .ppsInEnable 0 = false := by decide +kernel

/-! ### Lanes and links -/

/-- Port 15 (lane 15) and the mate link (lanes 16 to 19) enabled, their lanes in stage `stage` since tick 0. -/
def laneDev (stage : Nat) : Dev :=
  let d := set up ([(.portEnable, 15, 1), (.mateEnable, 0, 1), (.laneState, 15, stage)] ++
    (List.range 4).map fun k => (.laneState, 16 + k, stage))
  { d with mate := { d.mate with capability := true } }
def report : LaneReport := { taps := none, ctle := none, capability := true, fault := false }

/-- Lanes `l` in stage `stage`, their own part done. -/
def trainedDev (d : Dev) (stage : Nat) (l : List Nat) : Dev :=
  (set d (l.map fun j => (.laneState, j, stage))).each l fun d j => d.modLane j fun x => { x with done := true }

theorem test_hyp_LinksComeUpOrRetry :
    (up.chip.phase ≠ .porst ∧ (up.lane 19).calibrated = false ∧ up.opRuns 6 = false) ∧
    (∀ l ∈ [15, 19], (laneDev 1).linkAllowed ((laneDev 1).laneHome l) = true ∧
      (laneDev 1).linkRetryAt ((laneDev 1).laneHome l) = 0 ∧ (laneDev 1).rd .laneState l = 1 ∧ (laneDev 2).rd .laneState l = 2 ∧
      (laneDev 3).linkInStage ((laneDev 3).laneHome l) 3 = true ∧ (laneDev 4).linkInStage ((laneDev 4).laneHome l) 4 = true ∧
      (laneDev 2).stageOver (10 ^ 12) l = true ∧ (laneDev 3).stageOver (10 ^ 12) l = true ∧
      (laneDev 4).stageOver (10 ^ 12) l = true) ∧
    ((laneDev 1).laneHome 19 = .mate ∧ (laneDev 1).on .trainEnable 19 = true ∧
      (∃ j ∈ (laneDev 2).linkLanes .mate, j ≠ 19 ∧ ¬((laneDev 2).rd .laneState j = 2 ∧ ((laneDev 2).lane j).done = true))) ∧
    (let d := trainedDev (set (laneDev 1) [(.trainEnable, 19, 0)]) 2 [16, 17, 18];
      d.rd .laneState 19 = 1 ∧ d.on .trainEnable 19 = false ∧
      ∀ j ∈ d.linkLanes (d.laneHome 19), j ≠ 19 → d.rd .laneState j = 2 ∧ (d.lane j).done = true) ∧
    (let d := trainedDev (laneDev 3) 3 [16, 17, 18];
      d.linkInStage .mate 3 = true ∧ ∀ j ∈ d.linkLanes .mate, j ≠ 19 → (d.lane j).done = true) ∧
    (report.fault = false ∧ (laneDev 4).exchanged .mate = true) := by decide +kernel
theorem test_hyp_LinksComeUpOrRetry_port :
    (let d := set (laneDev 1) [(.anEnable, 15, 1)];
      d.laneHome 15 = .port 15 ∧ d.on .anEnable 15 = true ∧ 15 = (d.lanesOf 15).headD 0 ∧ report.typeOk = true ∧
      d.on .trainEnable 15 = true ∧ ({ report with typeOk := false } : LaneReport).typeOk = false ∧
      (d.port 15).negotiated = none ∧ (set d [(.anEnable, 15, 0)]).on .anEnable 15 = false) ∧
    (let d := set (laneDev 4) [(.anEnable, 15, 1)]; d.exchanged (.port 15) = true ∧ d.laneHome 15 = .port 15) ∧
    (let d := set (laneDev 4) [(.anEnable, 15, 0)];
      15 < d.portCount ∧ d.linkAllowed (.port 15) = true ∧ d.linkRetryAt (.port 15) = 0 ∧ d.exchanged (.port 15) = false ∧
      (∀ j ∈ d.linkLanes (.port 15), d.stageOver (10 ^ 12) j = true) ∧ d.linkInStage (.port 15) 4 = true ∧
      d.capabilityDue 5 15 = true ∧
      (d.modPort 15 fun x => { x with capAt := some 0 }).capabilityDue (msTicks 1) 15 = true ∧
      (d.modPort 15 fun x => { x with capAt := some 0 }).capabilityDue (msTicks 1 - 1) 15 = false) ∧
    (let d := { laneDev 4 with mate := { (laneDev 4).mate with capability := false } };
      d.linkAllowed .mate = true ∧ d.linkRetryAt .mate = 0 ∧ d.linkInStage .mate 4 = true ∧ d.exchanged .mate = false ∧
      ∀ j ∈ d.linkLanes .mate, d.stageOver (10 ^ 12) j = true) ∧
    (let d := (laneDev 2).modPort 15 fun x => { x with retryAt := 9 };
      15 < d.portCount ∧ d.linkAllowed (.port 15) = true ∧ d.linkRetryAt (.port 15) ≠ 0 ∧ d.linkRetryAt (.port 15) ≤ 9) := by
  decide +kernel

theorem test_hyp_LinksAreWatched :
    (let d := set (laneDev 5) [(.portState, 15, 1), (.holdMs, 15, 50)];
      15 < d.portCount ∧ d.portAllowed 15 = true ∧ d.portUp 15 = true ∧ d.rd .holdMs 15 ≠ 0 ∧
      (set d [(.holdMs, 15, 0)]).rd .holdMs 15 = 0 ∧ d.mateAllowed = true) ∧
    (let d := set (laneDev 5) [(.portFastIdle, 15, 1), (.partnerFinuno, 15, 1), (.mateFastIdle, 0, 1)];
      d.mayIdle (10 ^ 12) 15 = true ∧ d.mayIdle (10 ^ 12) 19 = true) ∧
    (let d := up.modLane 19 fun x => { x with idle := true, scanning := true };
      (d.lane 19).idle = true ∧ (d.lane 19).scanning = true) ∧
    (∀ j ∈ up.linkLanes (up.laneHome 19), j ≠ 19 → (up.lane j).degraded = false) := by decide +kernel

/-- Port 15 up with PAUSE enabled both ways, `bytes` in its store, and a PAUSE sent at tick 0 where `sent`. -/
def pauseDev (bytes : Nat) (sent : Bool) : Dev :=
  (at_ [(.portState, 15, 1), (.pauseTxEnable, 15, 1)]).modPort 15 fun x =>
    { x with store := [waitingOf 0 15 bytes []], pauseSent := sent }

theorem test_hyp_PauseFramesSent :
    (∀ b ∈ [16384, 16385, 49152, 49153], (pauseDev b true).storeBytes 15 = b ∧ (pauseDev b false).storeBytes 15 = b) ∧
    (pauseDev 49153 false).on .pauseTxEnable 15 = true ∧ (pauseDev 49153 false).portUp 15 = true ∧
    ((pauseDev 49153 false).port 15).pauseSent = false ∧ ((pauseDev 16385 true).port 15).pauseSent = true ∧
    ((pauseDev 16385 true).port 15).pauseSentAt + ceilDiv (0xFFFF * 256 * 124416) (10000000 * (pauseDev 16385 true).lanesPerPort) ≤
      10 ^ 9 ∧ up.on .pauseTxEnable 15 = false ∧ (∀ x ∈ ((pauseDev 0 true).port 15).negotiated, x.2 = true) ∧
    (∃ x ∈ (((pauseDev 0 true).modPort 15 fun x => { x with negotiated := some (true, false) }).port 15).negotiated, x.2 = false) ∧
    ∀ l ∈ (pauseDev 0 true).lanesOf 15, ((pauseDev 0 true).lane l).idle = false ∧ ((pauseDev 0 true).lane l).exitAt = none := by
  decide +kernel
/-- R258: the store's thresholds are 48 KiB and 16 KiB. -/
theorem test_pause_thresholds :
    (run (.pauseTx 5 15) (pauseDev 49153 false)).wire = [.pause 15 0xFFFF 5] ∧ (run (.pauseTx 5 15) (pauseDev 49152 false)).wire = [] ∧
    (run (.pauseTx 5 15) (pauseDev 16384 true)).wire = [.pause 15 0 5] ∧ (run (.pauseTx 5 15) (pauseDev 16385 true)).wire = [] := by
  decide +kernel

/-- Port 15 up, paused at tick 0 until tick 10^9, its storm time 1 ms; or in a storm. -/
def stormDev (stormed : Bool) : Dev :=
  (at_ [(.portState, 15, 1), (.pauseStormMs, 15, 1)]).modPort 15 fun x =>
    { x with pausedAt := if stormed then none else some 0, pauseUntil := 10 ^ 9, stormed := stormed }
theorem test_hyp_PauseStormsEnd :
    (((stormDev false).port 15).pausedAt = some 0 ∧ ((stormDev false).port 15).pauseUntil ≤ 10 ^ 9 ∧
      msTicks 1 < ((stormDev false).port 15).pauseUntil ∧ (stormDev false).rd .pauseStormMs 15 ≠ 0 ∧
      0 + msTicks ((stormDev false).rd .pauseStormMs 15) ≤ msTicks 1 ∧
      ((stormDev false).source (304 + 4 * 15 + 2)).level = false ∧ (stormDev false).disabled (304 + 4 * 15 + 2) = false ∧
      (set (stormDev false) [(.pauseStormMs, 15, 0)]).rd .pauseStormMs 15 = 0) ∧
    (((stormDev true).port 15).stormed = true ∧ (stormDev true).portUp 15 = true ∧ ((stormDev true).port 15).pausedAt = none ∧
      ((stormDev true).port 15).lastPauseRx + msTicks 1000 ≤ msTicks 1000 ∧
      msTicks 1000 - 1 < ((stormDev true).port 15).lastPauseRx + msTicks 1000) := by decide +kernel

/-! ### The mate -/

/-- A header with the given type, sequence number 7 and no payload; its fields as the model reads them. -/
def mateIn (header : Nat) (check : HeaderCheck) : MateFrameIn := ⟨header, check, []⟩
/-- A STANDBY of a redundant pair, synced, its mate link up; both paths last heard at tick 0. -/
def standbyDev : Dev :=
  let d := at_ [(.unitRole, 0, 2), (.redundancyEnable, 0, 1), (.mateState, 0, 1), (.mirrorState, 0, 2), (.timeState, 0, 3)]
  { d with mate := { d.mate with hunt := false, lanesAt := some 0, pinsAt := some 0 } }
/-- A pin word of kind 0 with its CRC. -/
def pinWord : Nat := 0xB4000500 + crc8 [0xB4, 0, 5]

theorem test_hyp_MatePathsHeard :
    (standbyDev.rd .mateState 0 ≠ 0 ∧ standbyDev.mate.hunt = false ∧ standbyDev.mate.arrived = [] ∧
      standbyDev.mate.streamDue = false ∧ mateHeaderCheck (mateIn 0 .fits) ≠ .uncorrectable ∧
      mateType 0 = 0 ∧ mateHeaderCheck (mateIn 0 .uncorrectable) = .uncorrectable ∧
      ({ standbyDev with mate := { standbyDev.mate with seqRx := some 65535 } } : Dev).mate.seqRx = some 65535) ∧
    (standbyDev.on .redundancyEnable 0 = true ∧ field pinWord 24 8 = 0xB4 ∧
      crc8 (toBytes 3 (pinWord / 256 % 2 ^ 24)) = pinWord % 256 ∧ field pinWord 22 2 = 0 ∧ activeDev.rd .unitRole 0 ≠ 2 ∧
      field 0 24 8 ≠ 0xB4) := by decide +kernel

/-- A relinquish named frame 64 for the serial port, and REFUSE has come. -/
def relinquishMate : Mate :=
  { relinquishing := some 64, refuseHeard := true, relinquishMaster := some .serial, drainUntil := some 9 }

theorem test_hyp_RolesChange :
    (let d := { at_ [(.redundancyEnable, 0, 1), (.unitId, 0, 1)] with mate := { joiningAt := some 0, heardRole0 := true } };
      d.mate.joiningAt = some 0 ∧ 0 + msTicks 1 ≤ msTicks 1 ∧ d.mate.heardRole0 = true ∧ d.rd .unitId 0 = 1 ∧
      ¬(up.mate.heardRole1 = true ∨ up.mate.heardRole0 = true ∧ up.rd .unitId 0 = 1)) ∧
    ((roleDev 1).acceptsNum 5 .serial .roleCmd 0 1 = true) ∧
    (let d := set (roleDev 1) [(.pathState, 0, 3)];
      let f := d.modSource 0 fun x => { x with sticky := true, severity := 3 };
      d.rd .unitRole 0 = 1 ∧ f.matePresent = true ∧ f.faults.device = 0 ∧ f.faults.arriving = [] ∧
      (∃ x ∈ f.stickySevs, 3 ≤ x) ∧ d.mate.relinquishing = none ∧
      ({ d with chip := { d.chip with pendingReset := some 0 } } : Dev).chip.pendingReset ≠ none) ∧
    (let d := { roleDev 1 with mate := relinquishMate };
      d.mate.relinquishing ≠ none ∧ d.mate.refuseHeard = true ∧ d.mate.relinquishMaster = some .serial ∧
      d.mate.relinquishFault = false ∧ d.mgmt.held = none ∧ d.chip.pendingReset = none ∧ d.mate.drainUntil = some 9) := by
  decide +kernel

theorem test_hyp_SilenceIsFollowedByTakeover :
    (standbyDev.rd .unitRole 0 = 2 ∧ standbyDev.quietFor 79005 7900416 .lanes = true ∧
      standbyDev.quietFor 79005 7900416 .pins = true ∧ standbyDev.quietFor 79004 7900416 .pins = false) ∧
    (standbyDev.on .redundancyEnable 0 = true ∧ standbyDev.quietFor 234525 23452416 .lanes = true ∧
      (standbyDev.source (394 + pathBit .lanes)).level = false ∧ (standbyDev.source (394 + pathBit .pins)).level = false) ∧
    (standbyDev.mayTakeOver = true ∧ standbyDev.rd .pathState 0 % 4 = 0 ∧ standbyDev.mate.unplacedAt = none) ∧
    (let d := { standbyDev with mate := { standbyDev.mate with takeSfc := some (1, .pins) } };
      d.mate.takeSfc = some (1, .pins) ∧ 1 ≤ d.rd .superframe 0 + 1 ∧ d.mayTakeOver = true) := by decide +kernel

/-- A standby whose mirror resyncs since tick 0 and has applied a record. -/
def resyncDev : Dev :=
  let d := set standbyDev [(.mirrorState, 0, 1)]
  { d with mate := { d.mate with resynced := true, resyncAt := 0 } }

theorem test_hyp_MirrorKeepsInStep :
    (standbyDev.on .redundancyEnable 0 = true ∧ standbyDev.rd .unitRole 0 = 2 ∧ standbyDev.rd .mirrorState 0 ≠ 1 ∧
      standbyDev.mate.arrived = [] ∧ recordExists (.commit 9) = true ∧
      mirrorDseq (.commit 9) ≠ (standbyDev.rd .dseqApplied 0 + 1) % 2 ^ 32) ∧
    ((standbyDev.modSlot 32837 fun x => { x with retiring := true }).slot 32837).retiring = true ∧
    (let d := { roleDev 1 with mate := { unacked := [(0, .commit 1)] } };
      d.rd .unitRole 0 = 1 ∧ ∃ r ∈ d.mate.unacked, r.1 + msTicks (d.rd .mirrorStaleMs 0) < 10 ^ 12) ∧
    (let d := set standbyDev [(.pathState, 0, 1)];
      d.rd .mirrorState 0 = 2 ∧ d.mirrorLate (msTicks (d.rd .mirrorStaleMs 0) + 1) = true ∧
      d.mirrorLate (msTicks (d.rd .mirrorStaleMs 0)) = false ∧ d.rd .mateState 0 ≠ 0 ∧ bitAt (d.rd .pathState 0) 0 = true ∧
      bitAt (standbyDev.rd .pathState 0) 0 = false ∧ (set d [(.mirrorState, 0, 3)]).rd .mirrorState 0 = 3) ∧
    (resyncDev.rd .unitRole 0 = 2 ∧ resyncDev.rd .mirrorState 0 = 1 ∧ resyncDev.mayEndResync (msTicks 250) = true ∧
      resyncDev.mayEndResync (msTicks 250 + 1) = false) := by decide +kernel

theorem test_hyp_FencesGoDark :
    (let d := { set (roleDev 1) [(.selfFence, 0, 1), (.treeDefects, 31, 2)] with mate := { bothSilent := some (0, [31]) } };
      d.rd .unitRole 0 = 1 ∧ d.mate.bothSilent = some (0, [31]) ∧ d.on .selfFence 0 = true ∧ 0 + msTicks 5 ≤ msTicks 5 ∧
      d.mate.tookOverAt = none ∧ ∀ t ∈ [31], d.rd .treeDefects t % 4 ≠ 0) ∧
    (let d := { set (roleDev 1) [(.superframe, 0, 9), (.unitId, 0, 1)] with mate := { peerActive := some (7, 0, 8), activeSince := 6 } };
      d.mate.peerActive = some (7, 0, 8) ∧ 8 < d.rd .superframe 0 ∧ d.mate.activeSince < 7 ∧ d.rd .unitId 0 = 1) ∧
    (let d := { set (roleDev 1) [(.unitId, 0, 0)] with mate := { peerActive := some (7, 0, 8), activeSince := 7 } };
      d.mate.activeSince = 7 ∧ d.rd .unitId 0 ≠ 1) := by decide +kernel

/-! ### Faults -/

/-- Sources 289, 297 and those of the buffer, the junctions, the rails and PLL 7 are of severity S1. -/
def calmDev : Dev :=
  [289, 297, 417, 418, 443, 295, 303, 435, 436, 437, 286].foldl (fun d k => d.setWin 0x3300 k 1) up

theorem test_hyp_FaultsAreCollected :
    (let a := calmDev.settleSends 5;
      a.faults.arriving = [] ∧ a.disabled 447 = false ∧ a.unevaluated 447 = false ∧ a.faults.first = none ∧
      (a.source 447).capture = none ∧ a.severity 447 ≤ 1 ∧
      ∀ k ∈ [289, 297, 417, 418, 443, 295, 303, 435, 436, 437, 286], a.disabled k = false ∧ a.severity k ≤ 1) ∧
    447 ∉ [289, 297] ∧ (up.setWin 0x3300 255 2).severity 255 = 2 ∧ (up.setWin 0x3300 447 0x80).disabled 447 = true ∧
    (at_ [(.snapState, 0, 1)]).rd .snapState 0 = 1 := by decide +kernel
/-- R187: a cell address lies below 100,663,296 and on a boundary of 256, a descriptor number below 786,432. -/
theorem test_hyp_FaultsAreCollected_pointers :
    (∀ x ∈ [PtrStage.descriptor, .link, .ring], pointerGood x 100663040 = true ∧ pointerGood x 100663296 = false ∧
      pointerGood x 1 = false) ∧
    pointerGood .descriptorStore 786431 = true ∧ pointerGood .descriptorStore 786432 = false ∧
    (let a := (bufferDev 0 15 (upQueue 15 0)).settleSends 5;
      (a.desc 0).isSome = true ∧ ∀ p ∈ a.ports, ∀ y ∈ p.2.sending, y.desc ≠ 0) := by decide +kernel
theorem test_hyp_FaultsAreCollected_measured :
    (∀ j < 3, j ≠ 2 → up.rdS .tjMc j ≤ 125000) ∧ 0 < up.rd .railLowMv 7 ∧ up.rd .railHighMv 7 < Reg.railMv.modulus - 1 ∧
    (at_ [(.pllLocked, 7, 1)]).on .pllLocked 7 = true ∧ up.on .pllLocked 7 = false := by decide +kernel
theorem test_hyp_FaultsAreCollected_wires :
    dieSources 1 ≠ [] ∧ isCounter Reg.rxFrames.row.index 15 Reg.rxFrames.row.sub = true ∧ up.disabled 442 = false ∧
    Reg.ofAddr Reg.rxFrames.row.index Reg.rxFrames.row.sub = some .rxFrames := by decide +kernel
/-- R188: the frame whose links meet a double-bit error is dropped. -/
theorem test_link_error :
    let d := run (.faultOccurrence 5 [.eccLink 0]) (bufferDev 0 15 (upQueue 15 0))
    d.rd .bufEccUncorr 0 = 1 ∧ (run (.scheduleDecision ⟨6, 0⟩ (.port 15)) d).wire = [] := by decide +kernel
/-- R287: the first fault names its source; R283: an S2 of tree 31 shuts the tree. -/
theorem test_first_fault :
    let e := run (.faultOccurrence 5 [.fault { source := 255 }]) (up.setWin 0x3300 255 2)
    (e.faults.first.map fun f => f.capture.source) = some 255 ∧ 31 ∈ e.faults.shut := by decide +kernel

/-! ### Commands that are not well formed -/

/-- A byte string that is none. -/
def noBytes : Bytes := [256]

theorem test_refuses_numbers : ∀ c ∈ ([.creditSnapshot (.sub 8), .bridgeLockLoss 0 2 [] [], .profileChangeDarken 8,
    .sliceWake 0 32, .terminalDefectDeclare 0 16384 .losi, .ospHostMessage 0 2 [], .discListAgeOut 0 1024,
    .rangeRetry 0 16384, .rogueWatch 0 32 ⟨0, [], none⟩, .reportMissLimit 0 65536, .keyRetire 0 32838,
    .jobQueued 0 8 ⟨.gcm, 1⟩, .macFrameReceive ⟨0, 0⟩ (.uplink 16) [] true,
    .classify 0 16, .fragAgeOut 0 8192, .agerVisit 0 524352] : List Instr), c.wellFormed = false := by decide +kernel
theorem test_refuses_more_numbers : ∀ c ∈ ([.tableSweep 0 (2 ^ 40) true 0, .portHoldExpiry 0 16, .termHoldExpiry 0 16384,
    .lagRevert 0 8 0, .lagRevert 0 0 16, .scheduleDecision ⟨0, 0⟩ (.port 16), .scheduleDecision ⟨0, 0⟩ (.tree 32), .todUpdate 0 32,
    .calibrationDone 0 20, .capabilityFrameSend 0 16, .exchangeWaitEnd 0 17, .linkDown 0 (.port 16), .pauseTx 0 16,
    .mirrorRecordApply 0 (.profile 0 8 0), .faultOccurrence 0 [.fault { source := 448 }], .brokenWire 0 291 0,
    .brokenWire 0 290 448, .counterVisit 0 0x1001 0 ⟨0, []⟩] : List Instr), c.wellFormed = false := by decide +kernel
theorem test_refuses_last_numbers : ∀ c ∈ ([.sessionIdleExpiry 0 0, .sessionIdleExpiry 0 17, .refGood 0 2,
    .pdOnDone 0 20, .sidebandFrame 0 8 0, .resetEnd 0 (.die 3), .resetEnd 0 (.quad 8), .treeRelight 0 32, .bridgeRelock 0 2,
    .otherRefLost 0 2, .eyeScanDone 0 20 0 0, .nop 0 (.session 17), .nop 0 (.session 0),
    .relinquish 0 (.command (.session 17)), .swijanRequest 0 (nopFrame [] |> fun f => { f with arrival := .uplink 16 })]
      : List Instr), c.wellFormed = false := by decide +kernel
theorem test_refuses_bytes : ∀ c ∈ ([.burstReceive 0 0 ⟨0, .frame, 0⟩ { noBurst true with messages := [⟨false, 1, noBytes, true, .other⟩] },
    .ospHostMessage 0 0 noBytes, .keyNext 0 .serial 0 noBytes, .mateFrameReceive 0 ⟨0, .fits, noBytes⟩,
    .macFrameReceive ⟨0, 0⟩ .mgmt noBytes true, .addrFlush 0 .serial noBytes, .ptpTx 0 .serial noBytes,
    .heartbeatReceive 0 (.lanes ⟨0, .fits, noBytes⟩), .mirrorRecordApply 0 (.objectWrite 0 0x1001 0 1 0 noBytes),
    .swijanRequest 0 (nopFrame noBytes), .dspRequest 0 noBytes, .write 0 .serial 0x1001 0 1 noBytes,
    .openSession 0 0 0 noBytes] : List Instr), c.bytesOk = false ∧ c.wellFormed = false := by decide +kernel

end Sys2Proof.Tests
end

section
/-!
PROOFS. The state after power-on reset (R7, R220): with its tables empty, the device reads everywhere what an unlisted key
reads as.
-/
namespace Sys2Proof.Machine
open Sys2Proof

variable {d : Dev}

/-! ### What empty tables read as -/

theorem Dev.rd_of_regs_nil (h : d.regs = []) (r : Reg) (i : Nat) : d.rd r i = r.dflt i := by
  rw [Dev.rd, h, Tab.get_nil]

theorem Dev.tree_of_trees_nil (h : d.trees = []) (t : Nat) : d.tree t = {} := by
  rw [Dev.tree, h, Tab.get_nil]

theorem Dev.source_of_sources_nil (h : d.faults.sources = []) (k : Nat) : d.source k = {} := by
  rw [Dev.source, h, Tab.get_nil]

theorem Dev.queue_of_queues_nil (h : d.buf.queues = []) (q : Nat) : d.queue q = [] := by
  rw [Dev.queue, h, Tab.get_nil]

/-! ### The reset state -/

@[simp] theorem State.reset_rd (r : Reg) (i : Nat) : State.reset.dev.rd r i = r.dflt i :=
  Dev.rd_of_regs_nil rfl r i

@[simp] theorem State.reset_tree (t : Nat) : State.reset.dev.tree t = {} := Dev.tree_of_trees_nil rfl t

@[simp] theorem State.reset_source (k : Nat) : State.reset.dev.source k = {} := Dev.source_of_sources_nil rfl k

@[simp] theorem State.reset_queue (q : Nat) : State.reset.dev.queue q = [] := Dev.queue_of_queues_nil rfl q

theorem State.queueNamed_of_pending_nil {s : State} (h : s.pending = []) : s.queueNamed := by
  simp [State.queueNamed, h]

theorem State.reset_queueNamed : State.reset.queueNamed := State.queueNamed_of_pending_nil rfl

/-- EMPTY, coded 0, is the state TERM_STATE has by default. -/
theorem State.reset_terminal_empty (g : Nat) : State.reset.dev.rd .termState g = 0 :=
  State.reset_rd .termState g

theorem State.reset_tree_dark (t : Nat) : (State.reset.dev.tree t).lit = false := by
  rw [State.reset_tree]

theorem State.reset_source_clear (k : Nat) : (State.reset.dev.source k).sticky = false := by
  rw [State.reset_source]

/-- Settles O7: the queue of commands and every table that is read here are empty at reset, so each read is the value of an
unlisted key; the other parts are fields of the reset state. -/
theorem resetIsQuiet : Obligations.ResetIsQuiet := by
  unfold Obligations.ResetIsQuiet
  exact ⟨State.reset_queueNamed, rfl, rfl, rfl, rfl, rfl, rfl, State.reset_rd, State.reset_terminal_empty,
    State.reset_tree_dark, State.reset_queue, State.reset_source_clear⟩

end Sys2Proof.Machine
end

section
/-!
PROOFS. What every command does to the queue and to the tick counter (R14, R220), and what follows for a run of the queue.
-/
namespace Sys2Proof.Machine
open Sys2Proof

/-! ### Outcomes that depend on the command's elements alone -/

/-- The outcome `o` of a command on state `s`, where `named` tells whether the command names elements of the device: a next
state with the queue of `s` and a tick counter not set back, which has reached the command's tick; or the stop. -/
def Runs (named : Bool) (tick : Option Nat) (s : State) (o : Host.Outcome State Fault Refusal) : Prop :=
  if named then ∃ t, o = .next t ∧ t.pending = s.pending ∧ s.now ≤ t.now ∧ ∀ n, tick = some n → n ≤ t.now
  else o = .fault .noSuchElement

variable {s : State} {tick : Option Nat} {named : Bool} {o : Host.Outcome State Fault Refusal}

theorem runs_at (n : Nat) (f : Nat → Dev → Dev) : Runs true (some n) s (.next (s.at_ n f)) :=
  ⟨_, rfl, rfl, Nat.le_max_left _ _, fun _ h => Option.some.inj h ▸ Nat.le_max_right _ _⟩

theorem Runs.untimed (h : Runs named tick s o) : Runs named none s o := by
  cases named with
  | true =>
    obtain ⟨t, ho, hp, hn, -⟩ := h
    exact ⟨t, ho, hp, hn, by simp⟩
  | false => exact h

theorem runs_of_named (h : named = true → Runs true tick s o) (hf : named = false → o = .fault .noSuchElement) :
    Runs named tick s o := by
  cases named with
  | true => exact h rfl
  | false => exact hf rfl

theorem runs_ite {c : Prop} [Decidable c] {a : State} (h : Runs true tick s (.next a)) (hc : named = true ↔ c) :
    Runs named tick s (if c then .next a else .fault .noSuchElement) := by
  refine runs_of_named (fun hn => ?_) fun hn => ?_
  · rwa [if_pos (hc.1 hn)]
  · rw [if_neg fun x => by simp [hc.2 x] at hn]

theorem runs_onElement (x bound n : Nat) (f : Nat → Dev → Dev) :
    Runs (decide (x < bound)) (some n) s (onElement x bound s fun s => s.at_ n f) :=
  runs_ite (runs_at n f) decide_eq_true_iff

theorem runs_onSession (k n : Nat) (f : Nat → Dev → Dev) :
    Runs (decide (1 ≤ k) && decide (k ≤ 16)) (some n) s (onSession k s fun s => s.at_ n f) :=
  runs_ite (runs_at n f) (by simp)

theorem runs_byMaster (n : Nat) (m : Master) (c : Cmd) : Runs (masterExists m) (some n) s (byMaster n m c s) :=
  runs_ite (runs_at n _) Iff.rfl

theorem runs_atPoint (p : MapPoint) (frame sub : Nat) (f : Nat → Dev → Dev) :
    Runs (pointExists p) none s (atPoint p frame sub s f) := by
  cases p with
  | frame => exact (runs_at _ f).untimed
  | sub k => exact (runs_onElement k 8 _ f).untimed

theorem runs_frameStart : Runs true none s (execFrameStart s) := by
  unfold execFrameStart
  split
  · exact ⟨s, rfl, rfl, le_rfl, by simp⟩
  · exact ⟨_, rfl, rfl, Nat.le_max_left _ _, by simp⟩

theorem runs_tableSweep (n b : Nat) (differs : Bool) (restarts : Nat) :
    Runs (sweptBlock b).isSome (some n) s (execTableSweep n b differs restarts s) := by
  unfold execTableSweep
  cases sweptBlock b with
  | none => rfl
  | some w => exact runs_at n _

/-- Every command but power-on reset runs, or stops, as its elements alone tell. The cases are grouped by the form of the
command: one of a master, of an element, of the whole device, or of the frame. -/
theorem exec_runs (c : Instr) (s : State) (h : isPowerOn c = false) : Runs c.namesElements c.tick s (exec c s) := by
  cases c
  case powerOnReset => cases h
  case frameStart => exact runs_frameStart
  case creditSnapshot | buildStart | mapSeal | fanOutDeadline | headerLock => exact runs_atPoint ..
  case mirrorDeadline | heartbeatMidframe => exact (runs_at ..).untimed
  case profileChangeDarken q => exact (runs_onElement q 8 (s.dev.rd .frameTick 0) _).untimed
  case profileWrite | treeEnableWrite | lineModeWrite | bpValidWrite | terminalDeactivate | terminalQuarantine |
      terminalRelease | keyNext | keyErase | loadGo | graphDefault | commit | discard | addrInsertStatic |
      addrInsertDynamic | addrDelete | addrFlush | freeModeWrite | auditGo | membersWrite | portWidthWrite |
      peakReset | rateSet | stepAdd | stepSubtract | stepSetTime | servoAlive | capture | ptpTx | rclkSrcWrite |
      calibrate | portEnableWrite | mateEnableWrite | eyeScan | redundancyEnableWrite | rejoin | resync | ffClear |
      faultTest | faultLevelWrite | snapGo | counterClear | leaseWrite | sessionClose | refSelectWrite |
      pdEnableWrite | warmReset | dieReset | quadReset | treeReset | treeRestart | read | write | bulkRead |
      bulkWrite | close | nop | lockWrite | faultStatusClear =>
    exact runs_byMaster ..
  case jobResume | jobPromote | keyRetire | downstreamFrameEncipher | rxrstPulse | reportMissLimit | burstReceive |
      treeDefectDeclare | treeDefectClear | terminalDefectDeclare | terminalDefectClear | indicationRepeat |
      ospHostMessage | ospCredit | discoveryWindowOpen | discListAgeOut | sliceWake | sliceGate | rangeRetry |
      rangeTimeout | lostTimeout | jumpRerange | rogueWatch | portHoldExpiry | termHoldExpiry | fragAgeOut |
      classify | agerVisit | todUpdate | pauseExpiry | pauseStorm | pauseStormEnd | pauseTx | pauseRepeat |
      laneStageAdvance | detectRetry | laneStageTimeout | exchangeWaitEnd | capabilityFrameSend | fecDegradeCheck |
      calibrationDone | idleEntry | idleExit | eyeScanDone | otherRefLost | refGood | refRelock | treeRelight |
      bridgeLockLoss | bridgeRelock | pdOnDone | powerDomainFault | sidebandFrame | profileChangeApply |
      profileChangeComplete =>
    exact runs_onElement ..
  case entropyFail | entropyRecovery | loadComplete | mateDefectDeclare | mateDefectClear | pmSecondEnd |
      pmSecondCommit | leakSweep | auditDone | addrFlushDone | learnRequest | stashRetry | holdSweep | commitSwap |
      commitTimeout | rateChangeApply | stepApply | timeHoldover | ppsOutEdge | ppsInEdge | rclkRestore | snapReady |
      lockExpiry | leaseExpiry | mgmtLinkUp | mgmtLinkDown | relinquishDrainEnd | heartbeatMiss | pathSilent |
      selfFence | dualActiveFence | joinDecide | mirrorStale | resyncDone | resyncFailed | takeover | refLost |
      refHoldoverFault | relinquishRefused | porstRelease | dictionaryReady | mateFrameReceive | heartbeatReceive |
      openSession | dspRequest | dspFetch =>
    exact runs_at ..
  case tableSweep => exact runs_tableSweep ..
  case sessionIdleExpiry | pendingSessionExpiry => exact runs_onSession ..
  case jobQueued | resetEnd | faultOccurrence | counterVisit | mirrorRecordApply | scheduleDecision | brokenWire |
      lagRevert =>
    exact runs_ite (runs_at ..) (by simp [Instr.namesElements])
  case swijanRequest n f =>
    obtain ⟨arrival, source, dest, tags, etype, ok, body⟩ := f
    cases arrival with
    | uplink p => exact runs_onElement ..
    | mgmt => exact runs_at ..
  case macFrameReceive n p b g =>
    cases p with
    | uplink p => exact runs_onElement ..
    | mgmt => exact runs_at ..
  case linkDown n k =>
    cases k with
    | port p => exact runs_onElement ..
    | mate => exact runs_at ..
  case relinquish n c =>
    cases c with
    | command m => exact runs_byMaster ..
    | fault => exact runs_at ..
    | reset => exact runs_at ..

theorem exec_powerOnReset (n ns : Nat) (s : State) :
    ∃ t, exec (.powerOnReset n ns) s = .next t ∧ t.pending = s.pending := by
  by_cases h : ns < 1000
  · exact ⟨_, if_pos h, rfl⟩
  · exact ⟨_, if_neg h, rfl⟩

theorem isPowerOn_eq_true {c : Instr} (h : isPowerOn c = true) : ∃ n ns, c = .powerOnReset n ns := by
  cases c
  case powerOnReset n ns => exact ⟨n, ns, rfl⟩
  all_goals cases h

/-! ### The queue -/

/-- Settles O2: `exec_runs`, and power-on reset, which is complete without a bound on the tick counter. -/
theorem namedCommandsComplete : Obligations.NamedCommandsComplete := by
  unfold Obligations.NamedCommandsComplete
  intro c s hc
  cases hp : isPowerOn c with
  | true =>
    obtain ⟨n, ns, rfl⟩ := isPowerOn_eq_true hp
    obtain ⟨t, ht, hq⟩ := exec_powerOnReset n ns s
    exact ⟨t, ht, hq, nofun⟩
  | false =>
    have h := exec_runs c s hp
    rw [hc] at h
    obtain ⟨t, ht, hq, hn⟩ := h
    exact ⟨t, ht, hq, fun _ => hn⟩

/-- Settles O3: power-on reset names no element; any other command stops by `exec_runs`. -/
theorem onlyUnnamedElementsStop : Obligations.OnlyUnnamedElementsStop := by
  unfold Obligations.OnlyUnnamedElementsStop
  intro c s hc
  cases hp : isPowerOn c with
  | true =>
    obtain ⟨n, ns, rfl⟩ := isPowerOn_eq_true hp
    cases hc
  | false =>
    have h := exec_runs c s hp
    rwa [hc] at h

/-- A step on a queue that names elements alone takes its first command. -/
theorem step_cons {s : State} {c : Instr} {rest : List Instr} (hs : s.pending = c :: rest) (hc : c.namesElements = true) :
    ∃ t, step s = .next t ∧ t.pending = rest ∧
      (isPowerOn c = false → s.now ≤ t.now ∧ ∀ n, c.tick = some n → n ≤ t.now) := by
  obtain ⟨t, ht, hq, hn⟩ := namedCommandsComplete c { s with pending := rest } hc
  exact ⟨t, by simp only [step, hs, ht], hq, hn⟩

/-- Settles O6: what a step leaves of the queue is its tail. -/
theorem stepKeepsQueueNamed : Obligations.StepKeepsQueueNamed := by
  unfold Obligations.StepKeepsQueueNamed
  intro s t hs ht
  have hq : t.pending = s.pending.tail := by
    cases hp : s.pending with
    | nil =>
      have : s = t := by simpa [step, hp] using ht
      rw [← this, hp, List.tail_nil]
    | cons c rest =>
      obtain ⟨u, hu, hq, -⟩ := step_cons hp (hs c (by simp [hp]))
      rw [ht] at hu
      cases hu
      exact hq
  exact ⟨fun c hc => hs c (List.mem_of_mem_tail (hq ▸ hc)), hq⟩

theorem run_succ_of_next (M : Host.Core) {s u : M.State} (k : Nat) (h : M.step s = .next u) :
    M.run (k + 1) s = M.run k u := by
  rw [Host.Core.run, h]

/-- Settles O5, by induction on the queue: the first step leaves the queue's tail, and its tick bounds outlive the run of the
tail, which sets the tick counter back at no step. -/
theorem namedQueueRunsToItsEnd : Obligations.NamedQueueRunsToItsEnd := by
  unfold Obligations.NamedQueueRunsToItsEnd
  suffices h : ∀ (l : List Instr) (s : State), s.pending = l → s.queueNamed →
      ∃ t : State, Sys2Proof.core.run l.length s = .next t ∧ t.pending = [] ∧
        ((∀ c ∈ l, isPowerOn c = false) → s.now ≤ t.now ∧ ∀ c ∈ l, ∀ n, c.tick = some n → n ≤ t.now) from
    fun s hs => h s.pending s rfl hs
  intro l
  induction l with
  | nil => exact fun s hl _ => ⟨s, rfl, hl, by simp⟩
  | cons c rest ih =>
    intro s hl hs
    obtain ⟨u, hu, huq, hun⟩ := step_cons hl (hs c (by simp [hl]))
    have hun' : u.queueNamed := (stepKeepsQueueNamed s u hs hu).1
    obtain ⟨t, ht, htq, htn⟩ := ih u huq hun'
    refine ⟨t, (run_succ_of_next Sys2Proof.core _ hu).trans ht, htq, fun hp => ?_⟩
    obtain ⟨hc, hrest⟩ := List.forall_mem_cons.1 hp
    obtain ⟨hsu, hcu⟩ := hun hc
    obtain ⟨hut, hrt⟩ := htn hrest
    exact ⟨hsu.trans hut, List.forall_mem_cons.2 ⟨fun n hn => (hcu n hn).trans hut, hrt⟩⟩

end Sys2Proof.Machine
end

section
/-!
PROOFS. What a fault condition changes (R282-R287), and what a bridge that loses lock or a slice that wakes or gates leaves
behind (R11, R13, R36).
-/
namespace Sys2Proof.Machine
open Sys2Proof

variable (d : Dev)

/-! ### Fault conditions -/

/-- The device but for its registers and its fault state. -/
def Dev.butFaults (d : Dev) : Dev := { d with regs := [], faults := {} }

@[simp] theorem Dev.wr_butFaults (r : Reg) (i v : Nat) : (d.wr r i v).butFaults = d.butFaults := rfl
@[simp] theorem Dev.bump_butFaults (r : Reg) (i : Nat) : (d.bump r i).butFaults = d.butFaults := rfl
@[simp] theorem Dev.add_butFaults (r : Reg) (i k : Nat) : (d.add r i k).butFaults = d.butFaults := rfl
@[simp] theorem Dev.modSource_butFaults (k : Nat) (f : Source → Source) : (d.modSource k f).butFaults = d.butFaults := rfl

@[simp] theorem Dev.raiseAt_butFaults (n sev : Nat) (o : Occurrence) : (d.raiseAt n sev o).butFaults = d.butFaults := by
  unfold Dev.raiseAt
  split <;> rfl

@[simp] theorem Dev.raise_butFaults (n : Nat) (o : Occurrence) : (d.raise n o).butFaults = d.butFaults :=
  d.raiseAt_butFaults n _ o

@[simp] theorem Dev.event_butFaults (n s index : Nat) : (d.event n s index).butFaults = d.butFaults := d.raise_butFaults n _

@[simp] theorem Dev.raiseLevel_butFaults (n : Nat) (o : Occurrence) : (d.raiseLevel n o).butFaults = d.butFaults := by
  unfold Dev.raiseLevel
  split
  · rfl
  · rw [Dev.raise_butFaults, Dev.modSource_butFaults]

@[simp] theorem Dev.dropLevel_butFaults (s : Nat) : (d.dropLevel s).butFaults = d.butFaults := by
  unfold Dev.dropLevel
  split <;> rfl

variable {d} in
theorem Dev.tree_of_butFaults {e : Dev} (h : e.butFaults = d.butFaults) (t : Nat) : e.tree t = d.tree t := by
  change e.butFaults.tree t = d.butFaults.tree t
  rw [h]

variable {d} in
theorem Dev.treeWaiting_of_butFaults {e : Dev} (h : e.butFaults = d.butFaults) : e.treeWaiting = d.treeWaiting := by
  change e.butFaults.treeWaiting = d.butFaults.treeWaiting
  rw [h]

variable {r : Reg}

/-- An occurrence counts in OCCURRENCES alone (R285). -/
theorem Dev.raiseAt_rd (n sev : Nat) (o : Occurrence) (i : Nat) (h : r ≠ .occurrences) :
    (d.raiseAt n sev o).rd r i = d.rd r i := by
  unfold Dev.raiseAt
  split
  · rfl
  · exact (Dev.rd_bump _ _ _ _ _).trans (by simp [h])

theorem Dev.raise_rd (n : Nat) (o : Occurrence) (i : Nat) (h : r ≠ .occurrences) : (d.raise n o).rd r i = d.rd r i :=
  d.raiseAt_rd n _ o i h

theorem Dev.event_rd (n s index i : Nat) (h : r ≠ .occurrences) : (d.event n s index).rd r i = d.rd r i :=
  d.raise_rd n _ i h

theorem Dev.raiseLevel_rd (n : Nat) (o : Occurrence) (i : Nat) (h : r ≠ .occurrences) :
    (d.raiseLevel n o).rd r i = d.rd r i := by
  unfold Dev.raiseLevel
  split
  · rfl
  · exact Dev.raise_rd _ n o i h

@[simp] theorem Dev.dropLevel_rd (s i : Nat) : (d.dropLevel s).rd r i = d.rd r i := by
  unfold Dev.dropLevel
  split <;> rfl

theorem Dev.source_arriving (a : List (Nat × Nat × Occurrence)) (k : Nat) :
    ({ d with faults := { d.faults with arriving := a } } : Dev).source k = d.source k := rfl

/-- An occurrence is captured at its source, and no more (R285). -/
theorem Dev.raiseAt_source (n sev : Nat) (o : Occurrence) (k : Nat) :
    ∃ c, (d.raiseAt n sev o).source k = { d.source k with capture := c } := by
  unfold Dev.raiseAt
  split
  · exact ⟨_, rfl⟩
  · dsimp only
    rw [Dev.source_arriving, Dev.bump_eq, Dev.wr_source, Dev.source_modSource]
    split
    · next h =>
      subst h
      split <;> exact ⟨_, rfl⟩
    · exact ⟨_, rfl⟩

theorem Dev.raise_level (n : Nat) (o : Occurrence) (k : Nat) : ((d.raise n o).source k).level = (d.source k).level := by
  obtain ⟨c, hc⟩ := d.raiseAt_source n (d.severity o.source) o k
  rw [Dev.raise, hc]

/-- A source that is evaluated holds its condition once the condition begins. -/
theorem Dev.raiseLevel_level (n : Nat) (o : Occurrence) (h : d.unevaluated o.source = false) :
    ((d.raiseLevel n o).source o.source).level = true := by
  unfold Dev.raiseLevel
  rw [h, Bool.or_false]
  split
  · assumption
  · rw [Dev.raise_level, Dev.source_modSource, if_pos rfl]

theorem Dev.unevaluated_of_le {s : Nat} (h : 256 ≤ s) : d.unevaluated s = false := by
  simp [Dev.unevaluated, Nat.not_lt.2 h]

/-- A condition that ends leaves its source asserted only by a broken wire (R286). -/
theorem Dev.dropLevel_released (s : Nat) : d.released (d.dropLevel s) s := by
  unfold Dev.released Dev.dropLevel
  split
  · rw [Dev.source_modSource, if_pos rfl]
    exact nofun
  · next h =>
    intro hl
    simpa [hl, or_iff_not_imp_left] using h

/-! ### Frames lost on a bridge (R13) -/

theorem Dev.loseAll_nil (lose : Dev → Nat → Nat × Dev) : d.loseAll lose [] = (0, d) := rfl

theorem Dev.loseAll_cons (lose : Dev → Nat → Nat × Dev) (t : Nat) (ts : List Nat) :
    d.loseAll lose (t :: ts) =
      ((lose d t).1 + ((lose d t).2.loseAll lose ts).1, ((lose d t).2.loseAll lose ts).2) := by
  have acc : ∀ (ts : List Nat) (k : Nat) (d : Dev),
      ts.foldl (fun a t => (a.1 + (lose a.2 t).1, (lose a.2 t).2)) (k, d) =
        (k + (d.loseAll lose ts).1, (d.loseAll lose ts).2) := by
    intro ts
    induction ts with
    | nil => exact fun k d => rfl
    | cons t ts ih =>
      intro k d
      have h := ih (0 + (lose d t).1) (lose d t).2
      rw [List.foldl_cons, ih, show d.loseAll lose (t :: ts) = _ from h]
      simp [Nat.add_assoc]
  refine (acc ts (0 + (lose d t).1) (lose d t).2).trans ?_
  rw [Nat.zero_add]

/-- What no single loss changes, none of them does. -/
theorem Dev.loseAll_keeps {β : Type} (p : Dev → β) {lose : Dev → Nat → Nat × Dev} {ts : List Nat}
    (h : ∀ d, ∀ t ∈ ts, p (lose d t).2 = p d) : p (d.loseAll lose ts).2 = p d := by
  induction ts generalizing d with
  | nil => rfl
  | cons t ts ih =>
    rw [Dev.loseAll_cons, ih _ fun d y hy => h d y (List.mem_cons_of_mem _ hy), h d t List.mem_cons_self]

/-- What each loss takes off a count, all of them take off it. -/
theorem Dev.loseAll_count (count : Dev → Nat) {lose : Dev → Nat → Nat × Dev} {ts : List Nat}
    (h : ∀ d, ∀ t ∈ ts, (lose d t).1 + count (lose d t).2 = count d) :
    (d.loseAll lose ts).1 + count (d.loseAll lose ts).2 = count d := by
  induction ts generalizing d with
  | nil => simp [Dev.loseAll_nil]
  | cons t ts ih =>
    rw [Dev.loseAll_cons, Nat.add_assoc, ih _ fun d y hy => h d y (List.mem_cons_of_mem _ hy), h d t List.mem_cons_self]

@[simp] theorem Dev.loseUp_rd (t i : Nat) : (d.loseUp t).2.rd r i = d.rd r i := by
  unfold Dev.loseUp
  split <;> rfl

@[simp] theorem Dev.loseUp_tree (t x : Nat) : (d.loseUp t).2.tree x = d.tree x := by
  unfold Dev.loseUp
  split <;> rfl

theorem Dev.loseUp_count (t : Nat) : (d.loseUp t).1 + (d.loseUp t).2.treeWaiting.length = d.treeWaiting.length := by
  unfold Dev.loseUp
  split
  · next w hw =>
    have hm : w ∈ d.treeWaiting := (List.mem_filter.1 (List.mem_of_getLast? hw)).1
    have := List.length_pos_of_mem hm
    simp [List.length_erase_of_mem, hm]
    omega
  · simp

@[simp] theorem Dev.sampleDone_tree (id : Option Nat) (outcome t : Nat) : (d.sampleDone id outcome).tree t = d.tree t := by
  unfold Dev.sampleDone
  split
  · rfl
  · split <;> rfl

theorem Dev.sampleDone_rd (id : Option Nat) (outcome i : Nat) (h : r ≠ .sampleNext) :
    (d.sampleDone id outcome).rd r i = d.rd r i := by
  unfold Dev.sampleDone
  split
  · rfl
  · split
    · rfl
    · exact Dev.rd_wr_other _ _ _ _ h

@[simp] theorem Dev.sampleDone_treeWaiting (id : Option Nat) (outcome : Nat) :
    (d.sampleDone id outcome).treeWaiting = d.treeWaiting := by
  unfold Dev.sampleDone
  split
  · rfl
  · split <;> rfl

@[simp] theorem Dev.loseDown_treeWaiting (t : Nat) : (d.loseDown t).2.treeWaiting = d.treeWaiting := by
  unfold Dev.loseDown
  split
  · split
    · exact Dev.sampleDone_treeWaiting _ _ _
    · rfl
  · rfl

theorem Dev.loseDown_rd (t i : Nat) (h : r ≠ .sampleNext) : (d.loseDown t).2.rd r i = d.rd r i := by
  unfold Dev.loseDown
  split
  · split
    · exact Dev.sampleDone_rd _ _ _ _ h
    · rfl
  · rfl

theorem Dev.loseDown_tree (t x : Nat) (h : x ≠ t) : (d.loseDown t).2.tree x = d.tree x := by
  unfold Dev.loseDown
  split
  · split
    · rw [Dev.sampleDone_tree, Dev.tree_modTree, if_neg h]
    · rfl
  · rfl

theorem Dev.loseDown_count (t : Nat) :
    (d.loseDown t).1 + ((d.loseDown t).2.tree t).payload.length = (d.tree t).payload.length := by
  unfold Dev.loseDown
  split
  · next f hf =>
    have := List.length_pos_of_mem (List.mem_of_getLast? hf)
    split
    · simp [Dev.tree_modTree]
      omega
    · simp
  · simp

/-- A sum over distinct elements, of which one alone loses `k`, loses `k`. -/
theorem sum_map_of_one_less {l : List Nat} (hl : l.Nodup) {t k : Nat} (ht : t ∈ l) {f g : Nat → Nat}
    (h : k + g t = f t) (ho : ∀ x, x ≠ t → g x = f x) : k + (l.map g).sum = (l.map f).sum := by
  induction l with
  | nil => cases ht
  | cons a l ih =>
    obtain ⟨ha, hl⟩ := List.nodup_cons.1 hl
    by_cases hat : a = t
    · subst hat
      have : l.map g = l.map f := List.map_congr_left fun x hx => ho x fun e => ha (e ▸ hx)
      simp [this, ← h]
      omega
    · have := ih hl ((List.mem_cons.1 ht).resolve_left (Ne.symm hat))
      simp [ho a hat]
      omega

theorem treesOfDie_nodup (b : Nat) : (treesOfDie b).Nodup :=
  List.nodup_range.map fun x y h => by simpa using h

theorem mem_treesOfDie {b t : Nat} : t ∈ treesOfDie b ↔ dieOf t = b := by
  simp only [treesOfDie, dieOf, List.mem_map, List.mem_range]
  exact ⟨by rintro ⟨x, hx, rfl⟩; omega, fun h => ⟨t % 16, by omega, by omega⟩⟩

/-- The frames on their way down to the trees of a die. -/
def Dev.downWaiting (d : Dev) (b : Nat) : Nat := ((treesOfDie b).map fun t => (d.tree t).payload.length).sum

theorem Dev.loseDown_downWaiting {b t : Nat} (h : dieOf t = b) :
    (d.loseDown t).1 + (d.loseDown t).2.downWaiting b = d.downWaiting b :=
  sum_map_of_one_less (treesOfDie_nodup b) (mem_treesOfDie.2 h) (d.loseDown_count t) fun x hx => by
    rw [Dev.loseDown_tree d t x hx]

/-- The frames that a die's trees lose are those its losses count. -/
theorem Dev.downWaiting_sub {e : Dev} {b : Nat}
    (h : ∀ t, (e.tree t).payload.length ≤ (d.tree t).payload.length) :
    ((treesOfDie b).map fun t => (d.tree t).payload.length - (e.tree t).payload.length).sum =
      d.downWaiting b - e.downWaiting b := by
  unfold Dev.downWaiting
  generalize treesOfDie b = l
  have hs : (l.map fun t => (d.tree t).payload.length).sum = (l.map fun t => (e.tree t).payload.length).sum +
      (l.map fun t => (d.tree t).payload.length - (e.tree t).payload.length).sum := by
    rw [← List.sum_map_add]
    exact congrArg List.sum (List.map_congr_left fun t _ => by have := h t; omega)
  omega

theorem Dev.loseDown_le (t x : Nat) : ((d.loseDown t).2.tree x).payload.length ≤ (d.tree x).payload.length := by
  by_cases h : x = t
  · subst h
    have := d.loseDown_count x
    omega
  · rw [d.loseDown_tree t x h]

theorem Dev.loseAll_down_le (ts : List Nat) (x : Nat) :
    ((d.loseAll Dev.loseDown ts).2.tree x).payload.length ≤ (d.tree x).payload.length := by
  induction ts generalizing d with
  | nil => exact le_rfl
  | cons t ts ih =>
    rw [Dev.loseAll_cons]
    exact (ih _).trans (d.loseDown_le t x)

/-! ### The bits of SLICES_GATED -/

theorem bitAt_eq_testBit (x k : Nat) : bitAt x k = x.testBit k := by
  rw [bitAt, Nat.testBit_eq_decide_div_mod_eq]
  exact beq_eq_decide _ _

/-- A bit reads as it was set. -/
theorem bitAt_setBit (x k : Nat) (b : Bool) : bitAt (setBit x k b) k = b := by
  have hp : 0 < 2 ^ k := Nat.pow_pos (by decide)
  unfold setBit
  split
  · next h =>
    cases b with
    | true => exact h
    | false =>
      have hx : x / 2 ^ k % 2 = 1 := by simpa [bitAt] using h
      have := Nat.sub_mul_div x (2 ^ k) 1
      rw [Nat.mul_one] at this
      simp only [bitAt, Bool.false_eq_true, if_false, this, beq_eq_false_iff_ne]
      omega
  · next h =>
    cases b with
    | true =>
      have hx : x / 2 ^ k % 2 = 0 := by simpa [bitAt] using h
      simp only [bitAt, if_true, Nat.add_div_right x hp, beq_iff_eq]
      omega
    | false => simpa using h

theorem Reg.modulus_slicesGated : Reg.modulus .slicesGated = 2 ^ 32 := by decide +kernel

theorem Dev.gated_setGated (t : Nat) (on : Bool) : (d.setGated t on).gated t = on := by
  have ht : t % 4 < 32 := by omega
  rw [Dev.gated, Dev.setGated, Dev.rd_wr_same, Reg.modulus_slicesGated, bitAt_eq_testBit, Nat.testBit_mod_two_pow,
    ← bitAt_eq_testBit, bitAt_setBit]
  simp [ht]

theorem Dev.onlyRegs_wr (r : Reg) (i v : Nat) : d.onlyRegs (d.wr r i v) [(r, i)] := by
  refine ⟨fun q j h => ?_, rfl⟩
  rw [Dev.rd_wr, if_neg fun hq => h (by simp [hq.1, hq.2])]

/-- A command on an element of the device completes with what it does at its tick. -/
theorem completes_onElement {c : Instr} {s : State} {n x bound : Nat} {f : Nat → Dev → Dev} {p : Dev → Prop}
    (hc : exec c s = onElement x bound s fun s => s.at_ n f) (hx : x < bound) (hp : p (f (max s.now n) s.dev)) :
    Completes c s n p :=
  ⟨_, hc.trans (if_pos hx), rfl, rfl, hp⟩

theorem sliceWake_completes {s : State} {n t : Nat} (ht : t < 32) (hg : s.dev.gated t = true)
    (hw : s.dev.wakeDue (max s.now n) t = true) :
    Completes (.sliceWake n t) s n fun e => e.gated t = false ∧ s.dev.onlyRegs e [(.slicesGated, quadOf t)] := by
  refine completes_onElement rfl ht ?_
  simp only [hg, hw, Bool.and_self, if_true]
  exact ⟨Dev.gated_setGated _ t false, Dev.onlyRegs_wr _ _ _ _⟩

theorem sliceGate_completes {s : State} {n t c : Nat} (ht : t < 32) (hc : (s.dev.tree t).windowFrame = some c)
    (hp : s.dev.treeProfile t = 3) (ha : s.dev.anyCaptured t = false) (hn : (s.dev.tree t).captures = 0)
    (hq : s.dev.quietEnd t c ≤ max s.now n)
    (hw : s.dev.wakeDue (max s.now n) t = false ∨ c = s.dev.rd .superframe 0) :
    Completes (.sliceGate n t) s n fun e => e.gated t = true ∧ s.dev.onlyRegs e [(.slicesGated, quadOf t)] := by
  have hw' : (s.dev.wakeDue (max s.now n) t && decide (c ≠ s.dev.rd .superframe 0)) = false := by
    rcases hw with h | h <;> simp [h]
  refine completes_onElement rfl ht ?_
  simp only [hc, hp, ha, hn, hq, hw', beq_self_eq_true, Bool.not_false, Bool.and_self, decide_true, if_true]
  exact ⟨Dev.gated_setGated _ t true, Dev.onlyRegs_wr _ _ _ _⟩

/-! ### The bridges -/

theorem Reg.modulus_bridgeState (b : Nat) : Reg.modulus (bridgeState b) = 256 := by
  unfold bridgeState
  split <;> decide +kernel

theorem Reg.modulus_crossFlushes : Reg.modulus .crossFlushes = 2 ^ 64 := by decide +kernel
theorem Reg.modulus_bridgeRetrains : Reg.modulus .bridgeRetrains = 2 ^ 64 := by decide +kernel

theorem bridgeState_ne {b : Nat} {r : Reg} (ha : r ≠ .bridgeAState) (hb : r ≠ .bridgeBState) : bridgeState b ≠ r := by
  unfold bridgeState
  split
  · exact ha.symm
  · exact hb.symm

theorem bridgeRelock_completes {s : State} {n b : Nat} (hb : b < 2) (h2 : s.dev.rd (bridgeState b) 0 ≠ 2)
    (hp : s.dev.chip.phase ≠ .porst) (hs : s.dev.chip.phase ≠ .starting) :
    Completes (.bridgeRelock n b) s n fun e =>
      e.rd (bridgeState b) 0 = 2 ∧ e.rd .bridgeRetrains b = (s.dev.rd .bridgeRetrains b + 1) % 2 ^ 64 ∧
      s.dev.released e (288 + 8 * b) ∧ s.dev.regsKept e [(bridgeState b, 0), (.bridgeRetrains, b)] := by
  have hne : bridgeState b ≠ .bridgeRetrains := bridgeState_ne nofun nofun
  refine completes_onElement rfl hb ?_
  simp only [h2, hp, hs, or_self, if_false, Dev.bridgeLocks, Dev.bump_eq]
  refine ⟨?_, ?_, Dev.dropLevel_released _ _, fun r i h => ?_⟩
  · simp [Dev.rd_wr, hne, Reg.modulus_bridgeState]
  · simp [Dev.rd_wr, hne.symm, Reg.modulus_bridgeRetrains]
  · simp only [List.mem_cons, Prod.mk.injEq, List.not_mem_nil, or_false, not_or] at h
    simp [Dev.rd_wr, h]

/-- BRIDGE_LOCK_LOSS on the device, after the frames in transit are lost: `k` on their way up, `j` on their way down. -/
def Dev.unlockBridge (n b k j : Nat) : Dev :=
  let d := ((d.wr (bridgeState b) 0 1).add .crossFlushes 74 k).add .crossFlushes (72 + b) j
  let d := if k + j = 0 then d else d.event n 424 (if k = 0 then 72 + b else 74)
  d.raiseLevel n { source := 288 + 8 * b, index := b }

theorem Dev.unlockBridge_butFaults (n b k j : Nat) : (d.unlockBridge n b k j).butFaults = d.butFaults := by
  unfold Dev.unlockBridge
  rw [Dev.raiseLevel_butFaults]
  split
  · rfl
  · rw [Dev.event_butFaults]
    rfl

theorem Dev.unlockBridge_level (n b k j : Nat) : ((d.unlockBridge n b k j).source (288 + 8 * b)).level = true :=
  Dev.raiseLevel_level _ n _ (Dev.unevaluated_of_le _ (by simp; omega))

theorem Dev.unlockBridge_rd (n b k j i : Nat) {r : Reg} (h : r ≠ .occurrences) :
    (d.unlockBridge n b k j).rd r i =
      (((d.wr (bridgeState b) 0 1).add .crossFlushes 74 k).add .crossFlushes (72 + b) j).rd r i := by
  unfold Dev.unlockBridge
  rw [Dev.raiseLevel_rd _ _ _ _ h]
  split
  · rfl
  · exact Dev.event_rd _ _ _ _ _ h

/-- The frames in transit that a lock loss of bridge `b` loses: how many on their way up, how many on their way down, and the
device without them. -/
def Dev.losses (b : Nat) (up down : List Nat) : Nat × Nat × Dev :=
  let u := d.loseAll Dev.loseUp (up.filter fun t => dieOf t == b)
  let v := u.2.loseAll Dev.loseDown (down.filter fun t => dieOf t == b)
  (u.1, v.1, v.2)

section
variable (b : Nat) (up down : List Nat)

theorem dieOf_of_mem_filter {l : List Nat} {b t : Nat} (h : t ∈ l.filter fun t => dieOf t == b) : dieOf t = b := by
  simpa using (List.mem_filter.1 h).2

theorem Dev.losses_rd {r : Reg} (i : Nat) (h : r ≠ .sampleNext) : (d.losses b up down).2.2.rd r i = d.rd r i :=
  (Dev.loseAll_keeps _ (Dev.rd · r i) fun d t _ => d.loseDown_rd t i h).trans
    (d.loseAll_keeps (Dev.rd · r i) fun d t _ => d.loseUp_rd t i)

theorem Dev.loseAll_up_tree (ts : List Nat) (t : Nat) : (d.loseAll Dev.loseUp ts).2.tree t = d.tree t :=
  d.loseAll_keeps (Dev.tree · t) fun d x _ => d.loseUp_tree x t

theorem Dev.losses_tree {t : Nat} (h : dieOf t ≠ b) : (d.losses b up down).2.2.tree t = d.tree t :=
  (Dev.loseAll_keeps _ (Dev.tree · t) fun d x hx => d.loseDown_tree x t fun e => h (e ▸ dieOf_of_mem_filter hx)).trans
    (d.loseAll_up_tree _ t)

/-- The frames lost on the way up no longer wait. -/
theorem Dev.losses_up :
    (d.losses b up down).1 = d.treeWaiting.length - (d.losses b up down).2.2.treeWaiting.length := by
  have hu := d.loseAll_count (fun d => d.treeWaiting.length) (lose := Dev.loseUp)
    (ts := up.filter fun t => dieOf t == b) fun d t _ => d.loseUp_count t
  have hd : (d.losses b up down).2.2.treeWaiting = (d.loseAll Dev.loseUp (up.filter fun t => dieOf t == b)).2.treeWaiting :=
    Dev.loseAll_keeps _ Dev.treeWaiting fun d t _ => d.loseDown_treeWaiting t
  rw [hd]
  exact (Nat.sub_eq_of_eq_add hu.symm).symm

/-- The frames lost on the way down no longer wait for their trees. -/
theorem Dev.losses_down :
    (d.losses b up down).2.1 =
      ((treesOfDie b).map fun t =>
        (d.tree t).payload.length - ((d.losses b up down).2.2.tree t).payload.length).sum := by
  have hc := (d.loseAll Dev.loseUp (up.filter fun t => dieOf t == b)).2.loseAll_count (Dev.downWaiting · b)
    (lose := Dev.loseDown) (ts := down.filter fun t => dieOf t == b) fun d t ht =>
      d.loseDown_downWaiting (dieOf_of_mem_filter ht)
  have hs := Dev.downWaiting_sub _ (b := b)
    (Dev.loseAll_down_le (d.loseAll Dev.loseUp (up.filter fun t => dieOf t == b)).2 (down.filter fun t => dieOf t == b))
  simp only [Dev.loseAll_up_tree] at hs
  exact (Nat.sub_eq_of_eq_add hc.symm).symm.trans hs.symm

end

theorem exec_bridgeLockLoss (s : State) (n b : Nat) (up down : List Nat) :
    exec (.bridgeLockLoss n b up down) s = onElement b 2 s fun s => s.at_ n fun n d =>
      if d.rd (bridgeState b) 0 ≠ 2 then d
      else (d.losses b up down).2.2.unlockBridge n b (d.losses b up down).1 (d.losses b up down).2.1 := rfl

theorem bridgeLockLoss_completes {s : State} {n b : Nat} (up down : List Nat) (hb : b < 2)
    (h2 : s.dev.rd (bridgeState b) 0 = 2) :
    Completes (.bridgeLockLoss n b up down) s n fun e =>
      e.rd (bridgeState b) 0 = 1 ∧
      e.rd .crossFlushes 74 =
        (s.dev.rd .crossFlushes 74 + (s.dev.treeWaiting.length - e.treeWaiting.length)) % 2 ^ 64 ∧
      e.rd .crossFlushes (72 + b) = (s.dev.rd .crossFlushes (72 + b) +
        ((treesOfDie b).map fun t => (s.dev.tree t).payload.length - (e.tree t).payload.length).sum) % 2 ^ 64 ∧
      (∀ t < 32, dieOf t ≠ b → e.tree t = s.dev.tree t) ∧
      (e.source (288 + 8 * b)).level = true ∧
      ∀ r i, r ≠ .occurrences → r ≠ .sampleNext →
        (r, i) ∉ [(bridgeState b, 0), (.crossFlushes, 74), (.crossFlushes, 72 + b)] → e.rd r i = s.dev.rd r i := by
  have hne : bridgeState b ≠ .crossFlushes := bridgeState_ne nofun nofun
  have hno : bridgeState b ≠ .occurrences := bridgeState_ne nofun nofun
  have h74 : (74 : Nat) ≠ 72 + b := by omega
  have tree_eq := fun t => Dev.tree_of_butFaults
    ((s.dev.losses b up down).2.2.unlockBridge_butFaults (max s.now n) b (s.dev.losses b up down).1
      (s.dev.losses b up down).2.1) t
  have waiting_eq := Dev.treeWaiting_of_butFaults
    ((s.dev.losses b up down).2.2.unlockBridge_butFaults (max s.now n) b (s.dev.losses b up down).1
      (s.dev.losses b up down).2.1)
  refine completes_onElement (exec_bridgeLockLoss s n b up down) hb ?_
  rw [if_neg (not_not.2 h2)]
  simp only [tree_eq, waiting_eq, ← Dev.losses_up, ← Dev.losses_down]
  refine ⟨?_, ?_, ?_, fun t _ ht => s.dev.losses_tree b up down ht, Dev.unlockBridge_level _ _ _ _ _,
    fun r i ho hs h => ?_⟩
  · simp [Dev.unlockBridge_rd, hno, Dev.rd_add, hne, Reg.modulus_bridgeState]
  · simp [Dev.unlockBridge_rd, Dev.rd_add, Dev.rd_wr, hne.symm, h74, Dev.losses_rd, Reg.modulus_crossFlushes]
  · simp [Dev.unlockBridge_rd, Dev.rd_add, Dev.rd_wr, hne.symm, h74.symm, Dev.losses_rd, Reg.modulus_crossFlushes]
  · simp only [List.mem_cons, Prod.mk.injEq, List.not_mem_nil, or_false, not_or] at h
    simp [Dev.unlockBridge_rd _ _ _ _ _ _ ho, Dev.rd_add, Dev.rd_wr, h, Dev.losses_rd _ _ _ _ _ hs]

theorem bridgeLockLoss_unlocked {s : State} {n b : Nat} (up down : List Nat) (hb : b < 2)
    (h2 : s.dev.rd (bridgeState b) 0 ≠ 2) : Completes (.bridgeLockLoss n b up down) s n fun e => e = s.dev :=
  completes_onElement (exec_bridgeLockLoss s n b up down) hb (if_pos h2)

/-- Settles O13: a lock loss counts as lost what no longer waits, and a slice reads as it was set. -/
theorem bridgesAndSlices : Obligations.BridgesAndSlices := by
  unfold Obligations.BridgesAndSlices
  refine ⟨fun s n b up down hb => ⟨bridgeLockLoss_completes up down hb, bridgeLockLoss_unlocked up down hb,
    bridgeRelock_completes hb⟩, fun s n t ht => ⟨fun hg hd hw => ?_, fun c hc hp ha hn hq hw => ?_⟩⟩
  · refine sliceWake_completes ht hg ?_
    rw [Dev.wakeDue, hd]
    exact decide_eq_true hw
  · exact sliceGate_completes ht hc hp ha hn hq hw

end Sys2Proof.Machine
end

section
/-!
PROOFS. What work of the Quarry banks changes (R113-R118): keystream, banks, the round-robin of management jobs and the
registers of `cipherRegs`, and nothing else of the device.
-/
namespace Sys2Proof.Machine
open Sys2Proof

/-! ### The relation -/

/-- The device but for its registers, banks and trees and the management jobs that wait. -/
def Dev.butCiphers (d : Dev) : Dev :=
  { d with regs := [], banks := [], trees := [], mgmt := { d.mgmt with gcmBank := 0, gcmWaiting := [] } }

/-- `e` is `d` after work of the banks. -/
structure Dev.Ciphers (d e : Dev) : Prop where
  rest : e.butCiphers = d.butCiphers
  regs : d.rdKept e cipherRegs
  tree : ∀ t, e.tree t = { d.tree t with keystream := (e.tree t).keystream }

namespace Dev.Ciphers

variable {d e f : Dev}

theorem refl (d : Dev) : d.Ciphers d := ⟨rfl, fun _ _ _ => rfl, fun _ => rfl⟩

theorem trans (h : d.Ciphers e) (k : e.Ciphers f) : d.Ciphers f where
  rest := k.rest.trans h.rest
  regs r i hr := (k.regs r i hr).trans (h.regs r i hr)
  tree t := by rw [k.tree t, h.tree t]

theorem each {α : Type} {l : List α} {g : Dev → α → Dev} (d : Dev) (h : ∀ (d : Dev), ∀ x ∈ l, d.Ciphers (g d x)) :
    d.Ciphers (d.each l g) := by
  induction l generalizing d with
  | nil => exact refl d
  | cons x l ih =>
    exact (h d x List.mem_cons_self).trans (ih _ fun d y hy => h d y (List.mem_cons_of_mem _ hy))

theorem ite_refl {c : Prop} [Decidable c] (h : d.Ciphers e) : d.Ciphers (if c then d else e) := by
  split
  · exact refl d
  · exact h

theorem slots (h : d.Ciphers e) : e.slots = d.slots := by
  change e.butCiphers.slots = d.butCiphers.slots
  rw [h.rest]

theorem chip (h : d.Ciphers e) : e.chip = d.chip := by
  change e.butCiphers.chip = d.butCiphers.chip
  rw [h.rest]

theorem wr (d : Dev) {r : Reg} (i v : Nat) (h : r ∈ cipherRegs) : d.Ciphers (d.wr r i v) where
  rest := rfl
  regs _ _ hq := Dev.rd_wr_other _ _ _ _ fun e => hq (e ▸ h)
  tree _ := rfl

theorem bump (d : Dev) {r : Reg} (i : Nat) (h : r ∈ cipherRegs) : d.Ciphers (d.bump r i) := wr d i _ h

theorem add (d : Dev) {r : Reg} (i k : Nat) (h : r ∈ cipherRegs) : d.Ciphers (d.add r i k) := wr d i _ h

theorem modBank (d : Dev) (q : Nat) (g : Bank → Bank) : d.Ciphers (d.modBank q g) := ⟨rfl, fun _ _ _ => rfl, fun _ => rfl⟩

theorem modKeystream (d : Dev) (t : Nat) (g : Tree → List Keystream) :
    d.Ciphers (d.modTree t fun x => { x with keystream := g x }) where
  rest := rfl
  regs _ _ _ := rfl
  tree x := by
    rw [Dev.tree_modTree]
    split
    · next h => rw [h]
    · rfl

theorem gcmQueue (d : Dev) (bank : Nat) (waiting : List Nat) :
    d.Ciphers { d with mgmt := { d.mgmt with gcmBank := bank, gcmWaiting := waiting } } :=
  ⟨rfl, fun _ _ _ => rfl, fun _ => rfl⟩

/-! ### The jobs -/

theorem credit (d : Dev) (j : Job) (blocks : Nat) : d.Ciphers (d.credit j blocks) := by
  unfold Dev.credit
  split
  · split
    · exact (modKeystream d _ _).trans (add _ _ _ (by decide))
    · exact refl d
  · exact refl d

theorem runBank (n q fuel : Nat) (d : Dev) : d.Ciphers (Dev.runBank n q fuel d) := by
  induction fuel generalizing d with
  | zero => exact refl d
  | succ fuel ih =>
    unfold Dev.runBank
    split
    · exact refl d
    · split
      · exact ((modBank d q _).trans (credit _ _ _)).trans (ih _)
      · exact refl d

theorem settleBank (d : Dev) (n q : Nat) : d.Ciphers (d.settleBank n q) := runBank n q _ d

theorem addJob (d : Dev) (n q : Nat) (j : Job) : d.Ciphers (d.addJob n q j) := by
  unfold Dev.addJob
  dsimp only
  split
  · exact modBank d q _
  · split
    · exact modBank d q _
    · split
      · exact ((ite_refl (bump d q (by decide))).trans (credit _ _ _)).trans (modBank _ q _)
      · exact (bump d q (by decide)).trans (modBank _ q _)

theorem queueJob (d : Dev) (n q : Nat) (src : JobSource) (slot : Option Nat) (ctr pos blocks : Nat) :
    d.Ciphers (d.queueJob n q src slot ctr pos blocks) :=
  ((settleBank d n q).trans (modBank _ q _)).trans (addJob _ n q _)

theorem integrityJob (d : Dev) (n t bytes : Nat) : d.Ciphers (d.integrityJob n t bytes) := by
  unfold Dev.integrityJob
  split
  · exact queueJob ..
  · exact refl d

/-! ### The upstream store -/

theorem fillStore (n t fuel : Nat) (d : Dev) : d.Ciphers (Dev.fillStore n t fuel d) := by
  induction fuel generalizing d with
  | zero => exact refl d
  | succ fuel ih =>
    unfold Dev.fillStore
    split
    · exact refl d
    · exact ((modKeystream d t _).trans (queueJob ..)).trans (ih _)

theorem askKeystream (d : Dev) (n t : Nat) (l : List Keystream) : d.Ciphers (d.askKeystream n t l) := by
  unfold Dev.askKeystream
  split
  · exact refl d
  · exact (modKeystream d t _).trans (fillStore ..)

theorem dropKeystream (d : Dev) (n t : Nat) (b : BurstRef) : d.Ciphers (d.dropKeystream n t b) := by
  unfold Dev.dropKeystream
  dsimp only
  split
  · exact refl d
  · exact ((modKeystream d t _).trans (wr _ _ _ (by decide))).trans (fillStore ..)

theorem forgetKeystream (d : Dev) (t : Nat) : d.Ciphers (d.forgetKeystream t) := by
  unfold Dev.forgetKeystream
  dsimp only
  split
  · exact refl d
  · exact (wr d _ _ (by decide)).trans (modKeystream _ t _)

/-! ### Management jobs -/

theorem placeGcm (n fuel : Nat) (d : Dev) : d.Ciphers (Dev.placeGcm n fuel d) := by
  induction fuel generalizing d with
  | zero => exact refl d
  | succ fuel ih =>
    unfold Dev.placeGcm
    split
    · exact refl d
    · split
      · exact refl d
      · exact ((((gcmQueue d _ _).trans (bump _ _ (by decide))).trans (modBank _ _ _)).trans (queueJob ..)).trans (ih _)

theorem gcmJob (d : Dev) (n bytes : Nat) : d.Ciphers (d.gcmJob n bytes) := by
  unfold Dev.gcmJob
  have settled : d.Ciphers (d.settleBanks n) := each d fun d q _ => settleBank d n q
  exact (settled.trans (gcmQueue _ (d.settleBanks n).mgmt.gcmBank _)).trans (placeGcm n _ _)

end Dev.Ciphers

end Sys2Proof.Machine
end

section
/-!
PROOFS. What leaves on the mate link (R254, R260, R268, R270): each payload sealed and sent, what sending changes of the
device, and the heartbeat and the mirror set of a frame.
-/
namespace Sys2Proof.Machine
open Sys2Proof

/-! ### What sending changes -/

/-- The device but for what a payload on the mate link changes. -/
def Dev.butSends (d : Dev) : Dev :=
  { d.butCiphers with
    lanes := [], wire := [], free := 0, mate := { d.mate with mateNext := 0, seqTx := 0, sentAt := 0, hbSeq := 0 } }

/-- `e` is `d` after payloads for the mate link: MATE_STATE shows a link that was idle awake again. -/
structure Dev.Sends (d e : Dev) : Prop where
  rest : e.butSends = d.butSends
  regs : d.rdKept e (.mateState :: cipherRegs)
  tree : ∀ t, e.tree t = { d.tree t with keystream := (e.tree t).keystream }
  wire : d.wire <+: e.wire
  alive : d.rd .mateState 0 ≠ 0 → e.rd .mateState 0 ≠ 0

namespace Dev.Sends

variable {d e f : Dev}

theorem refl (d : Dev) : d.Sends d := ⟨rfl, fun _ _ _ => rfl, fun _ => rfl, List.prefix_rfl, id⟩

theorem trans (h : d.Sends e) (k : e.Sends f) : d.Sends f where
  rest := k.rest.trans h.rest
  regs r i hr := (k.regs r i hr).trans (h.regs r i hr)
  tree t := by rw [k.tree t, h.tree t]
  wire := h.wire.trans k.wire
  alive := k.alive ∘ h.alive

theorem each {α : Type} {l : List α} {g : Dev → α → Dev} (d : Dev) (h : ∀ (d : Dev), ∀ x ∈ l, d.Sends (g d x)) :
    d.Sends (d.each l g) := by
  induction l generalizing d with
  | nil => exact refl d
  | cons x l ih =>
    exact (h d x List.mem_cons_self).trans (ih _ fun d y hy => h d y (List.mem_cons_of_mem _ hy))

theorem mateKey (h : d.Sends e) : e.mateKey = d.mateKey := by
  change e.butSends.mateKey = d.butSends.mateKey
  rw [h.rest]

theorem of_ciphers (h : d.Ciphers e) : d.Sends e where
  rest := by
    have hm : e.mate = d.mate := by
      change e.butCiphers.mate = d.butCiphers.mate
      rw [h.rest]
    unfold Dev.butSends
    rw [h.rest, hm]
  regs r i hr := h.regs r i fun hc => hr (List.mem_cons_of_mem _ hc)
  tree := h.tree
  wire := by
    change d.wire <+: e.butCiphers.wire
    rw [h.rest]
    exact List.prefix_rfl
  alive hd := by rwa [h.regs .mateState 0 (by decide)]

theorem emit (d : Dev) (x : Emission) : d.Sends (d.emit x) :=
  ⟨rfl, fun _ _ _ => rfl, fun _ => rfl, List.prefix_append _ _, id⟩

theorem modLane (d : Dev) (l : Nat) (g : Lane → Lane) : d.Sends (d.modLane l g) :=
  ⟨rfl, fun _ _ _ => rfl, fun _ => rfl, List.prefix_rfl, id⟩

/-- The mate counters of nonces, frames and heartbeats, and the tick of the last frame sent, are what sending advances. -/
theorem counters (d : Dev) (nonce seq at_ beat free : Nat) :
    d.Sends { d with free := free, mate := { d.mate with mateNext := nonce, seqTx := seq, sentAt := at_, hbSeq := beat } } :=
  ⟨rfl, fun _ _ _ => rfl, fun _ => rfl, List.prefix_rfl, id⟩

/-! ### The link -/

theorem wakeLane (d : Dev) (n l : Nat) : d.Sends (d.wakeLane n l) := by
  unfold Dev.wakeLane
  split
  · exact (modLane d l _).trans (emit _ _)
  · exact refl d

theorem showIdle (d : Dev) : d.Sends (d.showIdle .mate) := by
  unfold Dev.showIdle
  dsimp only
  split
  · exact refl d
  · refine ⟨rfl, fun r i hr => Dev.rd_wr_other _ _ _ _ fun h => hr (h ▸ List.mem_cons_self), fun _ => rfl, List.prefix_rfl,
      fun _ => ?_⟩
    rw [Dev.rd_wr_same]
    split <;> decide +kernel

theorem wakeLink (d : Dev) (n : Nat) : d.Sends (d.wakeLink n .mate).2 :=
  (each d fun d l _ => wakeLane d n l).trans (showIdle _)

theorem fillMate (d : Dev) (at_ : Nat) : d.Sends (d.fillMate at_) :=
  (counters d _ _ _ _ _).trans (emit _ _)

theorem putMate (d : Dev) (at_ type length : Nat) (payload : Nat → Bytes) : d.Sends (d.putMate at_ type length payload) :=
  ((fillMate d at_).trans (counters _ _ _ _ _ _)).trans (emit _ _)

theorem sendMate (d : Dev) (n type length : Nat) (payload : Nat → Nat → Bytes) :
    d.Sends (d.sendMate n type length payload) := by
  unfold Dev.sendMate
  split
  · exact refl d
  · exact (wakeLink d n).trans (putMate _ _ _ _ _)

theorem sendSealed (d : Dev) (n type : Nat) (headed : Bool) (clear : Bytes) (length : Nat) (plain : Nat → Bytes) :
    d.Sends (d.sendSealed n type headed clear length plain) := by
  unfold Dev.sendSealed
  split
  · exact refl d
  · exact ((counters d _ _ _ _ _).trans (of_ciphers (Ciphers.gcmJob _ n length))).trans (sendMate _ _ _ _ _)

end Dev.Sends

/-! ### Mirror sets on the wire (R268) -/

variable (d : Dev)

/-- The superframe counts of the mirror sets sent so far, part by part. -/
def Dev.setsSent (d : Dev) : List Nat := d.wire.filterMap Emission.setSfc

theorem Dev.setsSent_emit (x : Emission) : (d.emit x).setsSent = d.setsSent ++ x.setSfc.toList := by
  rw [Dev.setsSent, Dev.wire_emit, List.filterMap_append]
  cases h : x.setSfc <;> simp [h, Dev.setsSent]

theorem Dev.setsSent_wakeLane (n l : Nat) : (d.wakeLane n l).setsSent = d.setsSent := by
  unfold Dev.wakeLane
  split
  · exact (Dev.setsSent_emit _ _).trans (List.append_nil _)
  · rfl

theorem Dev.setsSent_wakeLink (n : Nat) : (d.wakeLink n .mate).2.setsSent = d.setsSent := by
  have lanes := d.each_keeps Dev.setsSent (l := d.linkLanes .mate) (f := fun d l => d.wakeLane n l)
    fun d l _ => d.setsSent_wakeLane n l
  refine Eq.trans ?_ lanes
  unfold Dev.wakeLink Dev.showIdle
  dsimp only
  split <;> rfl

theorem Dev.setsSent_fillMate (at_ : Nat) : (d.fillMate at_).setsSent = d.setsSent :=
  (Dev.setsSent_emit _ _).trans (List.append_nil _)

theorem ofBool_le_one (b : Bool) : ofBool b ≤ 1 := by cases b <;> decide

/-- TYPE of a mate header is the type it is made with (R260). -/
theorem mateHeader_type (length : Nat) {type role : Nat} (ais rdi : Bool) (seq : Nat) (ht : type < 16) (hr : role ≤ 1) :
    mateHeader length type ais rdi role seq / 2 ^ 46 % 16 = type := by
  have ha := ofBool_le_one ais
  have hd := ofBool_le_one rdi
  unfold mateHeader
  dsimp only
  norm_num
  omega

theorem toBytes_lt {k v x : Nat} (h : x ∈ toBytes k v) : x < 256 := by
  induction k with
  | zero => cases h
  | succ k ih =>
    rcases List.mem_cons.1 h with rfl | h
    · exact Nat.mod_lt _ (by decide)
    · exact ih h

/-- The number that `n` bytes spell in the midst of others. -/
theorem numAt_append (a c : Bytes) (n v : Nat) : numAt (a ++ toBytes n v ++ c) a.length n = v % 256 ^ n := by
  have h : (List.range n).map (fun k => byteAt (a ++ toBytes n v ++ c) (a.length + k)) = toBytes n v := by
    refine List.ext_getElem (by simp) fun i hi hb => ?_
    have hn : i < n := by simpa using hi
    simp [byteAt, List.getD_eq_getElem?_getD, List.getElem?_append, hn, Nat.mod_eq_of_lt (toBytes_lt (List.getElem_mem hb))]
  rw [numAt, h, ofBytes_toBytes]

/-- A frame of TYPE 2 that leaves on the link is a part of the set that its content names. -/
theorem Dev.setsSent_putMate {at_ length v : Nat} {payload : Nat → Bytes} (h : ∀ x, numAt (payload x) 12 8 = v) :
    (d.putMate at_ 2 length payload).setsSent = d.setsSent ++ [v] := by
  have hrole : (if (d.fillMate at_).rd .unitRole 0 = 1 then 1 else 0) ≤ 1 := by split <;> decide
  have head : (Emission.mateFrame at_ ((d.fillMate at_).nextHeader length 2 1).1
      (payload ((d.fillMate at_).nextHeader length 2 1).1)).setSfc = some v :=
    (if_pos (mateHeader_type _ _ _ _ (by decide) hrole)).trans (congrArg some (h _))
  calc (d.putMate at_ 2 length payload).setsSent
      = (d.fillMate at_).setsSent ++ (Emission.mateFrame at_ ((d.fillMate at_).nextHeader length 2 1).1
          (payload ((d.fillMate at_).nextHeader length 2 1).1)).setSfc.toList := Dev.setsSent_emit _ _
    _ = d.setsSent ++ [v] := by rw [head, Dev.setsSent_fillMate]; rfl

theorem Dev.setsSent_of_ciphers {d e : Dev} (h : d.Ciphers e) : e.setsSent = d.setsSent := by
  change e.butCiphers.setsSent = d.butCiphers.setsSent
  rw [h.rest]

/-- A part sealed for a link that is up, under a mate key, leaves. -/
theorem Dev.setsSent_sendSealed {n sfc length : Nat} {rest : Bytes} {plain : Nat → Bytes}
    (hk : d.mateKey.isSome = true) (hu : d.rd .mateState 0 ≠ 0) :
    (d.sendSealed n 2 true (toBytes 8 sfc ++ rest) length plain).setsSent = d.setsSent ++ [sfc % 2 ^ 64] := by
  obtain ⟨k, hk⟩ := Option.isSome_iff_exists.1 hk
  have hc := Ciphers.gcmJob d.mateNonce.2 n length
  have hs : (d.mateNonce.2.gcmJob n length).rd .mateState 0 ≠ 0 := by
    rw [hc.regs .mateState 0 (by decide)]
    exact hu
  have sfcAt : ∀ c, numAt (toBytes 12 d.mateNonce.1 ++ (toBytes 8 sfc ++ rest) ++ c) 12 8 = sfc % 2 ^ 64 := fun c => by
    have := numAt_append (toBytes 12 d.mateNonce.1) (rest ++ c) 8 sfc
    rwa [toBytes_length, List.append_assoc, ← List.append_assoc (toBytes 8 sfc), ← List.append_assoc] at this
  unfold Dev.sendSealed
  simp only [hk, Dev.sendMate]
  rw [if_neg hs, Dev.setsSent_putMate _ fun x => sfcAt _, Dev.setsSent_wakeLink, Dev.setsSent_of_ciphers hc]
  rfl

/-! ### The mirror deadline -/

/-- The parts of a set leave one by one. -/
theorem Dev.sendSet_sends (n sfc : Nat) (records : List MirrorRecord) : d.Sends (d.sendSet n sfc records) :=
  Sends.each d fun d _ _ => Sends.sendSealed d _ _ _ _ _ _

theorem Dev.setsSent_sendSet (n sfc : Nat) (records : List MirrorRecord) (hk : d.mateKey.isSome = true)
    (hu : d.rd .mateState 0 ≠ 0) :
    (d.sendSet n sfc records).setsSent = d.setsSent ++ List.replicate
      (cutParts partBytes (records.map recordBytes).flatten.length (records.map recordBytes).flatten).length
      (sfc % 2 ^ 64) := by
  have parts : ∀ (g : Nat × Bytes → Bytes) (l : List (Nat × Bytes)) (d : Dev), d.mateKey.isSome = true →
      d.rd .mateState 0 ≠ 0 →
      (d.each l fun d p => d.sendSealed n 2 true (toBytes 8 sfc ++ g p) p.2.length fun _ => p.2).setsSent =
        d.setsSent ++ List.replicate l.length (sfc % 2 ^ 64) := by
    intro g l
    induction l with
    | nil => simp
    | cons p l ih =>
      intro d hk hu
      have hs := Sends.sendSealed d n 2 true (toBytes 8 sfc ++ g p) p.2.length fun _ => p.2
      rw [Dev.each_cons, ih _ (by rwa [hs.mateKey]) (hs.alive hu), Dev.setsSent_sendSealed d hk hu, List.append_assoc]
      rfl
  unfold Dev.sendSet
  simp only [List.append_assoc]
  refine (parts (fun p => toBytes 2 _ ++ [0, 0]) _ d hk hu).trans ?_
  simp

theorem allTrees_all_not {p : Nat → Bool} : allTrees.all (fun t => !p t) = true ↔ ∀ t < 32, p t = false := by
  simp [allTrees]

/-- The mirror set of a frame leaves part by part, each under the frame's superframe count. -/
theorem Dev.sendSet_wire (n sfc : Nat) (records : List MirrorRecord) (hk : d.mateKey.isSome = true)
    (hu : d.rd .mateState 0 ≠ 0) :
    ∃ l, (d.sendSet n sfc records).wire = d.wire ++ l ∧ l.filterMap Emission.setSfc = List.replicate
      (cutParts partBytes (records.map recordBytes).flatten.length (records.map recordBytes).flatten).length
      (sfc % 2 ^ 64) := by
  obtain ⟨l, hl⟩ := (d.sendSet_sends n sfc records).wire
  have sets := d.setsSent_sendSet n sfc records hk hu
  rw [Dev.setsSent, ← hl, List.filterMap_append] at sets
  exact ⟨l, hl.symm, List.append_cancel_left sets⟩

/-! ### The heartbeat -/

theorem Reg.modulus_hbSent : Reg.modulus .hbSent = 2 ^ 64 := by decide +kernel

/-- A heartbeat leaves the pins last, and is counted beside what its frame on the link changes. -/
theorem Dev.sendHeartbeat_of_on (n : Nat) (refuse : Bool) (h : d.on .redundancyEnable 0 = true) :
    ∃ e w, d.Sends e ∧ d.sendHeartbeat n refuse = (e.emit (.pinWord w)).bump .hbSent 0 :=
  ⟨_, _, (Sends.counters d _ _ _ _ _).trans (Sends.sendSealed _ n 1 false [] 40 _), if_pos h⟩

theorem heartbeatMidframe_sends {s : State} (h : s.dev.on .redundancyEnable 0 = true) :
    Completes .heartbeatMidframe s (s.dev.rd .frameTick 0 + 77760) fun e =>
      (∃ w, e.wire.getLast? = some (.pinWord w)) ∧
      e.rd .hbSent 0 = (s.dev.rd .hbSent 0 + 1) % 2 ^ 64 ∧ s.dev.rdKept e (.hbSent :: .mateState :: cipherRegs) := by
  obtain ⟨e, w, he, heq⟩ := s.dev.sendHeartbeat_of_on (max s.now (s.dev.rd .frameTick 0 + 77760)) false h
  refine ⟨_, rfl, rfl, rfl, ?_⟩
  dsimp only [State.at_]
  rw [heq]
  refine ⟨⟨w, List.getLast?_concat⟩, ?_, fun r i hr => ?_⟩
  · rw [Dev.bump_eq, Dev.rd_wr_same, Dev.emit_rd, he.regs .hbSent 0 (by decide), Reg.modulus_hbSent]
  · obtain ⟨hb, hr⟩ := not_or.1 (mt List.mem_cons.2 hr)
    rw [Dev.bump_eq, Dev.rd_wr_other _ _ _ _ hb, Dev.emit_rd, he.regs r i hr]

/-- Settles O9: each part of a set is counted by the superframe count it names. -/
theorem mateSendingPoints : Obligations.MateSendingPoints := by
  unfold Obligations.MateSendingPoints
  refine ⟨fun s => ⟨heartbeatMidframe_sends, fun h hm => ⟨_, rfl, rfl, rfl, ?_⟩, fun h hm => ⟨_, rfl, rfl, rfl, ?_⟩⟩,
    fun s => ⟨fun ⟨hr, hm, hk, ht⟩ => ⟨_, rfl, rfl, rfl, ?_⟩, fun hn => ⟨_, rfl, rfl, rfl, ?_⟩⟩⟩
  · dsimp only [State.at_, Dev.sendHeartbeat]
    rw [if_neg (by simp [h]), if_pos hm]
    exact ⟨⟨_, _, rfl⟩, rfl⟩
  · exact (if_neg (by simp [h])).trans (if_neg hm)
  · dsimp only [State.at_]
    rw [if_pos ⟨hr, hm, hk, allTrees_all_not.2 ht⟩]
    exact ⟨Dev.sendSet_wire _ _ _ _ hk hm, fun r h => List.mem_append_right _ (List.mem_map_of_mem h),
      (Dev.sendSet_sends _ _ _ _).regs⟩
  · exact if_neg fun ⟨hr, hm, hk, ht⟩ => hn ⟨hr, hm, hk, allTrees_all_not.1 ht⟩

end Sys2Proof.Machine
end

section
/-!
PROOFS. Keys installed and erased (R27, R120, R124): what the two writes make of the slots, of the banks' jobs and of the
registers.
-/
namespace Sys2Proof.Machine
open Sys2Proof

variable (d : Dev)

/-! ### Accepted writes -/

@[simp] theorem Dev.durable_slot (n : Nat) (f : Nat → MirrorRecord) (k : Nat) : (d.durable n f).slot k = d.slot k := by
  simp [Dev.slot]
@[simp] theorem Dev.durable_tree (n : Nat) (f : Nat → MirrorRecord) (t : Nat) : (d.durable n f).tree t = d.tree t := by
  simp [Dev.tree]
@[simp] theorem Dev.durable_bank (n : Nat) (f : Nat → MirrorRecord) (q : Nat) : (d.durable n f).bank q = d.bank q := by
  simp [Dev.bank]

/-- What a write's action brings about, and no durable record undoes, holds after the write. -/
theorem Dev.writeReg_of_applyReg {p : Dev → Prop} {n : Nat} {m : Master} {r : Reg} {i : Nat} {data : Bytes}
    (h : p (d.applyReg n m r i (d.stored r i (ofBytes data)) data)) (hd : ∀ e f, p e → p (e.durable n f)) :
    p (d.writeReg n m r i data) := by
  rcases d.writeReg_cases n m r i data with e | ⟨f, e⟩ <;> rw [e]
  · exact h
  · exact hd _ f h

/-- No reset waits at a master that is heard. -/
theorem Dev.pendingReset_of_accepts {d : Dev} {n : Nat} {m : Master} {r : Reg} {i : Nat} {data : Bytes}
    (h : d.accepts n m r i data = true) : (d.asked n m).chip.pendingReset = none := by
  simp only [Dev.accepts, Dev.hears, Bool.and_eq_true, Option.isNone_iff_eq_none] at h
  exact h.1.1.1.1.1.1.1.2

theorem Dev.stored_keyNext (i v : Nat) : d.stored .keyNext i v = v := by
  change (if (Reg.row .keyNext).ty = .bool then v % 2 else v) = v
  exact if_neg (by decide +kernel)

theorem Dev.stored_keyErase_one (i : Nat) : d.stored .keyErase i 1 = 1 := by
  exact ite_self (c := (Reg.row .keyErase).ty = .bool) 1

/-! ### KEY_NEXT -/

@[simp] theorem Dev.drawSalt_slot (j : Nat) : d.drawSalt.slot j = d.slot j := by
  unfold Dev.drawSalt
  split <;> rfl

@[simp] theorem Dev.drawSalt_chip : d.drawSalt.chip = d.chip := by
  unfold Dev.drawSalt
  split <;> rfl

/-- A slot whose next half a KEY_NEXT value of slot `k` replaces. -/
def Slot.withNext (k data : Nat) (x : Slot) : Slot :=
  { x with
    next := some (keyOf data), retiring := false, switchSfc := if switchedByCount k then switchOf data else x.switchSfc }

/-- A message other than the switch message of slot `k`. -/
def notSwitchOf (k : Nat) : Ploam → Bool
  | .keySwitch i _ _ => i != k
  | _ => true

/-- `e` is `d` with a KEY_NEXT value in slot `k`, as far as slots, messages and resets go. -/
structure Dev.NextWritten (d e : Dev) (k data : Nat) : Prop where
  slot : ∀ j, e.slot j = if j = k then (d.slot k).withNext k data else d.slot j
  chip : e.chip = d.chip
  sequencer : slotKind k = .data → (e.tree (k / 512)).sequencer =
    (d.tree (k / 512)).sequencer.filter (notSwitchOf k) ++ [.keySwitch k (keyOf data).index (switchOf data)]

theorem Dev.NextWritten.durable {d e : Dev} {k data : Nat} (h : d.NextWritten e k data) (n : Nat)
    (f : Nat → MirrorRecord) : d.NextWritten (e.durable n f) k data :=
  ⟨by simpa using h.slot, by simpa using h.chip, by simpa using h.sequencer⟩

theorem Dev.applyKeyNext_written (k data : Nat) : d.NextWritten (d.applyKeyNext k data) k data := by
  have slot := fun j => d.slot_modSlot k j (Slot.withNext k data)
  unfold Dev.applyKeyNext
  dsimp only
  split
  · refine ⟨slot, rfl, fun _ => ?_⟩
    simp only [Dev.seqMsg, Dev.tree_modTree, if_true]
    rfl
  · next h => exact ⟨fun j => (Dev.drawSalt_slot _ j).trans (slot j), Dev.drawSalt_chip _,
      fun hk => by simp [h] at hk⟩
  · next h => exact ⟨fun j => (Dev.drawSalt_slot _ j).trans (slot j), Dev.drawSalt_chip _,
      fun hk => by simp [h] at hk⟩
  · next h _ _ => exact ⟨slot, rfl, fun hk => absurd hk h⟩

/-! ### KEY_ERASE -/

/-- A bank that runs makes keystream ready, and changes no register else. -/
theorem Dev.runBank_rd (n q fuel : Nat) {r : Reg} (i : Nat) (h : r ≠ .ksReady) :
    (Dev.runBank n q fuel d).rd r i = d.rd r i := by
  have credited : ∀ (d : Dev) (j : Job) (blocks : Nat), (d.credit j blocks).rd r i = d.rd r i := by
    intro d j blocks
    unfold Dev.credit
    split
    · split
      · exact Dev.rd_wr_other _ _ _ _ h
      · rfl
    · rfl
  induction fuel generalizing d with
  | zero => rfl
  | succ fuel ih =>
    unfold Dev.runBank
    split
    · rfl
    · split
      · exact (ih _).trans (credited _ _ _)
      · rfl

/-- A slot with neither half, marked erased. -/
def Slot.emptied (x : Slot) : Slot := { x with current := none, next := none, retiring := false, erased := true }

/-- `e` is `d` after slot `k` was erased, as far as slots, jobs, resets and registers go. -/
structure Dev.Erased (d e : Dev) (k : Nat) : Prop where
  slot : ∀ j, e.slot j = if j = k then (d.slot k).emptied else d.slot j
  chip : e.chip = d.chip
  jobs : ∀ t, slotTree k = some t → ∀ j ∈ (e.bank (quadOf t)).queue ++ (e.bank (quadOf t)).suspended, j.slot ≠ some k
  regs : d.rdKept e [.dseqSent, .ksReady]

theorem Dev.Erased.durable {d e : Dev} {k : Nat} (h : d.Erased e k) (n : Nat) (f : Nat → MirrorRecord) :
    d.Erased (e.durable n f) k where
  slot := by simpa using h.slot
  chip := by simpa using h.chip
  jobs := by simpa using h.jobs
  regs r i hr := (e.durable_rd n f i fun hd => hr (hd ▸ List.mem_cons_self)).trans (h.regs r i hr)

theorem Dev.applyKeyErase_erased {k : Nat} (n : Nat) (h : (d.slot k).current ≠ none ∨ (d.slot k).next ≠ none) :
    d.Erased (d.applyKeyErase n k) k := by
  have held : ¬((d.slot k).current.isNone && (d.slot k).next.isNone) = true := by simpa [or_iff_not_imp_left] using h
  unfold Dev.applyKeyErase
  rw [if_neg held]
  dsimp only
  split
  · next ht => exact ⟨fun j => d.slot_modSlot k j Slot.emptied, rfl, fun t h => by simp [ht] at h, fun _ _ _ => rfl⟩
  · next t ht =>
    have settled := Dev.Ciphers.settleBank (d.modSlot k Slot.emptied) n (quadOf t)
    refine ⟨fun j => ?_, settled.chip, fun u hu j hj => ?_, fun r i hr => ?_⟩
    · rw [← Dev.slot_modSlot]
      exact congrArg (Tab.get {} · j) settled.slots
    · obtain rfl : t = u := Option.some.inj (ht.symm.trans hu)
      rw [Dev.bank_modBank, if_pos rfl] at hj
      simp only [Bank.eraseSlot, List.mem_append, List.mem_filter, bne_iff_ne] at hj
      exact hj.elim And.right And.right
    · exact Dev.runBank_rd (d.modSlot k Slot.emptied) n _ _ i fun h => hr (by simp [h])

/-! ### The writes -/

theorem keyNext_answered {s : State} {n : Nat} {m : Master} {k : Nat} {data : Bytes}
    (h : s.dev.accepts (max s.now n) m .keyNext k data = true) :
    Answered (.keyNext n m k data) s n m fun a e => a.NextWritten e k (ofBytes data) := by
  have written := (s.dev.asked (max s.now n) m).writeReg_of_applyReg (n := max s.now n) (m := m) (r := .keyNext)
    (i := k) (data := data) (p := fun e => (s.dev.asked (max s.now n) m).NextWritten e k (ofBytes data))
    (by rw [Dev.stored_keyNext]; exact Dev.applyKeyNext_written _ _ _) fun e f he => he.durable _ f
  exact Answered.of_accepts rfl h nofun (fun hr => nomatch hr.1)
    ((congrArg Chip.pendingReset written.chip).trans (Dev.pendingReset_of_accepts h))
    ⟨written.slot, written.chip, written.sequencer⟩

theorem keyErase_answered {s : State} {n : Nat} {m : Master} {k : Nat}
    (h : s.dev.acceptsNum (max s.now n) m .keyErase k 1 = true)
    (hk : ((s.dev.asked (max s.now n) m).slot k).current ≠ none ∨ ((s.dev.asked (max s.now n) m).slot k).next ≠ none) :
    Answered (.keyErase n m k) s n m fun a e => a.Erased e k := by
  have hb : s.dev.accepts (max s.now n) m .keyErase k (toBytes (Reg.size .keyErase) 1) = true :=
    (Bool.and_eq_true_iff.1 h).2
  have one : ofBytes (toBytes (Reg.size .keyErase) 1) = 1 := by decide +kernel
  have erased := (s.dev.asked (max s.now n) m).writeReg_of_applyReg (n := max s.now n) (m := m) (r := .keyErase)
    (i := k) (data := toBytes (Reg.size .keyErase) 1) (p := fun e => (s.dev.asked (max s.now n) m).Erased e k)
    (by rw [one, Dev.stored_keyErase_one]; exact Dev.applyKeyErase_erased _ _ hk) fun e f he => he.durable _ f
  exact Answered.of_acceptsNum rfl h nofun (fun hr => nomatch hr.1)
    ((congrArg Chip.pendingReset erased.chip).trans (Dev.pendingReset_of_accepts hb))
    ⟨erased.slot, erased.chip, erased.jobs, erased.regs⟩

/-- Settles O25: the action of each write, which its durable record leaves as it is. -/
theorem keysWritten : Obligations.KeysWritten := by
  unfold Obligations.KeysWritten
  refine fun s n m k => ⟨fun data h => ?_, fun h hk => ?_⟩
  · obtain ⟨t, ht, hn, hq, hw, written⟩ := keyNext_answered h
    have next := (written.slot k).trans (if_pos rfl)
    refine ⟨t, ht, hn, hq, hw, ?_, ?_, ?_, fun hs => ?_, written.sequencer, fun j hj => (written.slot j).trans (if_neg hj)⟩
    all_goals rw [next]
    · rfl
    · rfl
    · rfl
    · exact if_pos hs
  · obtain ⟨t, ht, hn, hq, hw, erased⟩ := keyErase_answered h hk
    have emptied := (erased.slot k).trans (if_pos rfl)
    refine ⟨t, ht, hn, hq, hw, ?_, ?_, ?_, fun j hj => (erased.slot j).trans (if_neg hj), erased.jobs, erased.regs⟩
    all_goals rw [emptied]; rfl

end Sys2Proof.Machine
end

section
/-!
PROOFS. A sight of the device: what the header and the maps of one tree depend on. Work on other trees, on terminals,
allocations, slots, banks, buffers and fault sources leaves it as it is.
-/
namespace Sys2Proof.Machine
open Sys2Proof

/-- A tree that is looked at, and what of it, which is never its keystream. -/
structure Sight where
  x : Nat
  mask : Tree → Tree
  blind : ∀ y k, mask { y with keystream := k } = mask y

/-- What a sight shows. -/
structure Seen where
  tree : Tree
  quads : Tab Quad
  gnomon : Gnomon
  firstFrame : Option Nat
  rd : Reg → Nat → Nat

/-- The counters of a tree's maps, which a sight shows of its own tree. -/
def mapCounts : List Reg := [.mapsSealed, .mapsEmptied]

/-- The registers of the frame, of the profiles and of the bridges, which a sight shows, and the counters of maps. -/
def sightRegs : List Reg :=
  [.superframe, .frameTick, .frameShift, .quadProfile, .lineMode, .bridgeAState, .bridgeBState, .mapsSealed, .mapsEmptied]

def Dev.seen (v : Sight) (d : Dev) : Seen where
  tree := v.mask (d.tree v.x)
  quads := d.quads
  gnomon := d.gnomon
  firstFrame := d.mate.firstFrame
  rd r i := if r ∈ sightRegs ∧ (r ∈ mapCounts → i = v.x) then d.rd r i else 0

section
variable {v : Sight} {d e : Dev}

/-! ### What a sight tells -/

theorem Dev.mask_of_seen (h : e.seen v = d.seen v) : v.mask (e.tree v.x) = v.mask (d.tree v.x) := congrArg Seen.tree h

theorem Dev.quad_of_seen (h : e.seen v = d.seen v) (q : Nat) : e.quad q = d.quad q :=
  congrArg (fun s : Seen => (Tab.get {} s.quads q : Quad)) h

theorem Dev.rd_of_seen (h : e.seen v = d.seen v) {r : Reg} (i : Nat) (hr : r ∈ sightRegs) (hc : r ∉ mapCounts) :
    e.rd r i = d.rd r i := by
  have := congrArg (fun s : Seen => s.rd r i) h
  simpa [Dev.seen, hr, hc] using this

theorem Dev.count_of_seen (h : e.seen v = d.seen v) {r : Reg} {i : Nat} (hi : v.x = i) (hr : r ∈ sightRegs) :
    e.rd r i = d.rd r i := by
  subst hi
  have := congrArg (fun s : Seen => s.rd r v.x) h
  simpa [Dev.seen, hr] using this

theorem Dev.treeProfile_of_seen (h : e.seen v = d.seen v) (t : Nat) : e.treeProfile t = d.treeProfile t := by
  unfold Dev.treeProfile Dev.profile
  rw [Dev.quad_of_seen h, Dev.rd_of_seen h (r := .quadProfile) _ (by decide) (by decide)]

theorem Dev.latency_of_seen (h : e.seen v = d.seen v) (t : Nat) : e.latency t = d.latency t := by
  unfold Dev.latency
  rw [Dev.treeProfile_of_seen h]

theorem Dev.bridgeUp_of_seen (h : e.seen v = d.seen v) (t : Nat) : e.bridgeUp t = d.bridgeUp t := by
  unfold Dev.bridgeUp
  split
  · rw [Dev.rd_of_seen h (r := .bridgeAState) _ (by decide) (by decide)]
  · rw [Dev.rd_of_seen h (r := .bridgeBState) _ (by decide) (by decide)]

end

/-! ### What leaves a sight as it is -/

variable (v : Sight) (d : Dev)

theorem Dev.seen_of_rd {d e : Dev} (ht : v.mask (e.tree v.x) = v.mask (d.tree v.x)) (hq : e.quads = d.quads)
    (hg : e.gnomon = d.gnomon) (hm : e.mate.firstFrame = d.mate.firstFrame)
    (hr : ∀ r i, r ∈ sightRegs → (r ∈ mapCounts → i = v.x) → e.rd r i = d.rd r i) : e.seen v = d.seen v := by
  unfold Dev.seen
  rw [ht, hq, hg, hm]
  congr 1
  funext r i
  split
  · next h => exact hr r i h.1 h.2
  · rfl

@[simp] theorem Dev.seen_wr {r : Reg} (i k : Nat) (h : r ∉ sightRegs) : (d.wr r i k).seen v = d.seen v :=
  Dev.seen_of_rd v rfl rfl rfl rfl fun _ _ hr _ => Dev.rd_wr_other _ _ _ _ fun e => h (e ▸ hr)

@[simp] theorem Dev.seen_bump {r : Reg} (i : Nat) (h : r ∉ sightRegs) : (d.bump r i).seen v = d.seen v :=
  Dev.seen_wr v d i _ h

@[simp] theorem Dev.seen_add {r : Reg} (i k : Nat) (h : r ∉ sightRegs) : (d.add r i k).seen v = d.seen v :=
  Dev.seen_wr v d i _ h

/-- A counter of another tree's maps is not seen. -/
theorem Dev.seen_bump_count {r : Reg} {i : Nat} (h : r ∈ mapCounts) (hi : v.x ≠ i) : (d.bump r i).seen v = d.seen v :=
  Dev.seen_of_rd v rfl rfl rfl rfl fun q j _ hq => by
    rw [Dev.bump_eq, Dev.rd_wr, if_neg]
    rintro ⟨rfl, rfl⟩
    exact hi (hq h).symm

theorem Dev.seen_modTree {t : Nat} (f : Tree → Tree) (h : v.x ≠ t) : (d.modTree t f).seen v = d.seen v :=
  Dev.seen_of_rd v (by rw [Dev.tree_modTree, if_neg h]) rfl rfl rfl fun _ _ _ _ => rfl

theorem Dev.seen_modTree_masked (t : Nat) {f : Tree → Tree} (h : ∀ y, v.mask (f y) = v.mask y) :
    (d.modTree t f).seen v = d.seen v :=
  Dev.seen_of_rd v (by
    rw [Dev.tree_modTree]
    split
    · next hx => rw [h, hx]
    · rfl) rfl rfl rfl fun _ _ _ _ => rfl

@[simp] theorem Dev.seen_modTerm (g : Nat) (f : Term → Term) : (d.modTerm g f).seen v = d.seen v := rfl
@[simp] theorem Dev.seen_modAlloc (a : Nat) (f : Alloc → Alloc) : (d.modAlloc a f).seen v = d.seen v := rfl
@[simp] theorem Dev.seen_modSlot (s : Nat) (f : Slot → Slot) : (d.modSlot s f).seen v = d.seen v := rfl
@[simp] theorem Dev.seen_modPort (p : Nat) (f : Port → Port) : (d.modPort p f).seen v = d.seen v := rfl
@[simp] theorem Dev.seen_emit (x : Emission) : (d.emit x).seen v = d.seen v := rfl

variable {d} in
theorem Dev.seen_of_ciphers {e : Dev} (h : d.Ciphers e) : e.seen v = d.seen v := by
  refine Dev.seen_of_rd v ?_ (congrArg (·.quads) h.rest) (congrArg (·.gnomon) h.rest) (congrArg (·.mate.firstFrame) h.rest)
    fun r i hr _ => h.regs r i fun hc => ?_
  · rw [h.tree, v.blind]
  · have : ∀ r ∈ cipherRegs, r ∉ sightRegs := by decide
    exact this r hc hr

variable {d} in
theorem Dev.seen_of_butFaults {e : Dev} (h : e.butFaults = d.butFaults)
    (hr : ∀ r i, r ≠ .occurrences → e.rd r i = d.rd r i) : e.seen v = d.seen v := by
  have shown : e.butFaults.seen v = d.butFaults.seen v := by rw [h]
  exact Dev.seen_of_rd v (congrArg Seen.tree shown) (congrArg Seen.quads shown) (congrArg Seen.gnomon shown)
    (congrArg Seen.firstFrame shown) fun r i hs _ => hr r i fun ho => absurd (ho ▸ hs) (by decide)

@[simp] theorem Dev.seen_event (n s index : Nat) : (d.event n s index).seen v = d.seen v :=
  Dev.seen_of_butFaults v (d.event_butFaults n s index) fun _ i h => d.event_rd n s index i h

@[simp] theorem Dev.seen_raiseLevel (n : Nat) (o : Occurrence) : (d.raiseLevel n o).seen v = d.seen v :=
  Dev.seen_of_butFaults v (d.raiseLevel_butFaults n o) fun _ i h => d.raiseLevel_rd n o i h

@[simp] theorem Dev.seen_dropLevel (s : Nat) : (d.dropLevel s).seen v = d.seen v :=
  Dev.seen_of_butFaults v (d.dropLevel_butFaults s) fun _ i _ => d.dropLevel_rd s i

@[simp] theorem Dev.seen_durable (n : Nat) (f : Nat → MirrorRecord) : (d.durable n f).seen v = d.seen v := by
  rcases d.durable_cases n f with e | ⟨k, e⟩ <;> rw [e]
  exact Dev.seen_wr v d 0 k (by decide)

end Sys2Proof.Machine
end

section
/-!
PROOFS. Maps sealed, fanned out, and locked or sent (R19-R26): each tree of a point is worked on once, and that work is out of
sight of every other tree.
-/
namespace Sys2Proof.Machine
open Sys2Proof

/-! ### Fixed points and lists of trees -/

/-- A command of a fixed point completes with what it does at the point's tick. -/
theorem completes_atPoint {c : Instr} {s : State} {p : MapPoint} {frame sub : Nat} {f : Nat → Dev → Dev} {q : Dev → Prop}
    (hc : exec c s = atPoint p frame sub s f) (hp : pointExists p = true)
    (h : q (f (max s.now (s.dev.pointTick p frame sub)) s.dev)) : Completes c s (s.dev.pointTick p frame sub) q := by
  cases p with
  | frame => exact ⟨_, hc, rfl, rfl, h⟩
  | sub k => exact ⟨_, hc.trans (if_pos (by simpa [pointExists] using hp)), rfl, rfl, h⟩

theorem allTrees_nodup : allTrees.Nodup := List.nodup_range

theorem Dev.treesAt_nodup (d : Dev) (p : MapPoint) : (d.treesAt p).Nodup := allTrees_nodup.filter _

variable {v : Sight}

/-- Work on the trees of a list, each out of sight of every other: a tree of the list is worked on once, with all that its sight
shows as it was at first, and what is seen of it then is seen at last. -/
theorem Dev.seen_each_mem (d : Dev) {l : List Nat} {f : Dev → Nat → Dev} (hl : l.Nodup) (hx : v.x ∈ l)
    (hf : ∀ d t, v.x ≠ t → (f d t).seen v = d.seen v) :
    ∃ a : Dev, a.seen v = d.seen v ∧ (d.each l f).seen v = (f a v.x).seen v := by
  induction l generalizing d with
  | nil => cases hx
  | cons t l ih =>
    obtain ⟨ht, hl⟩ := List.nodup_cons.1 hl
    rw [Dev.each_cons]
    by_cases h : v.x = t
    · subst h
      exact ⟨d, rfl, Dev.each_keeps _ (Dev.seen v) fun d y hy => hf d y fun e => ht (e ▸ hy)⟩
    · obtain ⟨a, ha, hb⟩ := ih (f d t) hl ((List.mem_cons.1 hx).resolve_left h)
      exact ⟨a, ha.trans (hf d t h), hb⟩

theorem Dev.seen_each_not_mem (d : Dev) {l : List Nat} {f : Dev → Nat → Dev} (hx : v.x ∉ l)
    (hf : ∀ d t, v.x ≠ t → (f d t).seen v = d.seen v) : (d.each l f).seen v = d.seen v :=
  d.each_keeps (Dev.seen v) fun d t ht => hf d t fun e => hx (e ▸ ht)

/-- The sight of a whole tree but for its keystream. -/
def treeSight (x : Nat) : Sight := ⟨x, fun y => { y with keystream := [] }, fun _ _ => rfl⟩

theorem Dev.tree_of_seen {d e : Dev} {x : Nat} (h : e.seen (treeSight x) = d.seen (treeSight x)) :
    e.tree x = { d.tree x with keystream := (e.tree x).keystream } := by
  have masked := Dev.mask_of_seen h
  exact congrArg (fun y : Tree => { y with keystream := (e.tree x).keystream }) masked

/-! ### Sealing -/

/-- The grants of a data burst of tree `t` name their terminal's key slot. -/
def MapBurst.Slotted (t : Nat) (y : MapBurst) : Prop :=
  y.kind = .data → ∀ g ∈ y.grants, g.keySlot = t * 512 + y.terminal

/-- The results of work on the members of a list, in order, with the device that it leaves. -/
def gather {α β : Type} (f : Dev → α → β × Dev) (l : List α) (acc : List β × Dev) : List β × Dev :=
  l.foldl (fun acc x => (acc.1 ++ [(f acc.2 x).1], (f acc.2 x).2)) acc

section
variable {α β : Type} {f : Dev → α → β × Dev} (l : List α) (acc : List β × Dev)

theorem seen_gather (h : ∀ d x, (f d x).2.seen v = d.seen v) : (gather f l acc).2.seen v = acc.2.seen v := by
  induction l generalizing acc with
  | nil => rfl
  | cons x l ih => exact (ih _).trans (h _ x)

theorem gather_length : (gather f l acc).1.length = acc.1.length + l.length := by
  induction l generalizing acc with
  | nil => rfl
  | cons x l ih =>
    refine (ih _).trans ?_
    simp only [List.length_append, List.length_cons, List.length_nil]
    omega

theorem gather_forall {p : β → Prop} (h : ∀ d x, p (f d x).1) (ha : ∀ y ∈ acc.1, p y) :
    ∀ y ∈ (gather f l acc).1, p y := by
  induction l generalizing acc with
  | nil => exact ha
  | cons x l ih =>
    refine ih _ fun y hy => ?_
    rcases List.mem_append.1 hy with hy | hy
    · exact ha y hy
    · exact List.mem_singleton.1 hy ▸ h _ x

end

variable (d : Dev) (n t : Nat)

theorem Dev.seen_sealGrant (sfc b start : Nat) (g : Grant) : (d.sealGrant n sfc b start g).2.seen v = d.seen v :=
  (Dev.seen_modAlloc v _ _ _).trans (Dev.seen_wr (r := .allocDemand) v d _ _ (by decide))

theorem Dev.seen_sealBurst (sfc : Nat) (b : MapBurst) : (d.sealBurst n t sfc b).2.seen v = d.seen v := by
  unfold Dev.sealBurst
  split
  · rfl
  · refine (seen_gather b.grants _ fun d g => d.seen_sealGrant n sfc _ b.start g).trans ?_
    dsimp only
    split <;> simp (disch := decide)

theorem Dev.sealBurst_slotted (sfc : Nat) (b : MapBurst) : (d.sealBurst n t sfc b).1.Slotted t := by
  unfold Dev.sealBurst
  split
  · next h => exact fun hd => by simp [h] at hd
  · exact fun _ => gather_forall (f := fun d g => d.sealGrant n sfc (t * 512 + b.terminal) b.start g)
      (p := fun g => g.keySlot = t * 512 + b.terminal) b.grants ([], _) (fun _ _ => rfl) (by simp)

theorem Reg.modulus_mapsSealed : Reg.modulus .mapsSealed = 2 ^ 64 := by decide +kernel
theorem Reg.modulus_mapsEmptied : Reg.modulus .mapsEmptied = 2 ^ 64 := by decide +kernel

/-- The bursts of a map as sealed, and the device that sealing them leaves. -/
def Dev.sealBursts (m : Map) : List MapBurst × Dev := gather (fun d b => d.sealBurst n t m.sfc b) m.bursts ([], d)

/-- Sealing in steps: the bursts, the counters, the tree, the keystream. -/
theorem Dev.sealMap_eq (m : Map) : ∃ k l, d.sealMap n t m =
    ((((d.sealBursts n t m).2.bump .mapsSealed t).wr .entriesLast t k).modTree t fun x =>
      { x with building := none, maps := x.maps ++ [{ m with bursts := (d.sealBursts n t m).1 }] }).askKeystream n t l :=
  ⟨_, _, rfl⟩

theorem Dev.seen_sealMap (m : Map) (h : v.x ≠ t) : (d.sealMap n t m).seen v = d.seen v := by
  obtain ⟨k, l, e⟩ := d.sealMap_eq n t m
  rw [e, Dev.seen_of_ciphers v (Ciphers.askKeystream _ n t _), Dev.seen_modTree v _ _ h,
    Dev.seen_wr v _ _ _ (by decide), Dev.seen_bump_count v _ (by decide) h]
  exact seen_gather _ _ fun d b => d.seen_sealBurst n t m.sfc b

/-- The map under construction is the newest sealed map of its tree. -/
theorem Dev.sealMap_same (m : Map) : ∃ bs : List MapBurst, bs.length = m.bursts.length ∧
    (d.sealMap n t m).tree t = { d.tree t with
      building := none, maps := (d.tree t).maps ++ [{ m with bursts := bs }],
      keystream := ((d.sealMap n t m).tree t).keystream } ∧
    (d.sealMap n t m).rd .mapsSealed t = (d.rd .mapsSealed t + 1) % 2 ^ 64 ∧ ∀ y ∈ bs, y.Slotted t := by
  have seen : (d.sealBursts n t m).2.seen (treeSight t) = d.seen (treeSight t) :=
    seen_gather _ _ fun d b => d.seen_sealBurst n t m.sfc b
  have count : (d.sealBursts n t m).2.rd .mapsSealed t = d.rd .mapsSealed t := Dev.count_of_seen seen rfl (by decide)
  refine ⟨(d.sealBursts n t m).1, (gather_length _ _).trans (Nat.zero_add _), ?_⟩
  obtain ⟨k, l, e⟩ := d.sealMap_eq n t m
  have asked := Ciphers.askKeystream ((((d.sealBursts n t m).2.bump .mapsSealed t).wr .entriesLast t k).modTree t fun x =>
      { x with building := none, maps := x.maps ++ [{ m with bursts := (d.sealBursts n t m).1 }] }) n t l
  rw [← e] at asked
  refine ⟨?_, ?_, gather_forall _ ([], _) (fun d b => d.sealBurst_slotted n t m.sfc b) (by simp)⟩
  · rw [asked.tree, Dev.tree_modTree, if_pos rfl, Dev.wr_tree, Dev.bump_eq, Dev.wr_tree, Dev.tree_of_seen seen]
  · rw [asked.regs .mapsSealed t (by decide), Dev.modTree_rd, Dev.rd_wr_other _ _ _ _ (by decide), Dev.bump_eq,
      Dev.rd_wr_same, Reg.modulus_mapsSealed, count]

/-- The part of MAP_SEAL that a tree has. -/
def Dev.sealTree : Dev :=
  match (d.tree t).building with
  | none => d
  | some m => d.sealMap n t m

variable {d t} in
theorem Dev.sealTree_of_some {m : Map} (h : (d.tree t).building = some m) : d.sealTree n t = d.sealMap n t m := by
  unfold Dev.sealTree
  rw [h]

variable {d t} in
theorem Dev.sealTree_of_none (h : (d.tree t).building = none) : d.sealTree n t = d := by
  unfold Dev.sealTree
  rw [h]

theorem Dev.seen_sealTree (h : v.x ≠ t) : (d.sealTree n t).seen v = d.seen v := by
  cases hb : (d.tree t).building with
  | none => rw [Dev.sealTree_of_none n hb]
  | some m => rw [Dev.sealTree_of_some n hb, Dev.seen_sealMap d n t m h]

theorem exec_mapSeal (p : MapPoint) (s : State) : exec (.mapSeal p) s =
    atPoint p 93312 11664 s fun n d => d.each (d.treesAt p) fun d t => d.sealTree n t := rfl

theorem Dev.sealTrees_unbuilt {l : List Nat} {x : Nat} (hl : l.Nodup) (h : x ∉ l ∨ (d.tree x).building = none) :
    (d.each l fun d t => d.sealTree n t).seen (treeSight x) = d.seen (treeSight x) := by
  by_cases hx : x ∈ l
  · obtain ⟨a, ha, he⟩ := d.seen_each_mem (v := treeSight x) hl hx fun d t ht => d.seen_sealTree n t ht
    have hb : (a.tree x).building = none := by
      rw [Dev.tree_of_seen ha]
      exact h.resolve_left (not_not.2 hx)
    exact he.trans ((congrArg (Dev.seen _) (Dev.sealTree_of_none n hb)).trans ha)
  · exact d.seen_each_not_mem (v := treeSight x) hx fun d t ht => d.seen_sealTree n t ht

theorem Dev.sealTrees_built {l : List Nat} {x : Nat} {m : Map} (hl : l.Nodup) (hx : x ∈ l)
    (hb : (d.tree x).building = some m) :
    let e := d.each l fun d t => d.sealTree n t
    ∃ bs : List MapBurst, bs.length = m.bursts.length ∧
      e.tree x = { d.tree x with
        building := none, maps := (d.tree x).maps ++ [{ m with bursts := bs }], keystream := (e.tree x).keystream } ∧
      e.rd .mapsSealed x = (d.rd .mapsSealed x + 1) % 2 ^ 64 ∧ ∀ y ∈ bs, y.Slotted x := by
  obtain ⟨a, ha, he⟩ := d.seen_each_mem (v := treeSight x) hl hx fun d t ht => d.seen_sealTree n t ht
  have hab : (a.tree x).building = some m := by
    rw [Dev.tree_of_seen ha]
    exact hb
  have counts : a.rd .mapsSealed x = d.rd .mapsSealed x := Dev.count_of_seen ha rfl (by decide)
  obtain ⟨bs, len, tree, sealed, slotted⟩ := a.sealMap_same n x m
  replace he : _ = (a.sealTree n x).seen (treeSight x) := he
  rw [Dev.sealTree_of_some n hab] at he
  refine ⟨bs, len, ?_, ?_, slotted⟩
  · rw [Dev.tree_of_seen he, tree, Dev.tree_of_seen ha]
  · rw [← counts, ← sealed]
    exact Dev.count_of_seen he rfl (by decide)

theorem mapSeal_completes {s : State} {p : MapPoint} (hp : pointExists p = true) :
    Completes (.mapSeal p) s (s.dev.pointTick p 93312 11664) fun e =>
      (∀ x ∈ s.dev.treesAt p, ∀ m, (s.dev.tree x).building = some m → ∃ bs : List MapBurst,
        bs.length = m.bursts.length ∧
        e.tree x = { s.dev.tree x with building := none, maps := (s.dev.tree x).maps ++ [{ m with bursts := bs }],
                                       keystream := (e.tree x).keystream } ∧
        e.rd .mapsSealed x = (s.dev.rd .mapsSealed x + 1) % 2 ^ 64 ∧
        ∀ y ∈ bs, y.kind = .data → ∀ g ∈ y.grants, g.keySlot = x * 512 + y.terminal) ∧
      (∀ x, x ∉ s.dev.treesAt p ∨ (s.dev.tree x).building = none →
        e.tree x = { s.dev.tree x with keystream := (e.tree x).keystream } ∧
        e.rd .mapsSealed x = s.dev.rd .mapsSealed x) := by
  refine completes_atPoint (exec_mapSeal p s) hp ⟨fun x hx m hm => ?_, fun x hx => ?_⟩
  · exact s.dev.sealTrees_built _ (s.dev.treesAt_nodup p) hx hm
  · have seen := s.dev.sealTrees_unbuilt (max s.now (s.dev.pointTick p 93312 11664)) (s.dev.treesAt_nodup p) hx
    exact ⟨Dev.tree_of_seen seen, Dev.count_of_seen seen rfl (by decide)⟩

/-! ### Fan-out -/

theorem Dev.seen_capOwed (a : Nat) : (d.capOwed a).seen v = d.seen v := by
  unfold Dev.capOwed
  dsimp only
  split <;> simp (disch := decide)

theorem Dev.seen_undoGrant (g : Grant) : (d.undoGrant t g).seen v = d.seen v := by
  unfold Dev.undoGrant
  simp (disch := decide) [Dev.seen_capOwed]

/-- What a replaced map gives back: the bytes of its grants and the keystream of its bursts. -/
def Dev.undoMap (m : Map) : Dev :=
  (d.each (m.bursts.map (·.grants)).flatten fun d g => d.undoGrant t g).each (List.range m.bursts.length)
    fun d k => d.dropKeystream n t ⟨m.sfc, m.point, k⟩

theorem Dev.seen_undoMap (m : Map) : (d.undoMap n t m).seen v = d.seen v :=
  (Dev.each_keeps _ (Dev.seen v) fun d _ _ => Dev.seen_of_ciphers v (Ciphers.dropKeystream d n t _)).trans
    (d.each_keeps (Dev.seen v) fun d g _ => d.seen_undoGrant t g)

/-- A map of the superframe and point of `m`, once those of `m` are replaced by `g`, is one that `g` made. -/
theorem mem_map_replaced {m y : Map} {g : Map → Map} {l : List Map}
    (hy : y ∈ l.map fun y => if y.sfc = m.sfc ∧ y.point = m.point then g y else y) (h : y.sfc = m.sfc ∧ y.point = m.point) :
    ∃ x, y = g x := by
  obtain ⟨x, -, rfl⟩ := List.mem_map.1 hy
  by_cases hx : x.sfc = m.sfc ∧ x.point = m.point
  · exact ⟨x, if_pos hx⟩
  · rw [if_neg hx] at h
    exact absurd h hx

theorem Dev.emptyMap_eq (m : Map) : d.emptyMap n t m =
    (((((d.modTree t fun x => { x with maps := x.maps.map fun y =>
      if y.sfc = m.sfc ∧ y.point = m.point then { y with empty := true, bursts := [] } else y }).undoMap n t m).bump
        .mapsEmptied t).wr .entriesLast t 0).event n (8 * t + 4) t) := rfl

theorem Dev.seen_emptyMap (m : Map) (h : v.x ≠ t) : (d.emptyMap n t m).seen v = d.seen v := by
  rw [Dev.emptyMap_eq, Dev.seen_event, Dev.seen_wr v _ _ _ (by decide), Dev.seen_bump_count v _ (by decide) h,
    Dev.seen_undoMap, Dev.seen_modTree v _ _ h]

theorem Dev.emptyMap_same (m : Map) :
    (d.emptyMap n t m).rd .mapsEmptied t = (d.rd .mapsEmptied t + 1) % 2 ^ 64 ∧
      ∀ y ∈ ((d.emptyMap n t m).tree t).maps, y.sfc = m.sfc ∧ y.point = m.point → y.empty = true ∧ y.bursts = [] := by
  rw [Dev.emptyMap_eq]
  have undone := Dev.seen_undoMap (v := treeSight t) (d.modTree t fun x => { x with maps := x.maps.map fun y =>
      if y.sfc = m.sfc ∧ y.point = m.point then { y with empty := true, bursts := [] } else y }) n t m
  have count := Dev.count_of_seen (r := .mapsEmptied) (i := t) undone rfl (by decide)
  refine ⟨?_, fun y hy hk => ?_⟩
  · rw [Dev.event_rd _ _ _ _ _ (by decide), Dev.rd_wr_other _ _ _ _ (by decide), Dev.bump_eq, Dev.rd_wr_same, count,
      Reg.modulus_mapsEmptied, Dev.modTree_rd]
  · rw [Dev.tree_of_butFaults (Dev.event_butFaults _ _ _ _), Dev.wr_tree, Dev.bump_eq, Dev.wr_tree, Dev.tree_of_seen undone,
      Dev.tree_modTree, if_pos rfl] at hy
    obtain ⟨z, rfl⟩ := mem_map_replaced (g := fun y => { y with empty := true, bursts := [] }) hy hk
    exact ⟨rfl, rfl⟩

/-- What a map that goes as built counts: the bytes granted and the consumers that are late. -/
def Dev.countMap (m : Map) (late : List Consumer) : Dev :=
  (d.each (m.bursts.map (·.grants)).flatten fun d g => d.add .grantedBytes g.alloc g.size).each late
    fun d _ => (d.bump .fanoutLate t).event n (8 * t + 4) t

theorem Dev.seen_countMap (m : Map) (late : List Consumer) : (d.countMap n t m late).seen v = d.seen v :=
  (Dev.each_keeps _ (Dev.seen v) fun d _ _ => (Dev.seen_event v _ n _ t).trans
    (Dev.seen_bump (r := .fanoutLate) v d t (by decide))).trans
    (d.each_keeps (Dev.seen v) fun d g _ => Dev.seen_add (r := .grantedBytes) v d _ _ (by decide))

theorem Dev.sendMap_eq (m : Map) (late : List Consumer) : d.sendMap n t m late =
    (d.countMap n t m late).modTree t fun x => { x with maps := x.maps.map fun y =>
      if y.sfc = m.sfc ∧ y.point = m.point then { y with late := late } else y } := rfl

theorem Dev.seen_sendMap (m : Map) (late : List Consumer) (h : v.x ≠ t) :
    (d.sendMap n t m late).seen v = d.seen v := by
  rw [Dev.sendMap_eq, Dev.seen_modTree v _ _ h, Dev.seen_countMap]

theorem Dev.sendMap_same (m : Map) (late : List Consumer) :
    (d.sendMap n t m late).rd .mapsEmptied t = d.rd .mapsEmptied t ∧
      ∀ y ∈ ((d.sendMap n t m late).tree t).maps, y.sfc = m.sfc ∧ y.point = m.point → y.late = late := by
  rw [Dev.sendMap_eq]
  refine ⟨Dev.count_of_seen (v := treeSight t) (d.seen_countMap n t m late) rfl (by decide), fun y hy hk => ?_⟩
  rw [Dev.tree_modTree, if_pos rfl] at hy
  obtain ⟨z, rfl⟩ := mem_map_replaced (g := fun y => { y with late := late }) hy hk
  rfl

/-- The late consumers of a tree are those named and, over a bridge that is down, those of the hub. -/
theorem Dev.mem_lateConsumers (late : List (Nat × Consumer)) (c : Consumer) :
    c ∈ d.lateConsumers t late ↔ (t, c) ∈ late ∨ d.bridgeUp t = false ∧ c ∈ [Consumer.mateLink, .gnomon, .admission] := by
  have named : c ∈ ((late.filter fun x => x.1 == t).map (·.2)).dedup ↔ (t, c) ∈ late := by simp
  unfold Dev.lateConsumers
  dsimp only
  split
  · next h => simp [named, h]
  · next h => by_cases hc : (t, c) ∈ late <;> simp [h, hc]

/-- The part of the fan-out that a tree with the map of superframe and point `key` has. -/
def Dev.fanOutTree (late : List (Nat × Consumer)) (key : Nat × MapPoint) : Dev :=
  match (d.tree t).maps.find? fun m => m.sfc == key.1 && m.point == key.2 && !m.empty with
  | none => d
  | some m =>
    let l := d.lateConsumers t late
    if l.contains .quarry || l.contains .burstReceiver then d.emptyMap n t m else d.sendMap n t m l

theorem exec_fanOutDeadline (p : MapPoint) (late : List (Nat × Consumer)) (s : State) :
    exec (.fanOutDeadline p late) s = atPoint p 101088 13608 s fun n d =>
      d.each ((d.treesAt p).filter fun t => d.carries t (d.nextMap p).1) fun e t => e.fanOutTree n t late (d.nextMap p) := rfl

theorem Dev.seen_fanOutTree (late : List (Nat × Consumer)) (key : Nat × MapPoint) (h : v.x ≠ t) :
    (d.fanOutTree n t late key).seen v = d.seen v := by
  unfold Dev.fanOutTree
  split
  · rfl
  · dsimp only
    split
    · exact Dev.seen_emptyMap _ _ _ _ h
    · exact Dev.seen_sendMap _ _ _ _ _ h

/-- A tree with a map to fan out has it replaced where the Quarry or the Burst Receiver is late, and sent as built where neither
is. -/
theorem Dev.fanOutTree_cases (late : List (Nat × Consumer)) (key : Nat × MapPoint)
    (h : ∃ m ∈ (d.tree t).maps, m.sfc = key.1 ∧ m.point = key.2 ∧ m.empty = false) :
    ∃ m : Map, m.sfc = key.1 ∧ m.point = key.2 ∧
      (((t, Consumer.quarry) ∈ late ∨ (t, Consumer.burstReceiver) ∈ late) → d.fanOutTree n t late key = d.emptyMap n t m) ∧
      ((t, Consumer.quarry) ∉ late ∧ (t, Consumer.burstReceiver) ∉ late →
        d.fanOutTree n t late key = d.sendMap n t m (d.lateConsumers t late)) := by
  have called : ((d.lateConsumers t late).contains .quarry || (d.lateConsumers t late).contains .burstReceiver) = true ↔
      (t, Consumer.quarry) ∈ late ∨ (t, Consumer.burstReceiver) ∈ late := by simp [Dev.mem_lateConsumers]
  unfold Dev.fanOutTree
  split
  · next hf =>
    obtain ⟨m, hm, hs, hp, he⟩ := h
    simpa [hs, hp, he] using List.find?_eq_none.1 hf m hm
  · next m hf =>
    have hk := List.find?_some hf
    simp only [Bool.and_eq_true, beq_iff_eq] at hk
    exact ⟨m, hk.1.1, hk.1.2, fun hl => if_pos (called.2 hl), fun hl => if_neg (mt called.1 (not_or.2 hl))⟩

theorem fanOutDeadline_completes {s : State} {p : MapPoint} (late : List (Nat × Consumer)) (hp : pointExists p = true) :
    Completes (.fanOutDeadline p late) s (s.dev.pointTick p 101088 13608) fun e =>
      ∀ x ∈ s.dev.treesAt p, s.dev.carries x (s.dev.nextMap p).1 = true →
        (∃ m ∈ (s.dev.tree x).maps, m.sfc = (s.dev.nextMap p).1 ∧ m.point = (s.dev.nextMap p).2 ∧ m.empty = false) →
        (((x, Consumer.quarry) ∈ late ∨ (x, Consumer.burstReceiver) ∈ late) →
          e.rd .mapsEmptied x = (s.dev.rd .mapsEmptied x + 1) % 2 ^ 64 ∧
          ∀ m ∈ (e.tree x).maps, m.sfc = (s.dev.nextMap p).1 ∧ m.point = (s.dev.nextMap p).2 →
            m.empty = true ∧ m.bursts = []) ∧
        ((x, Consumer.quarry) ∉ late ∧ (x, Consumer.burstReceiver) ∉ late →
          e.rd .mapsEmptied x = s.dev.rd .mapsEmptied x ∧
          ∀ m ∈ (e.tree x).maps, m.sfc = (s.dev.nextMap p).1 ∧ m.point = (s.dev.nextMap p).2 →
            ∀ c, c ∈ m.late ↔
              (x, c) ∈ late ∨ s.dev.bridgeUp x = false ∧ c ∈ [Consumer.mateLink, .gnomon, .admission]) := by
  refine completes_atPoint (exec_fanOutDeadline p late s) hp fun x hx hc hm => ?_
  have mine : x ∈ (s.dev.treesAt p).filter fun t => s.dev.carries t (s.dev.nextMap p).1 := List.mem_filter.2 ⟨hx, hc⟩
  obtain ⟨a, ha, he⟩ := s.dev.seen_each_mem (v := treeSight x) ((s.dev.treesAt_nodup p).filter _) mine fun d t ht =>
      d.seen_fanOutTree (max s.now (s.dev.pointTick p 101088 13608)) t late (s.dev.nextMap p) ht
  obtain ⟨m, hs, hp, emptied, sent⟩ := a.fanOutTree_cases (max s.now (s.dev.pointTick p 101088 13608)) x late
    (s.dev.nextMap p) (by rw [Dev.tree_of_seen ha]; exact hm)
  have before : a.rd .mapsEmptied x = s.dev.rd .mapsEmptied x := Dev.count_of_seen ha rfl (by decide)
  have after := Dev.count_of_seen (r := .mapsEmptied) (i := x) he rfl (by decide)
  rw [Dev.tree_of_seen he, ← before]
  refine ⟨fun hl => ?_, fun hl => ?_⟩
  · obtain ⟨count, maps⟩ := a.emptyMap_same (max s.now (s.dev.pointTick p 101088 13608)) x m
    rw [← emptied hl] at count maps
    rw [hs, hp] at maps
    exact ⟨after.trans count, maps⟩
  · obtain ⟨count, maps⟩ := a.sendMap_same (max s.now (s.dev.pointTick p 101088 13608)) x m (a.lateConsumers x late)
    rw [← sent hl] at count maps
    rw [hs, hp] at maps
    refine ⟨after.trans count, fun y hy hk c => ?_⟩
    rw [maps y hy hk, Dev.mem_lateConsumers, Dev.bridgeUp_of_seen ha]

/-! ### Header lock -/

theorem Dev.seen_ploamLocked (c : Nat) (m : Ploam) (h : v.x ≠ t ∨ ∀ y l, v.mask { y with announced := l } = v.mask y) :
    (d.ploamLocked t c m).seen v = d.seen v := by
  have terms : ∀ (l : List Nat) (f : Dev → Nat → Term → Term),
      (d.each l fun d g => d.modTerm g (f d g)).seen v = d.seen v := fun l f =>
    d.each_keeps (Dev.seen v) fun _ _ _ => rfl
  unfold Dev.ploamLocked
  split
  · exact terms _ fun _ _ x => { x with update := _ }
  · split
    · exact h.elim (Dev.seen_modTree v d _) fun h => Dev.seen_modTree_masked v d t fun y => h y _
    · rfl
  · exact terms _ fun _ _ x => { x with awaitPloam := true }
  · exact terms _ fun _ _ x => { x with awaitPloam := true }
  · rfl
  · rfl

theorem Dev.seen_disableMsgs (h : v.x ≠ t ∨ ∀ y l, v.mask { y with sequencer := l } = v.mask y) :
    (d.disableMsgs t).seen v = d.seen v :=
  d.each_keeps (Dev.seen v) fun d g _ =>
    h.elim (Dev.seen_modTree v (d.modTerm g _) _) fun h => Dev.seen_modTree_masked v (d.modTerm g _) t fun y => h y _

/-- The messages that leave a tree's queues at its header lock. -/
def Dev.takenPloam : List Ploam := (((d.disableMsgs t).modTree t Tree.takePloam).tree t).locked

def Tree.withLocked (l : List Ploam) (x : Tree) : Tree := { x with locked := l }

/-- Locking messages in steps: they leave their queues, each gets its job, they stand in the frame, they have their effect. -/
theorem Dev.lockPloam_eq (c : Nat) : d.lockPloam n t c =
    ((((d.disableMsgs t).modTree t Tree.takePloam).each (d.takenPloam t) fun d _ => d.integrityJob n t 48).modTree t
      (Tree.withLocked ((d.takenPloam t).map (Ploam.inFrame ((((d.disableMsgs t).modTree t Tree.takePloam).each
        (d.takenPloam t) fun d _ => d.integrityJob n t 48).rd .updateLead t) c)))).each (d.takenPloam t)
      fun d m => d.ploamLocked t c m := rfl

/-- Locking messages is out of sight where no more than the locked map of its tree is seen. -/
theorem Dev.seen_lockPloam (c : Nat) (h : v.x ≠ t ∨ ∀ y z : Tree, y.lockedMap = z.lockedMap → v.mask y = v.mask z) :
    (d.lockPloam n t c).seen v = d.seen v := by
  have modified : ∀ (d : Dev) (f : Tree → Tree), (∀ y, (f y).lockedMap = y.lockedMap) →
      (d.modTree t f).seen v = d.seen v := fun d f hf =>
    h.elim (Dev.seen_modTree v d f) fun h => Dev.seen_modTree_masked v d t fun y => h _ _ (hf y)
  rw [Dev.lockPloam_eq]
  refine (Dev.each_keeps _ (Dev.seen v) fun d m _ => d.seen_ploamLocked t c m (h.imp_right fun h _ _ => h _ _ rfl)).trans ?_
  refine (modified _ (Tree.withLocked _) fun _ => rfl).trans ?_
  refine (Dev.each_keeps _ (Dev.seen v) fun d _ _ => Dev.seen_of_ciphers v (Ciphers.integrityJob d n t 48)).trans ?_
  refine (modified _ Tree.takePloam fun _ => rfl).trans ?_
  exact d.seen_disableMsgs t (h.imp_right fun h _ _ => h _ _ rfl)

/-- The sights of a tree's locked map alone, and of its locked messages alone. -/
def lockedMapSight (x : Nat) : Sight := ⟨x, fun y => { lockedMap := y.lockedMap }, fun _ _ => rfl⟩
def lockedSight (x : Nat) : Sight := ⟨x, fun y => { locked := y.locked }, fun _ _ => rfl⟩

theorem Dev.lockedMap_of_seen {d e : Dev} {x : Nat} (h : e.seen (lockedMapSight x) = d.seen (lockedMapSight x)) :
    (e.tree x).lockedMap = (d.tree x).lockedMap := congrArg (fun s : Seen => s.tree.lockedMap) h

theorem Dev.locked_of_seen {d e : Dev} {x : Nat} (h : e.seen (lockedSight x) = d.seen (lockedSight x)) :
    (e.tree x).locked = (d.tree x).locked := congrArg (fun s : Seen => s.tree.locked) h

theorem Tree.takePloam_length (x : Tree) : x.takePloam.locked.length ≤ 16 := by
  simp only [Tree.takePloam, List.length_append, List.length_take]
  omega

/-- A header carries at most sixteen messages (R42). -/
theorem Dev.lockPloam_length (c : Nat) : ((d.lockPloam n t c).tree t).locked.length ≤ 16 := by
  have taken : (d.takenPloam t).length ≤ 16 := by
    rw [Dev.takenPloam, Dev.tree_modTree, if_pos rfl]
    exact Tree.takePloam_length _
  have kept : ∀ (l : List Ploam) (d : Dev),
      ((d.each l fun d m => d.ploamLocked t c m).tree t).locked = (d.tree t).locked := fun l d =>
    Dev.locked_of_seen (d.each_keeps (Dev.seen _) fun d m _ => d.seen_ploamLocked t c m (.inr fun _ _ => rfl))
  rw [Dev.lockPloam_eq, kept, Dev.tree_modTree, if_pos rfl]
  exact (List.length_map _).trans_le taken

theorem Dev.lockMap_sub (c k : Nat) : d.lockMap t c (.sub (k + 1)) =
    if (d.tree t).lit then d.emit (.subMap t c (k + 1) (mapRecords (d.mapOf t ⟨c, .sub (k + 1), 0⟩))) else d := rfl

theorem Dev.seen_lockMap (c : Nat) (q : MapPoint) (h : v.x ≠ t ∨ ∀ y l, v.mask { y with lockedMap := l } = v.mask y) :
    (d.lockMap t c q).seen v = d.seen v := by
  unfold Dev.lockMap
  dsimp only
  split
  · split <;> rfl
  · exact h.elim (Dev.seen_modTree v d _) fun h => Dev.seen_modTree_masked v d t fun y => h y _

/-- The part of the header lock that a tree has: its map, if the point is about it, and its messages. -/
def Dev.lockTree (p : MapPoint) (c : Nat) (q : MapPoint) : Dev :=
  let d := if d.latency t == (p != .frame) then d.lockMap t c q else d
  if p = .frame then d.lockPloam n t c else d

theorem exec_headerLock (p : MapPoint) (s : State) : exec (.headerLock p) s = atPoint p 108864 15552 s fun n d =>
    d.each (allTrees.filter fun t => d.carries t (d.nextMap p).1)
      fun e t => e.lockTree n t p (d.nextMap p).1 (d.nextMap p).2 := rfl

theorem Dev.seen_lockTree (p : MapPoint) (c : Nat) (q : MapPoint) (h : v.x ≠ t) :
    (d.lockTree n t p c q).seen v = d.seen v := by
  have mapped : (if d.latency t == (p != .frame) then d.lockMap t c q else d).seen v = d.seen v := by
    split
    · exact d.seen_lockMap t c q (.inl h)
    · rfl
  unfold Dev.lockTree
  dsimp only
  split
  · exact (Dev.seen_lockPloam _ n t c (.inl h)).trans mapped
  · exact mapped

/-- A map that the next header carries is locked. -/
theorem Dev.lockTree_lockedMap (p : MapPoint) (c : Nat) (q : MapPoint) (hl : (d.latency t == (p != .frame)) = true)
    (hq : q = .frame ∨ q = .sub 0) : ((d.lockTree n t p c q).tree t).lockedMap = d.mapOf t ⟨c, q, 0⟩ := by
  have mapped : ((d.lockMap t c q).tree t).lockedMap = d.mapOf t ⟨c, q, 0⟩ := by
    rcases hq with rfl | rfl <;> simp [Dev.lockMap, Dev.tree_modTree]
  unfold Dev.lockTree
  dsimp only
  rw [if_pos hl]
  split
  · refine Eq.trans ?_ mapped
    exact Dev.lockedMap_of_seen (Dev.seen_lockPloam _ n t c (.inr fun _ _ h => by simp [lockedMapSight, h]))
  · exact mapped

theorem Dev.lockTree_locked (p : MapPoint) (c : Nat) (q : MapPoint) (hp : p ≠ .frame) :
    ((d.lockTree n t p c q).tree t).locked = (d.tree t).locked := by
  unfold Dev.lockTree
  dsimp only
  rw [if_neg hp]
  split
  · exact Dev.locked_of_seen (d.seen_lockMap t c q (.inr fun _ _ => rfl))
  · rfl

/-- What a tree's sight shows of its header. -/
theorem Dev.header_of_seen {d e : Dev} {x : Nat} (h : e.seen (treeSight x) = d.seen (treeSight x)) :
    (e.tree x).lockedMap = (d.tree x).lockedMap ∧ (e.tree x).locked = (d.tree x).locked :=
  ⟨congrArg (fun s : Seen => s.tree.lockedMap) h, congrArg (fun s : Seen => s.tree.locked) h⟩

theorem Dev.lockTree_length (c : Nat) (q : MapPoint) : ((d.lockTree n t .frame c q).tree t).locked.length ≤ 16 :=
  Dev.lockPloam_length _ n t c

/-- A tree that will carry the next frame is worked on once at the header lock. -/
theorem Dev.lockTrees_of_carries (p : MapPoint) {x : Nat} (hx : x < 32) (hc : d.carries x (d.nextMap p).1 = true) :
    ∃ a : Dev, a.seen (treeSight x) = d.seen (treeSight x) ∧
      (d.each (allTrees.filter fun t => d.carries t (d.nextMap p).1)
        fun e t => e.lockTree n t p (d.nextMap p).1 (d.nextMap p).2).seen (treeSight x) =
      (a.lockTree n x p (d.nextMap p).1 (d.nextMap p).2).seen (treeSight x) := by
  have mine : x ∈ allTrees.filter fun t => d.carries t (d.nextMap p).1 :=
    List.mem_filter.2 ⟨List.mem_range.2 hx, hc⟩
  exact d.seen_each_mem (v := treeSight x) (allTrees_nodup.filter _) mine fun e t ht =>
    e.seen_lockTree n t p (d.nextMap p).1 (d.nextMap p).2 ht

theorem Dev.nextMap_header (p : MapPoint) (hp : p = .frame ∨ p = .sub 7) :
    (d.nextMap p).2 = .frame ∨ (d.nextMap p).2 = .sub 0 := by
  rcases hp with rfl | rfl
  · exact .inl rfl
  · exact .inr rfl

/-- The sub-maps (`c`, `k`) that leave on the trees of a list. -/
def Dev.subMaps (c k : Nat) (l : List Nat) : List Emission :=
  (l.filter fun t => d.latency t && (d.tree t).lit).map fun t => .subMap t c k (mapRecords (d.mapOf t ⟨c, .sub k, 0⟩))

theorem Dev.subMaps_cons (c k : Nat) (l : List Nat) : d.subMaps c k (t :: l) =
    (if d.latency t && (d.tree t).lit then [.subMap t c k (mapRecords (d.mapOf t ⟨c, .sub k, 0⟩))] else []) ++
      d.subMaps c k l := by
  unfold Dev.subMaps
  rw [List.filter_cons]
  split <;> rfl

theorem Dev.lockTree_sub (c k : Nat) : d.lockTree n t (.sub k) c (.sub (k + 1)) =
    if d.latency t && (d.tree t).lit then d.emit (.subMap t c (k + 1) (mapRecords (d.mapOf t ⟨c, .sub (k + 1), 0⟩)))
    else d := by
  unfold Dev.lockTree
  dsimp only
  rw [if_neg nofun, Dev.lockMap_sub]
  cases d.latency t <;> cases (d.tree t).lit <;> rfl

/-- The sub-maps of a later sub-period leave one by one, and nothing else changes. -/
theorem Dev.lockTrees_sub (c k : Nat) (l : List Nat) :
    (d.each l fun e t => e.lockTree n t (.sub k) c (.sub (k + 1))) = { d with wire := d.wire ++ d.subMaps c (k + 1) l } := by
  induction l generalizing d with
  | nil => exact congrArg (fun w => ({ d with wire := w } : Dev)) (List.append_nil d.wire).symm
  | cons t l ih =>
    rw [Dev.each_cons, ih, Dev.subMaps_cons, Dev.lockTree_sub]
    split
    · exact congrArg (fun w => ({ d with wire := w } : Dev)) (List.append_assoc d.wire [_] (d.subMaps c (k + 1) l))
    · rfl

theorem headerLock_completes {s : State} {p : MapPoint} (hp : pointExists p = true) :
    Completes (.headerLock p) s (s.dev.pointTick p 108864 15552) fun e =>
      (∀ x < 32, s.dev.carries x (s.dev.nextMap p).1 = true →
        (p = .frame ∨ p = .sub 7 → x ∈ s.dev.treesAt p →
          (e.tree x).lockedMap = s.dev.mapOf x ⟨(s.dev.nextMap p).1, (s.dev.nextMap p).2, 0⟩) ∧
        (p = .frame → (e.tree x).locked.length ≤ 16) ∧
        (p ≠ .frame → (e.tree x).locked = (s.dev.tree x).locked)) ∧
      ∀ k < 7, p = .sub k → e = { s.dev with wire := s.dev.wire ++
        (((s.dev.treesAt p).filter fun x => (s.dev.tree x).lit && s.dev.carries x (s.dev.rd .superframe 0)).map fun x =>
          .subMap x (s.dev.rd .superframe 0) (k + 1)
            (mapRecords (s.dev.mapOf x ⟨s.dev.rd .superframe 0, .sub (k + 1), 0⟩))) } := by
  refine completes_atPoint (exec_headerLock p s) hp ⟨fun x hx hc => ?_, fun k hk hp => ?_⟩
  · obtain ⟨a, ha, he⟩ := s.dev.lockTrees_of_carries (max s.now (s.dev.pointTick p 108864 15552)) p hx hc
    have tree := Dev.tree_of_seen ha
    obtain ⟨map, messages⟩ := Dev.header_of_seen he
    refine ⟨fun hq hm => ?_, fun hf => ?_, fun hf => ?_⟩
    · have latency := (List.mem_filter.1 hm).2
      rw [← Dev.latency_of_seen ha] at latency
      have locked := a.lockTree_lockedMap (max s.now (s.dev.pointTick p 108864 15552)) x p (s.dev.nextMap p).1
        (s.dev.nextMap p).2 latency (s.dev.nextMap_header p hq)
      rw [map, locked, Dev.mapOf, Dev.mapOf, tree]
    · subst hf
      rw [messages]
      exact a.lockTree_length _ x _ _
    · rw [messages, a.lockTree_locked _ x p _ _ hf, tree]
  · subst hp
    have next : s.dev.nextMap (.sub k) = (s.dev.rd .superframe 0, .sub (k + 1)) := if_neg (by omega)
    rw [next, Dev.lockTrees_sub, Dev.subMaps]
    have trees : ((allTrees.filter fun t => s.dev.carries t (s.dev.rd .superframe 0)).filter fun t =>
        s.dev.latency t && (s.dev.tree t).lit) = (s.dev.treesAt (.sub k)).filter fun x =>
          (s.dev.tree x).lit && s.dev.carries x (s.dev.rd .superframe 0) := by
      rw [Dev.treesAt, List.filter_filter, List.filter_filter]
      refine List.filter_congr fun t _ => ?_
      have point : (MapPoint.sub k != .frame) = true := rfl
      rw [point, beq_true, Bool.and_comm (s.dev.latency t), Bool.and_right_comm]
    rw [trees]

/-- Settles O11: at each point the work on a tree is out of sight of the other trees. -/
theorem mapSendingPoints : Obligations.MapSendingPoints := by
  unfold Obligations.MapSendingPoints
  exact ⟨fun s p hp => mapSeal_completes hp, fun s p late hp => fanOutDeadline_completes late hp,
    fun s p hp => headerLock_completes hp⟩

end Sys2Proof.Machine
end

section
/-!
PROOFS. Buffers, queues, meters and indications are out of sight of every tree's header and maps (R172-R195).
-/
namespace Sys2Proof.Machine
open Sys2Proof

variable (v : Sight) (d : Dev)

/-! ### Cells and frames -/

@[simp] theorem Dev.seen_freeCell (n c : Nat) : (d.freeCell n c).seen v = d.seen v := by
  unfold Dev.freeCell
  dsimp only
  split
  · rw [Dev.seen_wr v _ _ _ (by decide), Dev.seen_add v _ _ _ (by decide)]
    rfl
  · split
    · rw [Dev.seen_wr v _ _ _ (by decide), Dev.seen_add v _ _ _ (by decide)]
      rfl
    · rw [Dev.seen_event, Dev.seen_bump v _ _ (by decide)]

theorem Dev.seen_freeCells (n : Nat) (l : List Nat) : (d.each l fun d c => d.freeCell n c).seen v = d.seen v :=
  d.each_keeps (Dev.seen v) fun d c _ => d.seen_freeCell v n c

@[simp] theorem Dev.seen_uncharge (pool k : Nat) : (d.uncharge pool k).seen v = d.seen v :=
  Dev.seen_wr (r := .poolUsed) v d _ _ (by decide)

@[simp] theorem Dev.seen_charge (pool : Nat) : (d.charge pool).seen v = d.seen v := by
  unfold Dev.charge
  simp (disch := decide)

variable {d} in
theorem Dev.seen_takeFromBank {b c : Nat} {e : Dev} (h : d.takeFromBank b = some (c, e)) : e.seen v = d.seen v := by
  unfold Dev.takeFromBank at h
  dsimp only at h
  split at h
  · split at h
    · cases h
      rfl
    · split at h <;> cases h
      rfl
  · split at h <;> cases h
    rfl

variable {d} in
theorem Dev.seen_takeInTurn {tries b c : Nat} {e : Dev} (h : d.takeInTurn tries b = some (c, e)) :
    e.seen v = d.seen v := by
  induction tries generalizing b with
  | zero => cases h
  | succ tries ih =>
    unfold Dev.takeInTurn at h
    split at h
    · next f hf =>
      cases h
      have taken := Dev.seen_takeFromBank v hf
      rw [Dev.seen_bump v _ _ (by decide), Dev.seen_wr v _ _ _ (by decide)]
      exact taken
    · exact ih h

theorem Dev.seen_takeCells (pool k : Nat) (got : List Nat) : (d.takeCells pool k got).2.2.seen v = d.seen v := by
  induction k generalizing d got with
  | zero => rfl
  | succ k ih =>
    unfold Dev.takeCells
    split
    · rfl
    · split
      · rfl
      · next e he => exact (ih _ _).trans ((e.seen_charge v pool).trans (Dev.seen_takeInTurn v he))

theorem Dev.seen_badRead : d.badRead.seen v = d.seen v := by
  unfold Dev.badRead
  dsimp only
  split
  · rfl
  · next e he =>
    have taken := Dev.seen_takeInTurn v he
    exact taken

/-- A frame stored, or not, is out of sight. -/
theorem Dev.seen_storeFrame (n pool length : Nat) (bytes : Bytes) :
    (d.storeFrame n pool length bytes).2.seen v = d.seen v ∧
      ∀ c e, (d.storeFrame n pool length bytes).1 = some (c, e) → e.seen v = d.seen v := by
  have taken := d.seen_takeCells v pool (cellsOf length) []
  unfold Dev.storeFrame
  split
  · exact ⟨d.seen_badRead v, fun c e h => absurd h.symm (Option.some_ne_none _)⟩
  · split
    · next e he =>
      rw [he] at taken
      refine ⟨rfl, fun c f h => ?_⟩
      cases h
      exact taken
    · next e he =>
      rw [he] at taken
      refine ⟨?_, fun c e h => absurd h.symm (Option.some_ne_none _)⟩
      rw [Dev.seen_bump v _ _ (by decide), Dev.seen_uncharge, Dev.seen_freeCells]
      exact taken

/-! ### Descriptors and queues -/

theorem Dev.seen_addDesc (x : Desc) : (d.addDesc x).2.seen v = d.seen v :=
  Dev.seen_wr (r := .descFree) v _ 0 _ (by decide)

@[simp] theorem Dev.seen_setDesc (k : Nat) (x : Desc) : (d.setDesc k x).seen v = d.seen v := rfl

@[simp] theorem Dev.seen_modStat (q : Nat) (f : QStat → QStat) : (d.modStat q f).seen v = d.seen v := rfl

@[simp] theorem Dev.seen_setQueue (q : Nat) (l : List Nat) : (d.setQueue q l).seen v = d.seen v := by
  unfold Dev.setQueue
  dsimp only
  split
  · split <;> rfl
  · rfl

@[simp] theorem Dev.seen_pushQueue (q k : Nat) : (d.pushQueue q k).seen v = d.seen v := by
  unfold Dev.pushQueue
  simp

@[simp] theorem Dev.seen_settleCommit (n : Nat) : (d.settleCommit n).seen v = d.seen v := by
  unfold Dev.settleCommit
  split <;> rfl

@[simp] theorem Dev.seen_leaveVersion (n w : Nat) : (d.leaveVersion n w).seen v = d.seen v := by
  have left := Dev.seen_wr (r := .verInflight) v d w (d.rd .verInflight w - 1) (by decide)
  unfold Dev.leaveVersion
  dsimp only
  split
  · exact (Dev.seen_settleCommit v _ n).trans left
  · exact left

@[simp] theorem Dev.seen_releaseChain (n chain : Nat) : (d.releaseChain n chain).seen v = d.seen v := by
  unfold Dev.releaseChain
  split
  · rfl
  · split
    · exact (Dev.seen_uncharge v _ _ _).trans (Dev.seen_freeCells v _ n _)
    · rfl

@[simp] theorem Dev.seen_freeDesc (n k : Nat) : (d.freeDesc n k).seen v = d.seen v := by
  unfold Dev.freeDesc
  split
  · rfl
  · dsimp only
    split <;> simp (disch := decide) <;> rfl

@[simp] theorem Dev.seen_sampleDone (id : Option Nat) (outcome : Nat) : (d.sampleDone id outcome).seen v = d.seen v := by
  unfold Dev.sampleDone
  split
  · rfl
  · split
    · rfl
    · exact Dev.seen_wr (r := .sampleNext) v _ 0 _ (by decide)

@[simp] theorem Dev.seen_dropDesc (n k outcome : Nat) : (d.dropDesc n k outcome).seen v = d.seen v := by
  unfold Dev.dropDesc
  split
  · rfl
  · dsimp only
    split <;> simp (disch := decide)

/-- A queue flushed into a counter is out of sight. -/
theorem Dev.seen_flushQueue (n q : Nat) {count : Dev → Dev} (h : ∀ d, (count d).seen v = d.seen v) :
    (d.flushQueue n q count).seen v = d.seen v :=
  (Dev.each_keeps _ (Dev.seen v) fun d k _ => (h _).trans (d.seen_dropDesc v n k 6)).trans (d.seen_setQueue v q [])

@[simp] theorem Dev.seen_flushTerm (n g : Nat) : (d.flushTerm n g).seen v = d.seen v :=
  d.each_keeps (Dev.seen v) fun d q _ =>
    d.seen_flushQueue v n (downQueue g q) fun d => Dev.seen_bump (r := .termFlushed) v d g (by decide)

@[simp] theorem Dev.seen_flushPort (n p : Nat) : (d.flushPort n p).seen v = d.seen v :=
  d.each_keeps (Dev.seen v) fun d q _ =>
    d.seen_flushQueue v n (upQueue p q) fun d => Dev.seen_bump (r := .flushedFrames) v d p (by decide)

theorem Dev.seen_settleHold (n : Nat) (x : Desc) : (d.settleHold n x).seen v = d.seen v := by
  have port : ∀ p, (d.settlePortHold n p).seen v = d.seen v := fun p => by
    unfold Dev.settlePortHold Dev.endPortHold
    split
    · split <;> simp (disch := decide)
    · rfl
  have term : ∀ g, (d.settleTermHold n g).seen v = d.seen v := fun g => by
    unfold Dev.settleTermHold Dev.endTermHold
    split
    · split <;> simp
    · rfl
  unfold Dev.settleHold
  split
  · exact port _
  · exact term _
  · rfl

@[simp] theorem Dev.seen_follow (id : Option Nat) (f : Followed → Followed) : (d.follow id f).seen v = d.seen v := by
  unfold Dev.follow
  split <;> rfl

@[simp] theorem Dev.seen_updateAvg (q r : Nat) : (d.updateAvg q r).seen v = d.seen v := rfl

@[simp] theorem Dev.seen_drawNoise : d.drawNoise.2.seen v = d.seen v := rfl

theorem redDropReg_not_seen (colour : Nat) : redDropReg colour ∉ sightRegs := by
  unfold redDropReg
  split <;> decide

/-- The counter of frames for an egress that is down is out of sight. -/
theorem Dev.gateOf_counter {d : Dev} {x : Desc} {g : QueueGate} {r : Reg} {i : Nat} (h : d.gateOf x = (g, some (r, i))) :
    r ∉ sightRegs := by
  unfold Dev.gateOf at h
  split at h <;> cases h <;> decide

/-- A frame queued or dropped after metering and its early-drop test is out of sight. -/
theorem Dev.seen_enqueue (n k : Nat) : (d.enqueue n k).2.seen v = d.seen v := by
  unfold Dev.enqueue
  split
  · rfl
  · next x _ =>
    have settled := d.seen_settleHold v n x
    have metered : (if x.meterEn then (d.settleHold n x).metered n x.meter x.length x.colour
        else (x.colour, false, d.settleHold n x)).2.2.seen v = d.seen v := by
      split <;> exact settled
    dsimp only
    split
    · rw [Dev.seen_dropDesc]
      split
      · next r i hg =>
        split
        · exact settled
        · exact (Dev.seen_bump v _ i (Dev.gateOf_counter hg)).trans settled
      · exact settled
    · generalize (if x.meterEn then (d.settleHold n x).metered n x.meter x.length x.colour
        else (x.colour, false, d.settleHold n x)) = m at metered
      obtain ⟨colour, drop, e⟩ := m
      replace metered : e.seen v = d.seen v := metered
      dsimp only
      rw [← metered]
      split
      · simp (disch := decide)
      · split
        · simp
        · split
          · simp
          · simp (disch := decide)
          · simp (disch := decide)
          · rw [Dev.seen_dropDesc, Dev.seen_bump v _ 0 (redDropReg_not_seen _)]
            simp

theorem Dev.seen_queueDevice (n pool kind dest queue domain : Nat) (bytes : Bytes) (oneStep : Bool) (ring : Option Nat) :
    (d.queueDevice n pool kind dest queue domain bytes oneStep ring).2.seen v = d.seen v := by
  unfold Dev.queueDevice
  dsimp only
  obtain ⟨left, stored⟩ := d.seen_storeFrame v n pool (max 64 (bytes.length + 4)) bytes
  split
  · next e he =>
    rw [he] at left
    exact left
  · next c e f he =>
    rw [he] at stored
    exact (Dev.seen_enqueue v _ n _).trans ((e.seen_addDesc v _).trans (stored c e rfl))

/-! ### Indications and defects -/

@[simp] theorem Dev.seen_orderIndication (n t q : Nat) : (d.orderIndication n t q).seen v = d.seen v := by
  unfold Dev.orderIndication
  split
  · rfl
  · dsimp only
    rw [Dev.seen_setQueue]
    split <;> rfl

/-- A step taken only under a condition. -/
theorem Dev.seen_when (c : Bool) {f : Dev → Dev} (h : (f d).seen v = d.seen v) : (d.when c f).seen v = d.seen v := by
  cases c
  · rfl
  · exact h

/-- An indication of another tree is out of sight, whatever becomes of its frame. -/
theorem Dev.seen_indicate (n t event : Nat) (h : v.x ≠ t) : (d.indicate n t event).seen v = d.seen v := by
  unfold Dev.indicate
  dsimp only
  generalize hm : (if 14 ≤ d.rd .indicationOffset t ∧ d.rd .indicationOffset t + 4 ≤ d.rd .indLength t then _ else _) = m
  have drawn : m.2.seen v = d.seen v := by
    rw [← hm]
    split <;> rfl
  rw [← drawn]
  split <;> rw [Dev.seen_bump v _ t (by decide), Dev.seen_when v _ _ (Dev.seen_orderIndication v _ n t _),
    Dev.seen_queueDevice, Dev.seen_modTree v _ _ h]

theorem Dev.seen_setTreeDefect (n t b : Nat) (on : Bool) (h : v.x ≠ t) :
    (d.setTreeDefect n t b on).seen v = d.seen v := by
  unfold Dev.setTreeDefect
  dsimp only
  split
  · exact d.seen_when v on (d.seen_raiseLevel v n _)
  · refine (Dev.seen_when v _ _ (Dev.seen_indicate v _ n t _ h)).trans ?_
    have marked : (((d.wr .treeDefects t (setBit (d.rd .treeDefects t) b on))).when on fun d =>
        d.modTree t fun x => { x with pm := x.pm.mark b }).seen v = d.seen v :=
      (Dev.seen_when v _ on (Dev.seen_modTree v _ _ h)).trans (Dev.seen_wr (r := .treeDefects) v d _ _ (by decide))
    split
    · rw [Dev.seen_raiseLevel, Dev.seen_bump v _ _ (by decide), marked]
    · rw [Dev.seen_dropLevel, marked]

theorem Dev.seen_judgeRdi (n t : Nat) (h : v.x ≠ t) : (d.judgeRdi n t).seen v = d.seen v :=
  d.seen_setTreeDefect v n t 3 _ h

/-! ### Terminals that leave -/

theorem Dev.seen_mirrorTerm (n g : Nat) : (d.mirrorTerm n g).seen v = d.seen v := d.seen_durable v n _

theorem Dev.seen_flushTermAddrs (g : Nat) : (d.flushTermAddrs g).seen v = d.seen v := by
  unfold Dev.flushTermAddrs
  split
  · rfl
  · exact Dev.seen_add (r := .flushed) v _ 0 _ (by decide)

theorem Dev.seen_startTermHold (n g : Nat) : (d.startTermHold n g).seen v = d.seen v := by
  unfold Dev.startTermHold
  dsimp only
  split
  · exact d.seen_flushTerm v n g
  · rfl

/-- A terminal of another tree becomes EMPTY out of sight. -/
theorem Dev.seen_setTermState_empty (n g : Nat) (h : v.x ≠ treeOfTerm g) :
    (d.setTermState n g 0).seen v = d.seen v := by
  have written := Dev.seen_wr (r := .termState) v d g 0 (by decide)
  have held : (if d.rd .termState g = 2 ∧ 0 ≠ 4 then (d.wr .termState g 0).startTermHold n g
      else d.wr .termState g 0).seen v = d.seen v := by
    split
    · exact (Dev.seen_startTermHold v _ n g).trans written
    · exact written
  unfold Dev.setTermState
  dsimp only
  split
  · rfl
  · rw [Dev.seen_mirrorTerm, if_neg (by decide : ¬(0 : Nat) = 2), if_neg (by decide : ¬(0 : Nat) = 4),
      if_pos (Or.inl rfl)]
    split
    · rw [Dev.seen_judgeRdi v _ n _ h, Dev.seen_flushTermAddrs, held]
    · rw [Dev.seen_flushTermAddrs, held]

/-- A terminal of another tree is forgotten out of sight. -/
theorem Dev.seen_forgetTerm (g : Nat) (h : v.x ≠ treeOfTerm g) : (d.forgetTerm g).seen v = d.seen v := by
  have updated : (d.dropUpdate g).seen v = d.seen v := by
    unfold Dev.dropUpdate
    dsimp only
    rw [Dev.seen_modTerm]
    split
    · exact Dev.seen_modTree v d _ h
    · rfl
  unfold Dev.forgetTerm Dev.retireTerm
  rw [Dev.seen_wr v _ _ _ (by decide), Dev.seen_wr v _ _ _ (by decide), Dev.seen_modTerm]
  exact (Dev.seen_modTree v _ _ h).trans updated

theorem Dev.seen_toEmpty (n g : Nat) (message : Bool) (h : v.x ≠ treeOfTerm g) :
    (d.toEmpty n g message).seen v = d.seen v := by
  unfold Dev.toEmpty
  dsimp only
  rw [Dev.seen_setTermState_empty v _ n g h, Dev.seen_forgetTerm v _ g h]
  split
  · exact Dev.seen_modTree v d _ h
  · rfl

theorem Dev.seen_clearAllocs (t : Nat) : (d.clearAllocs t).seen v = d.seen v :=
  d.each_keeps (Dev.seen v) fun d a _ => by
    split
    · rfl
    · rw [Dev.seen_wr v _ _ _ (by decide), Dev.seen_wr v _ _ _ (by decide), Dev.seen_modAlloc]

theorem treeOfTerm_of_mem {t g : Nat} (h : g ∈ termsOfTree t) : treeOfTerm g = t := by
  obtain ⟨k, hk, rfl⟩ := List.mem_map.1 h
  have := List.mem_range.1 hk
  unfold treeOfTerm
  omega

/-- Another tree goes dark out of sight. -/
theorem Dev.seen_darken (n t : Nat) (clear : Bool) (h : v.x ≠ t) : (d.darken n t clear).seen v = d.seen v := by
  have terms : ∀ d : Dev, (d.each (termsOfTree t) fun d g =>
      if d.rd .termState g = 0 then d else d.toEmpty n g false).seen v = d.seen v := fun d =>
    d.each_keeps (Dev.seen v) fun d g hg => by
      split
      · rfl
      · exact d.seen_toEmpty v n g false (treeOfTerm_of_mem hg ▸ h)
  have stopped := (terms _).trans ((Dev.seen_modTree v _ (fun x => { x.keepPloam with
    lit := false, building := none, lockedMap := none, room := 0, payloadBytes := 0,
    rangeWanted := [], windowFrame := none, rogueHist := [], losSet := none, losClr := none, lofSet := none,
    lofClr := none, judged := none, rxrst := none }) h).trans
      (Dev.seen_wr (r := .txdisNow) v d (quadOf t) (setBit (d.rd .txdisNow (quadOf t)) (t % 4) true) (by decide)))
  unfold Dev.darken
  dsimp only
  split
  · exact (Dev.seen_clearAllocs v _ t).trans ((Dev.seen_modTree v _ _ h).trans
      ((Dev.seen_of_ciphers v (Ciphers.forgetKeystream _ t)).trans stopped))
  · exact stopped

end Sys2Proof.Machine
end

section
/-!
PROOFS. The frame start (R17-R19, R40, R41, R327): the count and the start of the frame advance, and each lit tree's header leaves
as it was locked.
-/
namespace Sys2Proof.Machine
open Sys2Proof

/-- The sight of a tree's header: whether it is lit, its locked messages and its locked map. -/
def headerSight (x : Nat) : Sight :=
  ⟨x, fun y => { lit := y.lit, locked := y.locked, lockedMap := y.lockedMap }, fun _ _ => rfl⟩

variable (d : Dev) (n sfc : Nat)

/-! ### Before the headers -/

theorem Dev.seen_stopRestarting {v : Sight} (h : v.x < 32 → (d.tree v.x).restarting = false) :
    (d.stopRestarting n).seen v = d.seen v :=
  d.seen_each_not_mem (fun hx => by
    obtain ⟨hx, hr⟩ := List.mem_filter.1 hx
    simp [h (List.mem_range.1 hx)] at hr) fun d t ht => d.seen_darken v n t true ht

theorem Dev.seen_switchKeys (v : Sight) : (d.switchKeys sfc).seen v = d.seen v :=
  d.each_keeps (Dev.seen v) fun d s _ =>
    (Dev.seen_bump (r := .switches) v _ s (by decide)).trans (Dev.seen_modSlot v d s _)

theorem Dev.seen_applyUpdates (v : Sight) : (d.applyUpdates n sfc).seen v = d.seen v :=
  d.each_keeps (Dev.seen v) fun d x _ =>
    (Dev.seen_mirrorTerm v _ n x.1).trans (Dev.seen_wr (r := .eqdBits) v d _ _ (by decide))

theorem Dev.seen_modMate (v : Sight) {f : Mate → Mate} (h : ∀ m, (f m).firstFrame = m.firstFrame) :
    (d.modMate f).seen v = d.seen v := Dev.seen_of_rd v rfl rfl rfl (h _) fun _ _ _ _ => rfl

/-- The maps of a frame whose mirror set is not whole go out of the header's sight. -/
theorem Dev.seen_markGap (x : Nat) : (d.markGap sfc).seen (headerSight x) = d.seen (headerSight x) := by
  unfold Dev.markGap
  dsimp only
  have masked : ∀ (d : Dev) (t : Nat) (p : Map → Bool), (d.modTree t fun y => { y with maps := y.maps.filter p }).seen
      (headerSight x) = d.seen (headerSight x) := fun d t p => Dev.seen_modTree_masked (headerSight x) d t fun _ => rfl
  refine (Dev.each_keeps _ (Dev.seen (headerSight x)) fun d t _ => masked d t _).trans ?_
  refine (Dev.seen_modMate _ _ ?_).trans (Dev.seen_bump (r := .mirrorGaps) _ d 0 (by decide))
  exact fun _ => rfl

theorem Dev.seen_mirrorCheck (x : Nat) : (d.mirrorCheck sfc).seen (headerSight x) = d.seen (headerSight x) := by
  unfold Dev.mirrorCheck
  split
  · rfl
  · exact d.seen_markGap sfc x

theorem Dev.relinquishAt_of_none (h : d.mate.relinquishing = none) : d.relinquishAt n sfc = d := by
  unfold Dev.relinquishAt
  rw [h]

theorem Dev.firstFrameAt_of_none (h : d.mate.firstFrame = none) : d.firstFrameAt n sfc = d := by
  unfold Dev.firstFrameAt
  rw [h]

theorem Dev.firstFrame_of_seen {v : Sight} {d e : Dev} (h : e.seen v = d.seen v) :
    e.mate.firstFrame = d.mate.firstFrame := congrArg Seen.firstFrame h

theorem Dev.gnomon_of_seen {v : Sight} {d e : Dev} (h : e.seen v = d.seen v) : e.gnomon = d.gnomon :=
  congrArg Seen.gnomon h

/-- What comes before a take-over's first frame: restarts, key switches, delay updates, the check of the mirrored maps. -/
def Dev.beforeFirstFrame : Dev :=
  let d := (((d.relinquishAt n sfc).stopRestarting n).switchKeys sfc).applyUpdates n sfc
  if d.mate.aligned then d.mirrorCheck sfc else d

theorem Dev.startFrame_eq : d.startFrame n sfc =
    ((((d.beforeFirstFrame n sfc).firstFrameAt n sfc).each allTrees fun d t => d.sendHeader n sfc t).modMate
      Mate.endPeriod).sendHeartbeat n false := rfl

theorem Dev.seen_beforeFirstFrame {x : Nat} (hr : d.mate.relinquishing = none)
    (hx : x < 32 → (d.tree x).restarting = false) :
    (d.beforeFirstFrame n sfc).seen (headerSight x) = d.seen (headerSight x) := by
  have updated : ((((d.relinquishAt n sfc).stopRestarting n).switchKeys sfc).applyUpdates n sfc).seen (headerSight x) =
      d.seen (headerSight x) := by
    rw [Dev.seen_applyUpdates, Dev.seen_switchKeys, Dev.relinquishAt_of_none d n sfc hr]
    exact d.seen_stopRestarting n hx
  unfold Dev.beforeFirstFrame
  dsimp only
  split
  · exact (Dev.seen_mirrorCheck _ sfc x).trans updated
  · exact updated

/-- Where no take-over is due either, the headers find what they show of a tree as it was. -/
theorem Dev.seen_atHeaders {x : Nat} (hr : d.mate.relinquishing = none) (hf : d.mate.firstFrame = none)
    (hx : x < 32 → (d.tree x).restarting = false) :
    ((d.beforeFirstFrame n sfc).firstFrameAt n sfc).seen (headerSight x) = d.seen (headerSight x) := by
  have before := d.seen_beforeFirstFrame n sfc hr hx
  rw [Dev.firstFrameAt_of_none _ n sfc ((Dev.firstFrame_of_seen before).trans hf)]
  exact before

/-! ### The headers -/

theorem Dev.seen_sendHeader {v : Sight} (t : Nat) (h : v.x ≠ t) : (d.sendHeader n sfc t).seen v = d.seen v := by
  have filled : (d.fillIdle t).seen v = d.seen v := by
    unfold Dev.fillIdle
    dsimp only
    split
    · rfl
    · exact (Dev.seen_modTree v _ _ h).trans (Dev.seen_add (r := .idleFillBytes) v d t _ (by decide))
  unfold Dev.sendHeader
  dsimp only
  rw [Dev.seen_modTree v _ _ h]
  split
  · exact filled
  · rfl

theorem Dev.fillIdle_wire (t : Nat) : d.wire <+: (d.fillIdle t).wire := by
  unfold Dev.fillIdle
  dsimp only
  split
  · exact List.prefix_rfl
  · exact List.prefix_append _ _

theorem Dev.sendHeader_wire (t : Nat) : d.wire <+: (d.sendHeader n sfc t).wire := by
  unfold Dev.sendHeader
  dsimp only [Dev.modTree_wire]
  split
  · exact (d.fillIdle_wire t).trans (List.prefix_append _ _)
  · exact List.prefix_rfl

/-- The header of a lit tree leaves. -/
theorem Dev.mem_sendHeader {t : Nat} (h : (d.tree t).lit = true) :
    .downstream t (d.headerOf n sfc t) ∈ (d.sendHeader n sfc t).wire := by
  unfold Dev.sendHeader
  dsimp only [Dev.modTree_wire]
  rw [if_pos h]
  exact List.mem_append_right _ (List.mem_singleton_self _)

theorem Dev.each_wire {α : Type} (d : Dev) (l : List α) {f : Dev → α → Dev} (h : ∀ d x, d.wire <+: (f d x).wire) :
    d.wire <+: (d.each l f).wire := by
  induction l generalizing d with
  | nil => exact List.prefix_rfl
  | cons x l ih => exact (h d x).trans (ih _)

/-- What a header of frame `sfc` that starts at `n` says of tree `x` of a device. -/
structure Dev.HeaderSays (d : Dev) (n sfc x : Nat) (h : DownHeader) : Prop where
  psync : h.psync = n
  count : h.sfc = sfc
  lineBytes : h.lineBytes = d.frameBytes x
  carried : (d.quad (quadOf x)).change = 0 →
    h.map = mapRecords (d.tree x).lockedMap ∧ h.messages.length = (d.tree x).locked.length

theorem Dev.headerOf_says (x : Nat) : d.HeaderSays n sfc x (d.headerOf n sfc x) := by
  refine ⟨rfl, rfl, rfl, fun hq => ?_⟩
  have last : d.lastFrame x = false := by
    unfold Dev.lastFrame
    rw [hq]
    rfl
  unfold Dev.headerOf
  simp [last]

theorem Dev.frameBytes_of_seen {v : Sight} {d e : Dev} (h : e.seen v = d.seen v) (x : Nat) :
    e.frameBytes x = d.frameBytes x := by
  unfold Dev.frameBytes Dev.upRate
  rw [Dev.treeProfile_of_seen h, Dev.rd_of_seen h (r := .lineMode) _ (by decide) (by decide)]

theorem Dev.HeaderSays.of_seen {d e : Dev} {n sfc x : Nat} {h : DownHeader} (hs : e.HeaderSays n sfc x h)
    (seen : e.seen (headerSight x) = d.seen (headerSight x)) : d.HeaderSays n sfc x h where
  psync := hs.psync
  count := hs.count
  lineBytes := hs.lineBytes.trans (Dev.frameBytes_of_seen seen x)
  carried hq := by
    have map : (e.tree x).lockedMap = (d.tree x).lockedMap := congrArg (fun s : Seen => s.tree.lockedMap) seen
    have messages : (e.tree x).locked = (d.tree x).locked := congrArg (fun s : Seen => s.tree.locked) seen
    rw [← map, ← messages]
    exact hs.carried ((congrArg Quad.change (Dev.quad_of_seen seen _)).trans hq)

/-- Every lit tree sends its header. -/
theorem Dev.sendHeaders_mem {x : Nat} (hx : x < 32) (hl : (d.tree x).lit = true) :
    ∃ h, .downstream x h ∈ (d.each allTrees fun d t => d.sendHeader n sfc t).wire ∧ d.HeaderSays n sfc x h := by
  obtain ⟨k, l, hkl⟩ := List.append_of_mem (List.mem_range.2 hx)
  have hk : x ∉ k := by
    have nodup := allTrees_nodup
    rw [allTrees, hkl] at nodup
    exact fun h => (List.nodup_append.1 nodup).2.2 x h x List.mem_cons_self rfl
  have seen : (d.each k fun d t => d.sendHeader n sfc t).seen (headerSight x) = d.seen (headerSight x) :=
    d.seen_each_not_mem (v := headerSight x) hk fun d t ht => d.seen_sendHeader n sfc t ht
  have lit : ((d.each k fun d t => d.sendHeader n sfc t).tree x).lit = true :=
    (congrArg (fun s : Seen => s.tree.lit) seen).trans hl
  refine ⟨_, ?_, ((Dev.headerOf_says _ n sfc x).of_seen seen)⟩
  rw [allTrees, hkl, Dev.each_append, Dev.each_cons]
  exact (Dev.each_wire _ l fun d t => d.sendHeader_wire n sfc t).subset (Dev.mem_sendHeader _ n sfc lit)

/-! ### The heartbeat -/

theorem Dev.seen_of_sends (v : Sight) {d e : Dev} (h : d.Sends e) : e.seen v = d.seen v := by
  refine Dev.seen_of_rd v ?_ (congrArg (·.quads) h.rest) (congrArg (·.gnomon) h.rest) (congrArg (·.mate.firstFrame) h.rest)
    fun r i hr _ => h.regs r i fun hc => ?_
  · rw [h.tree, v.blind]
  · have : ∀ r ∈ Reg.mateState :: cipherRegs, r ∉ sightRegs := by decide
    exact this r hc hr

theorem Dev.sendHeartbeat_cases (refuse : Bool) : d.Sends (d.sendHeartbeat n refuse) ∨
    ∃ e w, d.Sends e ∧ d.sendHeartbeat n refuse = (e.emit (.pinWord w)).bump .hbSent 0 := by
  cases h : d.on .redundancyEnable 0 with
  | true => exact .inr (d.sendHeartbeat_of_on n refuse h)
  | false =>
    refine .inl ?_
    unfold Dev.sendHeartbeat
    rw [h, if_neg Bool.false_ne_true]
    split
    · exact Sends.fillMate d n
    · exact Sends.refl d

theorem Dev.seen_sendHeartbeat (v : Sight) (refuse : Bool) : (d.sendHeartbeat n refuse).seen v = d.seen v := by
  rcases d.sendHeartbeat_cases n refuse with h | ⟨e, w, h, he⟩
  · exact Dev.seen_of_sends v h
  · rw [he, Dev.seen_bump v _ 0 (by decide), Dev.seen_emit]
    exact Dev.seen_of_sends v h

theorem Dev.sendHeartbeat_wire (refuse : Bool) : d.wire <+: (d.sendHeartbeat n refuse).wire := by
  rcases d.sendHeartbeat_cases n refuse with h | ⟨e, w, h, he⟩
  · exact h.wire
  · rw [he]
    exact h.wire.trans (List.prefix_append _ _)

/-! ### The frame start -/

/-- What a device without trees to look at shows: the frame's registers and the Gnomon. -/
theorem Dev.seen_startFrame (hr : d.mate.relinquishing = none) (hf : d.mate.firstFrame = none) :
    (d.startFrame n sfc).seen (headerSight 32) = d.seen (headerSight 32) := by
  rw [Dev.startFrame_eq, Dev.seen_sendHeartbeat, Dev.seen_modMate _ _ (f := Mate.endPeriod) fun _ => rfl]
  refine (Dev.seen_each_not_mem _ (v := headerSight 32) (by decide) fun d t ht => d.seen_sendHeader n sfc t ht).trans ?_
  exact d.seen_atHeaders n sfc hr hf fun h => absurd h (by decide)

/-- The header of a tree that is lit and does not restart leaves. -/
theorem Dev.startFrame_header {x : Nat} (hr : d.mate.relinquishing = none) (hf : d.mate.firstFrame = none) (hx : x < 32)
    (ht : (d.tree x).restarting = false) (hl : (d.tree x).lit = true) :
    ∃ h, .downstream x h ∈ (d.startFrame n sfc).wire ∧ d.HeaderSays n sfc x h := by
  have seen := d.seen_atHeaders n sfc (x := x) hr hf fun _ => ht
  have lit : (((d.beforeFirstFrame n sfc).firstFrameAt n sfc).tree x).lit = true :=
    (congrArg (fun s : Seen => s.tree.lit) seen).trans hl
  obtain ⟨h, mem, hs⟩ := Dev.sendHeaders_mem _ n sfc hx lit
  refine ⟨h, ?_, hs.of_seen seen⟩
  rw [Dev.startFrame_eq]
  refine (Dev.sendHeartbeat_wire _ n false).subset ?_
  rw [Dev.modMate_wire]
  exact mem

theorem Reg.modulus_superframe : Reg.modulus .superframe = 2 ^ 64 := by decide +kernel
theorem Reg.modulus_frameTick : Reg.modulus .frameTick = 2 ^ 64 := by decide +kernel
theorem Reg.modulus_frameShift : Reg.modulus .frameShift = 2 ^ 64 := by decide +kernel

/-- The next frame's count and start, with the phase that is left. -/
structure Dev.Advanced (d e : Dev) : Prop where
  count : e.rd .superframe 0 = (d.rd .superframe 0 + 1) % 2 ^ 51
  start : e.rd .frameTick 0 =
    (((d.rd .frameTick 0 + 155520 : Nat) : Int) + d.gnomon.residual.sign).toNat % 2 ^ 64
  shift : e.rd .frameShift 0 = if d.gnomon.residual = 0 then d.rd .frameShift 0 else (d.rd .frameShift 0 + 1) % 2 ^ 64
  residual : e.gnomon.residual = d.gnomon.residual - d.gnomon.residual.sign

/-- The device with the count and the start of the next frame. -/
def Dev.countFrame : Dev :=
  (d.wr .frameTick 0 (((d.rd .frameTick 0 + frameTicks : Nat) : Int) + d.slewNow).toNat).wr .superframe 0
    ((d.rd .superframe 0 + 1) % 2 ^ 51)

theorem Dev.nextFrame_eq : d.nextFrame = if d.slewNow = 0 then d.countFrame else
    { d.countFrame.bump .frameShift 0 with
      gnomon := { d.countFrame.gnomon with residual := d.countFrame.gnomon.residual - d.slewNow } } := rfl

theorem Dev.nextFrame_rd {r : Reg} (i : Nat) (h : r ∉ [.superframe, .frameTick, .frameShift]) :
    d.nextFrame.rd r i = d.rd r i := by
  simp only [List.mem_cons, List.not_mem_nil, or_false, not_or] at h
  obtain ⟨hs, ht, hf⟩ := h
  have counted : d.countFrame.rd r i = d.rd r i :=
    (Dev.rd_wr_other _ _ _ _ hs).trans (Dev.rd_wr_other _ _ _ _ ht)
  rw [Dev.nextFrame_eq]
  split
  · exact counted
  · exact (Dev.rd_wr_other _ _ _ _ hf).trans counted

theorem Dev.nextFrame_advanced : d.Advanced d.nextFrame := by
  have count : d.countFrame.rd .superframe 0 = (d.rd .superframe 0 + 1) % 2 ^ 51 := by
    rw [Dev.countFrame, Dev.rd_wr_same, Reg.modulus_superframe]
    omega
  have start : d.countFrame.rd .frameTick 0 =
      (((d.rd .frameTick 0 + 155520 : Nat) : Int) + d.gnomon.residual.sign).toNat % 2 ^ 64 := by
    rw [Dev.countFrame, Dev.rd_wr_other _ _ _ _ (by decide), Dev.rd_wr_same, Reg.modulus_frameTick]
    rfl
  have shift : d.countFrame.rd .frameShift 0 = d.rd .frameShift 0 := by
    rw [Dev.countFrame, Dev.rd_wr_other _ _ _ _ (by decide), Dev.rd_wr_other _ _ _ _ (by decide)]
  rw [Dev.nextFrame_eq]
  split
  · next h =>
    have still : d.gnomon.residual = 0 := Int.sign_eq_zero_iff_zero.1 h
    refine ⟨count, start, ?_, ?_⟩
    · rw [if_pos still, shift]
    · rw [still]
      exact still
  · next h =>
    have moves : d.gnomon.residual ≠ 0 := fun e => h (Int.sign_eq_zero_iff_zero.2 e)
    refine ⟨?_, ?_, ?_, rfl⟩
    · exact (Dev.rd_wr_other _ _ _ _ (by decide)).trans count
    · exact (Dev.rd_wr_other _ _ _ _ (by decide)).trans start
    · rw [if_neg moves, ← shift, ← Reg.modulus_frameShift]
      exact Dev.rd_wr_same _ _ _ _

theorem Dev.nextFrame_tree (t : Nat) : d.nextFrame.tree t = d.tree t := by
  rw [Dev.nextFrame_eq]
  split <;> rfl

theorem Dev.nextFrame_quad (q : Nat) : d.nextFrame.quad q = d.quad q := by
  rw [Dev.nextFrame_eq]
  split <;> rfl

theorem Dev.nextFrame_mate : d.nextFrame.mate = d.mate := by
  rw [Dev.nextFrame_eq]
  split <;> rfl

theorem Dev.nextFrame_frameBytes (t : Nat) : d.nextFrame.frameBytes t = d.frameBytes t := by
  unfold Dev.frameBytes Dev.upRate Dev.treeProfile Dev.profile
  rw [Dev.nextFrame_quad, Dev.nextFrame_rd d (r := .quadProfile) _ (by decide),
    Dev.nextFrame_rd d (r := .lineMode) _ (by decide)]

theorem exec_frameStart {s : State} (h : s.dev.chip.phase ≠ .porst) : exec .frameStart s = .next
    { s with
      now := max s.now (s.dev.nextFrame.rd .frameTick 0),
      dev := s.dev.nextFrame.startFrame (s.dev.nextFrame.rd .frameTick 0) (s.dev.nextFrame.rd .superframe 0) } :=
  if_neg h

/-- What follows in the frame start leaves the advance of the frame as it is. -/
theorem Dev.Advanced.startFrame {d e : Dev} (h : d.Advanced e) (n sfc : Nat) (hr : e.mate.relinquishing = none)
    (hf : e.mate.firstFrame = none) : d.Advanced (e.startFrame n sfc) := by
  have seen := e.seen_startFrame n sfc hr hf
  exact
    { count := (Dev.rd_of_seen seen 0 (by decide) (by decide)).trans h.count
      start := (Dev.rd_of_seen seen 0 (by decide) (by decide)).trans h.start
      shift := (Dev.rd_of_seen seen 0 (by decide) (by decide)).trans h.shift
      residual := by
        rw [Dev.gnomon_of_seen seen]
        exact h.residual }

/-- Settles O8: what a frame start does after it has advanced the frame is out of sight of the frame's registers and of the
headers of lit trees. -/
theorem frameStartAdvances : Obligations.FrameStartAdvances := by
  unfold Obligations.FrameStartAdvances
  refine fun s => ⟨fun h => if_pos h, fun h ⟨hr, hf, ht⟩ => ⟨_, exec_frameStart h, rfl, ?_⟩⟩
  rw [← Dev.nextFrame_mate] at hr hf
  have next := s.dev.nextFrame_advanced
  have started := next.startFrame (s.dev.nextFrame.rd .frameTick 0) (s.dev.nextFrame.rd .superframe 0) hr hf
  have start := started.start.trans next.start.symm
  have count := started.count.trans next.count.symm
  dsimp only
  refine ⟨started.count, started.start, started.shift, started.residual, ?_, fun x hx hl => ?_⟩
  · rw [start]
  · have still : (s.dev.nextFrame.tree x).restarting = false := by
      rw [Dev.nextFrame_tree]
      exact (ht x hx).resolve_right (by simp [hl])
    rw [← Dev.nextFrame_tree] at hl
    obtain ⟨header, mem, hs⟩ := Dev.startFrame_header _ (s.dev.nextFrame.rd .frameTick 0)
      (s.dev.nextFrame.rd .superframe 0) hr hf hx still hl
    refine ⟨header, mem, hs.psync.trans start.symm, hs.count.trans count.symm,
      hs.lineBytes.trans (s.dev.nextFrame_frameBytes x), ?_⟩
    rw [← Dev.nextFrame_quad, ← Dev.nextFrame_tree]
    exact hs.carried

end Sys2Proof.Machine
end

section
/-!
PROOFS. The frame of an accepted write, and the long operations that writes start (R33, R314).
-/
namespace Sys2Proof.Machine
open Sys2Proof

/-! ### What an accepted write has passed -/

section
variable {d : Dev} {n : Nat} {m : Master} {r : Reg} {i v : Nat}

theorem Dev.accepts_of_acceptsNum (h : d.acceptsNum n m r i v = true) : d.accepts n m r i (toBytes r.size v) = true :=
  (Bool.and_eq_true_iff.1 h).2

/-- The number that an accepted write brings is the number written. -/
theorem Dev.ofBytes_of_acceptsNum (h : d.acceptsNum n m r i v = true) : ofBytes (toBytes r.size v) = v := by
  rw [ofBytes_toBytes]
  exact Nat.mod_eq_of_lt (of_decide_eq_true (Bool.and_eq_true_iff.1 h).1)

theorem Dev.idle_of_acceptsNum (h : d.acceptsNum n m r i v = true) : (d.asked n m).mgmt.longOp = none := by
  have h := Dev.accepts_of_acceptsNum h
  simp only [Dev.accepts, Dev.hears, Bool.and_eq_true, Option.isNone_iff_eq_none] at h
  exact h.1.1.1.1.1.1.1.1.2

theorem Dev.hasInstance_of_acceptsNum (h : d.acceptsNum n m r i v = true) : r.hasInstance i = true := by
  have h := Dev.accepts_of_acceptsNum h
  simp only [Dev.accepts, Bool.and_eq_true] at h
  exact h.1.1.1.1.1.1.2

theorem Dev.goodValue_of_acceptsNum (h : d.acceptsNum n m r i v = true) :
    (d.asked n m).badValue n r i v (toBytes r.size v) = false := by
  have h' := Dev.accepts_of_acceptsNum h
  simp only [Dev.accepts, Bool.and_eq_true, Bool.not_eq_true'] at h'
  rw [Dev.ofBytes_of_acceptsNum h] at h'
  exact h'.1.2

end

/-- A number that a register has lies within the register's range. -/
theorem Reg.lt_of_hasInstance {r : Reg} {i : Nat} (h : r.hasInstance i = true) : i < r.row.first + r.row.count := by
  simp only [Reg.hasInstance, Bool.and_eq_true, decide_eq_true_eq] at h
  exact h.1.2

/-- A flag keeps a value below 2. -/
theorem Dev.stored_flag (d : Dev) {r : Reg} {i v : Nat} (h : d.stored r i v = if r.row.ty = .bool then v % 2 else v)
    (hv : v < 2) : d.stored r i v = v := by
  rw [h, Nat.mod_eq_of_lt hv, ite_self]

section
variable {c : Instr} {s : State} {n : Nat} {m : Master} {r : Reg} {i v : Nat} {p : Dev → Dev → Prop}

/-- A command that is an accepted write of a number is answered, and what the write's action brings about holds afterwards,
where the write makes no durable record of its own. -/
theorem Answered.of_action (act : Dev → Dev) (hc : exec c s = byMaster n m (writeNum r i v) s)
    (h : s.dev.acceptsNum (max s.now n) m r i v = true) (hl : r ≠ .leaseReg) (hr : r ≠ .roleCmd)
    (hs : ∀ d : Dev, d.stored r i v = v) (hm : (r.row.flags.mirrored && !mirroredAside r) = false)
    (ha : ∀ d : Dev, d.applyReg (max s.now n) m r i v (toBytes r.size v) = act d)
    (hq : (act (s.dev.asked (max s.now n) m)).chip = (s.dev.asked (max s.now n) m).chip)
    (hp : p (s.dev.asked (max s.now n) m) (act (s.dev.asked (max s.now n) m)))
    (he : ∀ a e, p a e → p a (e.emit (.response m ⟨0, []⟩))) : Answered c s n m p := by
  have hw : (s.dev.asked (max s.now n) m).writeReg (max s.now n) m r i (toBytes r.size v) =
      act (s.dev.asked (max s.now n) m) := by
    unfold Dev.writeReg
    rw [Dev.ofBytes_of_acceptsNum h, hs, hm, ha]
    exact if_neg Bool.false_ne_true
  refine Answered.of_acceptsNum hc h hl (fun x => hr x.1) ?_ (hw ▸ he _ _ hp)
  rw [hw, hq]
  exact Dev.pendingReset_of_accepts (Dev.accepts_of_acceptsNum h)

/-- The same of a write with or without a durable record, for what no durable record undoes. -/
theorem Answered.of_durable_action (act : Dev → Dev) (hc : exec c s = byMaster n m (writeNum r i v) s)
    (h : s.dev.acceptsNum (max s.now n) m r i v = true) (hl : r ≠ .leaseReg) (hr : r ≠ .roleCmd)
    (hs : ∀ d : Dev, d.stored r i v = v)
    (ha : ∀ d : Dev, d.applyReg (max s.now n) m r i v (toBytes r.size v) = act d)
    (hq : (act (s.dev.asked (max s.now n) m)).chip = (s.dev.asked (max s.now n) m).chip)
    (hp : p (s.dev.asked (max s.now n) m) (act (s.dev.asked (max s.now n) m)))
    (hd : ∀ a e f, p a e → p a (e.durable (max s.now n) f))
    (he : ∀ a e, p a e → p a (e.emit (.response m ⟨0, []⟩))) : Answered c s n m p := by
  have hw := (s.dev.asked (max s.now n) m).writeReg_of_applyReg (n := max s.now n) (m := m) (r := r) (i := i)
    (data := toBytes r.size v)
    (p := fun e => e.chip = (s.dev.asked (max s.now n) m).chip ∧ p (s.dev.asked (max s.now n) m) e)
    (by rw [Dev.ofBytes_of_acceptsNum h, hs, ha]; exact ⟨hq, hp⟩)
    fun e f he => ⟨(e.durable_chip _ f).trans he.1, hd _ e f he.2⟩
  refine Answered.of_acceptsNum hc h hl (fun x => hr x.1) ?_ (he _ _ hw.2)
  rw [hw.1]
  exact Dev.pendingReset_of_accepts (Dev.accepts_of_acceptsNum h)

end

/-- What holds of the device after an answered command may be weakened. -/
theorem Answered.imp {c : Instr} {s : State} {n : Nat} {m : Master} {p q : Dev → Dev → Prop} (h : Answered c s n m p)
    (hpq : ∀ a e, p a e → q a e) : Answered c s n m q := by
  obtain ⟨t, ht, hn, hw, hr, hp⟩ := h
  exact ⟨t, ht, hn, hw, hr, hpq _ _ hp⟩

/-! ### Steps over the members of a list -/

/-- What every step keeps true is true after all of them. -/
theorem Dev.each_holds {α : Type} {I : Dev → Prop} {l : List α} {f : Dev → α → Dev} {d : Dev} (h : I d)
    (hs : ∀ d, I d → ∀ x ∈ l, I (f d x)) : I (d.each l f) := by
  induction l generalizing d with
  | nil => exact h
  | cons x l ih =>
    exact ih (hs d h x List.mem_cons_self) fun d hd y hy => hs d hd y (List.mem_cons_of_mem _ hy)

/-- A member of a list without repetition is worked on once: what no other member's step changes is, before that step, as it was
at first, and at last as that step leaves it. -/
theorem Dev.each_at_of {α β : Type} (I : Dev → Prop) (p : Dev → β) {l : List α} {f : Dev → α → Dev} {d : Dev}
    (hd : I d) (hl : l.Nodup) {x : α} (hx : x ∈ l) (hI : ∀ d, I d → ∀ y ∈ l, I (f d y))
    (hf : ∀ d, I d → ∀ y ∈ l, y ≠ x → p (f d y) = p d) :
    ∃ a, I a ∧ p a = p d ∧ p (d.each l f) = p (f a x) := by
  induction l generalizing d with
  | nil => cases hx
  | cons y l ih =>
    obtain ⟨hy, hl⟩ := List.nodup_cons.1 hl
    have rest : ∀ z ∈ l, z ∈ y :: l := fun z hz => List.mem_cons_of_mem _ hz
    have hI' := hI d hd y List.mem_cons_self
    rw [Dev.each_cons]
    by_cases h : y = x
    · subst h
      exact ⟨d, hd, rfl, (Dev.each_holds (I := fun e => I e ∧ p e = p (f d y)) ⟨hI', rfl⟩ fun e he z hz =>
        ⟨hI e he.1 z (rest z hz), (hf e he.1 z (rest z hz) fun e => hy (e ▸ hz)).trans he.2⟩).2⟩
    · obtain ⟨a, ha, hp, hb⟩ := ih hI' hl ((List.mem_cons.1 hx).resolve_left (Ne.symm h))
        (fun d hd z hz => hI d hd z (rest z hz)) fun d hd z hz => hf d hd z (rest z hz)
      exact ⟨a, ha, hp.trans (hf d hd y List.mem_cons_self h), hb⟩

/-- The same of steps that need no condition on the device. -/
theorem Dev.each_at {α β : Type} (p : Dev → β) {l : List α} {f : Dev → α → Dev} (d : Dev) (hl : l.Nodup) {x : α}
    (hx : x ∈ l) (hf : ∀ d, ∀ y ∈ l, y ≠ x → p (f d y) = p d) : ∃ a, p a = p d ∧ p (d.each l f) = p (f a x) := by
  obtain ⟨a, -, ha, hb⟩ := Dev.each_at_of (fun _ => True) p trivial hl hx (fun _ _ _ _ => trivial) fun d _ => hf d
  exact ⟨a, ha, hb⟩

/-! ### Long operations -/

@[simp] theorem Dev.durable_quad (d : Dev) (n : Nat) (f : Nat → MirrorRecord) (q : Nat) :
    (d.durable n f).quad q = d.quad q := by
  simp [Dev.quad]

variable (d : Dev)

/-- The device with `o` as the running long operation. -/
def Dev.withOp (d : Dev) (o : LongOp) : Dev := { d with mgmt := { d.mgmt with longOp := some o } }

theorem Dev.startOp_of_idle (h : d.mgmt.longOp = none) (n code arg : Nat) :
    d.startOp n code arg = (d.withOp ⟨code, n, longOpMax code, arg⟩).opStarts ⟨code, n, longOpMax code, arg⟩ :=
  if_pos (by rw [h]; rfl)

/-- A bulk load, an audit and a calibration do nothing more at their start. -/
theorem Dev.opStarts_plain {o : LongOp} (h : o.code ∉ [1, 3, 4]) : d.opStarts o = d := by
  simp only [List.mem_cons, List.not_mem_nil, or_false, not_or] at h
  unfold Dev.opStarts
  split
  · next hc => exact absurd hc h.1
  · next hc => exact absurd hc h.2.1
  · next hc => exact absurd hc h.2.2
  · rfl

/-- A bulk load, an audit and a calibration start. -/
theorem Dev.startOp_plain (h : d.mgmt.longOp = none) (n arg : Nat) {code : Nat} (hc : code ∉ [1, 3, 4]) :
    d.startOp n code arg = d.withOp ⟨code, n, longOpMax code, arg⟩ :=
  (d.startOp_of_idle h n code arg).trans (Dev.opStarts_plain _ hc)

theorem Dev.settleCommit_regs (n : Nat) : (d.settleCommit n).regs = d.regs := by
  unfold Dev.settleCommit
  split <;> rfl

theorem Dev.settleCommit_longOp (n : Nat) : (d.settleCommit n).mgmt.longOp = d.mgmt.longOp := by
  unfold Dev.settleCommit
  split <;> rfl

theorem Dev.settleCommit_chip (n : Nat) : (d.settleCommit n).chip = d.chip := by
  unfold Dev.settleCommit
  split <;> rfl

theorem allTrees_filter_two_pow {t : Nat} (h : t < 32) : (allTrees.filter fun x => bitAt (2 ^ t) x) = [t] := by
  have all : ∀ t < 32, (allTrees.filter fun x => bitAt (2 ^ t) x) = [t] := by decide +kernel
  exact all t h

theorem Dev.beginRestarts_two_pow {t : Nat} (h : t < 32) :
    d.beginRestarts (2 ^ t) = d.modTree t fun x => { x with restarting := true } := by
  rw [Dev.beginRestarts, allTrees_filter_two_pow h, Dev.each_cons, Dev.each_nil]

theorem Reg.modulus_quadProfile : Reg.modulus .quadProfile = 256 := by decide +kernel
theorem Reg.modulus_profileState : Reg.modulus .profileState = 256 := by decide +kernel

/-- A profile change begins. -/
structure Dev.ProfileBegun (d e : Dev) (q v : Nat) : Prop where
  profile : e.rd .quadProfile q = v
  state : e.rd .profileState q = 1
  quad : e.quad q = { d.quad q with change := 1, formerProfile := d.rd .quadProfile q }
  regs : ∀ r i, (r, i) ∉ [(.quadProfile, q), (.profileState, q)] → e.rd r i = d.rd r i

theorem Dev.beginProfile_begun {q v : Nat} (hv : v < 256) : d.ProfileBegun (d.beginProfile q v) q v where
  profile := by
    simp [Dev.beginProfile, Dev.rd_wr, Reg.modulus_quadProfile, Nat.mod_eq_of_lt hv]
  state := by simp [Dev.beginProfile, Reg.modulus_profileState]
  quad := by simp [Dev.beginProfile, Dev.quad_modQuad]
  regs r i h := by
    simp only [List.mem_cons, Prod.mk.injEq, List.not_mem_nil, or_false, not_or] at h
    simp [Dev.beginProfile, Dev.rd_wr, h]

/-! ### Calibration -/

/-- CALIBRATE at one lane. -/
def Dev.calibrateLane (d : Dev) (n l : Nat) : Dev :=
  let d := d.modLane l fun x => { x with calibrating := true }
  if d.rd .laneState l = 5 then d else d.setStage n 0 l

theorem Dev.applyCalibrate_eq (n : Nat) :
    d.applyCalibrate n = (d.startOp n 6 0).each (List.range 20) fun d l => d.calibrateLane n l := rfl

theorem Dev.calibrateLane_other (n : Nat) {l k : Nat} (h : k ≠ l) :
    (d.calibrateLane n k).lane l = d.lane l ∧ (d.calibrateLane n k).rd .laneState l = d.rd .laneState l := by
  unfold Dev.calibrateLane Dev.setStage
  dsimp only
  split <;> simp [Dev.lane_modLane, Dev.rd_wr, h.symm]

theorem Dev.calibrateLane_same (n l : Nat) : ((d.calibrateLane n l).lane l).calibrating = true ∧
    (d.calibrateLane n l).rd .laneState l = if d.rd .laneState l = 5 then 5 else 0 := by
  unfold Dev.calibrateLane Dev.setStage
  dsimp only
  split
  · next h =>
    have h : d.rd .laneState l = 5 := h
    simp [Dev.lane_modLane, h]
  · next h =>
    have h : d.rd .laneState l ≠ 5 := h
    simp [Dev.lane_modLane, h]

theorem Dev.calibrateLane_rd (n l i : Nat) {r : Reg} (h : r ≠ .laneState) : (d.calibrateLane n l).rd r i = d.rd r i := by
  unfold Dev.calibrateLane Dev.setStage
  dsimp only
  split <;> simp [Dev.rd_wr, h]

theorem Dev.calibrateLane_mgmt (n l : Nat) : (d.calibrateLane n l).mgmt = d.mgmt := by
  unfold Dev.calibrateLane Dev.setStage
  dsimp only
  split <;> rfl

theorem Dev.calibrateLane_chip (n l : Nat) : (d.calibrateLane n l).chip = d.chip := by
  unfold Dev.calibrateLane Dev.setStage
  dsimp only
  split <;> rfl

/-- Every lane takes part in a calibration. -/
structure Dev.LanesCalibrate (d e : Dev) : Prop where
  mgmt : e.mgmt = d.mgmt
  chip : e.chip = d.chip
  lanes : ∀ l < 20, (e.lane l).calibrating = true ∧ e.rd .laneState l = if d.rd .laneState l = 5 then 5 else 0
  regs : d.rdKept e [.laneState]

theorem Dev.each_calibrateLane (n : Nat) :
    d.LanesCalibrate (d.each (List.range 20) fun d l => d.calibrateLane n l) where
  mgmt := d.each_keeps Dev.mgmt fun d l _ => d.calibrateLane_mgmt n l
  chip := d.each_keeps Dev.chip fun d l _ => d.calibrateLane_chip n l
  lanes l hl := by
    obtain ⟨a, ha, hb⟩ := d.each_at (fun d => (d.lane l, d.rd .laneState l)) (f := fun d l => d.calibrateLane n l)
      List.nodup_range (List.mem_range.2 hl) fun d k _ hk => Prod.ext_iff.2 (d.calibrateLane_other n hk)
    simp only [Prod.mk.injEq] at ha hb
    rw [hb.1, hb.2, ← ha.2]
    exact a.calibrateLane_same n l
  regs r i hr := d.each_keeps (Dev.rd · r i) fun d l _ => d.calibrateLane_rd n l i fun e => hr (e ▸ List.mem_cons_self)

theorem Dev.applyCalibrate_calibrates (n : Nat) (h : d.mgmt.longOp = none) :
    (d.withOp ⟨6, n, msTicks 1200, 0⟩).LanesCalibrate (d.applyCalibrate n) := by
  rw [Dev.applyCalibrate_eq, Dev.startOp_plain d h n 0 (by decide)]
  exact Dev.each_calibrateLane _ n

/-! ### The writes -/

/-- The action of a write of 1 that starts an operation. -/
theorem Dev.startCommit (h : d.mgmt.longOp = none) (n : Nat) :
    (d.startOp n 1 0).mgmt.longOp = some ⟨1, n, msTicks 4, 0⟩ ∧ (d.startOp n 1 0).regs = d.regs ∧
    (d.startOp n 1 0).chip = d.chip := by
  rw [Dev.startOp_of_idle d h]
  exact ⟨Dev.settleCommit_longOp _ _, Dev.settleCommit_regs _ _, Dev.settleCommit_chip _ _⟩

theorem Dev.startRestart (h : d.mgmt.longOp = none) (n : Nat) {t : Nat} (ht : t < 32) :
    d.startOp n 3 (2 ^ t) =
      (d.withOp ⟨3, n, msTicks 10, 2 ^ t⟩).modTree t fun x => { x with restarting := true } :=
  (d.startOp_of_idle h n 3 (2 ^ t)).trans (Dev.beginRestarts_two_pow _ ht)

theorem Dev.startProfile (h : d.mgmt.longOp = none) (n : Nat) {q : Nat} (v : Nat) (hq : q < 8) :
    d.startOp n 4 (8 * v + q) = (d.withOp ⟨4, n, msTicks 40, 8 * v + q⟩).beginProfile q v := by
  have hm : (8 * v + q) % 8 = q := by omega
  have hd : (8 * v + q) / 8 = v := by omega
  refine (d.startOp_of_idle h n 4 (8 * v + q)).trans ?_
  change Dev.beginProfile _ ((8 * v + q) % 8) ((8 * v + q) / 8) = _
  rw [hm, hd]
  rfl

/-- An operation that does nothing more at its start runs, and no register changes but the count of durable records. -/
theorem Answered.of_plainOp {c : Instr} {s : State} {n : Nat} {m : Master} {r : Reg} {code : Nat}
    (hc : exec c s = byMaster n m (start r 0) s) (h : s.dev.acceptsNum (max s.now n) m r 0 1 = true) (hl : r ≠ .leaseReg)
    (hr : r ≠ .roleCmd) (hs : ∀ d : Dev, d.stored r 0 1 = 1) (hcode : code ∉ [1, 3, 4])
    (ha : ∀ d : Dev, d.applyReg (max s.now n) m r 0 1 (toBytes r.size 1) = d.startOp (max s.now n) code 0) :
    Answered c s n m fun a e =>
      e.mgmt.longOp = some ⟨code, max s.now n, longOpMax code, 0⟩ ∧ ∀ r i, r ≠ .dseqSent → e.rd r i = a.rd r i := by
  have hw := (s.dev.asked (max s.now n) m).startOp_plain (Dev.idle_of_acceptsNum h) (max s.now n) 0 hcode
  refine Answered.of_durable_action (Dev.startOp · (max s.now n) code 0) hc h hl hr hs ha
    (by rw [hw]; rfl) (by rw [hw]; exact ⟨rfl, fun _ _ _ => rfl⟩)
    (fun a e f he => ?_) fun _ _ he => he
  exact ⟨by rw [Dev.durable_mgmt]; exact he.1, fun r i hr => (e.durable_rd _ f i hr).trans (he.2 r i hr)⟩

section
variable {s : State} {n : Nat} {m : Master}

theorem commit_answered (h : s.dev.acceptsNum (max s.now n) m .commitGo 0 1 = true) :
    Answered (.commit n m) s n m fun a e =>
      e.mgmt.longOp = some ⟨1, max s.now n, msTicks 4, 0⟩ ∧ e.regs = a.regs := by
  obtain ⟨op, regs, chip⟩ := Dev.startCommit _ (Dev.idle_of_acceptsNum h) (max s.now n)
  exact Answered.of_action (Dev.startOp · (max s.now n) 1 0) rfl h nofun nofun (fun d => d.stored_flag rfl (by decide))
    (by decide +kernel) (fun _ => rfl) chip ⟨op, regs⟩ fun _ _ he => he

theorem calibrate_answered (h : s.dev.acceptsNum (max s.now n) m .calibrate 0 1 = true) :
    Answered (.calibrate n m) s n m fun a e => (a.withOp ⟨6, max s.now n, msTicks 1200, 0⟩).LanesCalibrate e := by
  have calibrates := Dev.applyCalibrate_calibrates _ (max s.now n) (Dev.idle_of_acceptsNum h)
  exact Answered.of_action (Dev.applyCalibrate · (max s.now n)) rfl h nofun nofun
    (fun d => d.stored_flag rfl (by decide)) (by decide +kernel) (fun _ => rfl) calibrates.chip calibrates
    fun _ _ he => ⟨he.mgmt, he.chip, he.lanes, he.regs⟩

theorem treeRestart_answered {t : Nat} (h : s.dev.acceptsNum (max s.now n) m .treeRestart t 1 = true) :
    Answered (.treeRestart n m t) s n m fun a e =>
      e.mgmt.longOp = some ⟨3, max s.now n, msTicks 10, 2 ^ t⟩ ∧ (e.tree t).restarting = true ∧
      (∀ x, x ≠ t → e.tree x = a.tree x) ∧ e.regs = a.regs := by
  have ht : t < 32 := Reg.lt_of_hasInstance (Dev.hasInstance_of_acceptsNum h)
  have hw := Dev.startRestart _ (Dev.idle_of_acceptsNum h) (max s.now n) ht
  refine Answered.of_action (Dev.startOp · (max s.now n) 3 (2 ^ t)) rfl h nofun nofun
    (fun d => d.stored_flag rfl (by decide)) (by decide +kernel) (fun _ => rfl) ?_ ?_ fun _ _ he => he
  all_goals rw [hw]
  · rfl
  · refine ⟨rfl, ?_, fun x hx => (Dev.tree_modTree _ _ _ _).trans (if_neg hx), rfl⟩
    rw [Dev.tree_modTree, if_pos rfl]

theorem stored_quadProfile (d : Dev) (q v : Nat) : d.stored .quadProfile q v = v := by
  change (if (Reg.row .quadProfile).ty = .bool then v % 2 else v) = v
  exact if_neg (by decide +kernel)

theorem profile_le_of_accepts {q v : Nat} (h : s.dev.acceptsNum (max s.now n) m .quadProfile q v = true) : v ≤ 3 := by
  have good := Dev.goodValue_of_acceptsNum h
  change (!Chk.allows (.range 0 3) (if (Reg.row .quadProfile).ty = .bool then v % 2 else v)) = false at good
  rw [if_neg (by decide +kernel)] at good
  simpa [Chk.allows] using good

/-- A write of a new profile starts the change, and its durable record counts in DSEQ_SENT alone. -/
theorem Dev.setProfile_begun (d : Dev) (n : Nat) {q v : Nat} (h : d.mgmt.longOp = none) (hq : q < 8)
    (hv : d.rd .quadProfile q ≠ v) :
    ∃ f, d.setProfile n q v = ((d.withOp ⟨4, n, msTicks 40, 8 * v + q⟩).beginProfile q v).durable n f :=
  ⟨_, (if_neg hv).trans (by rw [Dev.startProfile d h n v hq])⟩

theorem profileWrite_answered {q v : Nat} (h : s.dev.acceptsNum (max s.now n) m .quadProfile q v = true)
    (hv : (s.dev.asked (max s.now n) m).rd .quadProfile q ≠ v) :
    Answered (.profileWrite n m q v) s n m fun a e =>
      e.mgmt.longOp = some ⟨4, max s.now n, msTicks 40, 8 * v + q⟩ ∧ e.rd .quadProfile q = v ∧
      e.rd .profileState q = 1 ∧ (e.quad q).change = 1 ∧ (e.quad q).formerProfile = a.rd .quadProfile q ∧
      ∀ r i, r ≠ .dseqSent → (r, i) ∉ [(.quadProfile, q), (.profileState, q)] → e.rd r i = a.rd r i := by
  have hq : q < 8 := Reg.lt_of_hasInstance (Dev.hasInstance_of_acceptsNum h)
  have hv3 := profile_le_of_accepts h
  obtain ⟨f, hw⟩ := Dev.setProfile_begun _ (max s.now n) (Dev.idle_of_acceptsNum h) hq hv
  have begun := Dev.beginProfile_begun ((s.dev.asked (max s.now n) m).withOp ⟨4, max s.now n, msTicks 40, 8 * v + q⟩)
    (q := q) (v := v) (by omega)
  refine Answered.of_action (Dev.setProfile · (max s.now n) q v) rfl h nofun nofun (fun d => stored_quadProfile d q v)
    (by decide +kernel) (fun _ => rfl) ?_ ?_ fun _ _ he => he
  all_goals rw [hw]
  · exact Dev.durable_chip _ _ _
  · rw [Dev.durable_mgmt, Dev.durable_rd _ _ _ _ (by decide), Dev.durable_rd _ _ _ _ (by decide), Dev.durable_quad,
      begun.quad]
    exact ⟨rfl, begun.profile, begun.state, rfl, rfl, fun r i hr hl => (Dev.durable_rd _ _ _ _ hr).trans (begun.regs r i hl)⟩

theorem profileWrite_same {q v : Nat} (h : s.dev.acceptsNum (max s.now n) m .quadProfile q v = true)
    (hv : (s.dev.asked (max s.now n) m).rd .quadProfile q = v) :
    Answered (.profileWrite n m q v) s n m fun a e => e.mgmt.longOp = none ∧ e.regs = a.regs ∧ e.quads = a.quads := by
  have kept : (s.dev.asked (max s.now n) m).setProfile (max s.now n) q v = s.dev.asked (max s.now n) m := if_pos hv
  refine Answered.of_action (Dev.setProfile · (max s.now n) q v) rfl h nofun nofun (fun d => stored_quadProfile d q v)
    (by decide +kernel) (fun _ => rfl) (congrArg Dev.chip kept) ?_ fun _ _ he => he
  rw [kept]
  exact ⟨Dev.idle_of_acceptsNum h, rfl, rfl⟩

end

/-- Settles O23: each write starts its operation on an idle dictionary. -/
theorem longOperationsStart : Obligations.LongOperationsStart := by
  unfold Obligations.LongOperationsStart
  refine fun s n m => ⟨fun q v => profileWrite_answered, fun q v => profileWrite_same, fun h => ?_, commit_answered,
    fun h => ?_, fun h => ?_, fun t h => ?_⟩
  · exact Answered.of_plainOp (code := 2) rfl h nofun nofun (fun d => d.stored_flag rfl (by decide)) (by decide)
      fun _ => rfl
  · exact Answered.of_plainOp (code := 5) rfl h nofun nofun (fun d => d.stored_flag rfl (by decide)) (by decide)
      fun _ => rfl
  · exact (calibrate_answered h).imp fun a e calibrates => ⟨congrArg Mgmt.longOp calibrates.mgmt, calibrates.lanes,
      fun r i _ hr => calibrates.regs r i (by simpa using hr)⟩
  · exact (treeRestart_answered h).imp fun a e ⟨op, restarts, others, regs⟩ =>
      ⟨op, restarts, others, fun r i _ => congrArg (Tab.get (r.dflt i) · (regKey r i)) regs⟩

end Sys2Proof.Machine
end

section
/-!
PROOFS. Reset pulses before bursts (R45), bursts that are missed and responses that collide (R46, R47, R53).
-/
namespace Sys2Proof.Machine
open Sys2Proof

variable (d : Dev)

/-! ### Pulses -/

/-- A pulse leaves the lead before its tick. -/
theorem Dev.pulse_lead {t at_ : Nat} (h : d.rd .rxrstWidth t ≤ d.rd .rxrstLead t) :
    (d.pulse t at_).wire = d.wire ++ [.rxrst t (at_ - d.rd .rxrstLead t) (d.rd .rxrstWidth t)] ∧
    (d.pulse t at_).regs = d.regs := by
  unfold Dev.pulse
  dsimp only
  rw [if_pos h]
  exact ⟨rfl, rfl⟩

/-- A lead below the width leaves the start open. -/
theorem Dev.pulse_open {t at_ : Nat} (h : d.rd .rxrstLead t < d.rd .rxrstWidth t) :
    (d.pulse t at_).wire = d.wire ++ [.rxrst t (Config.freeValue d.free) (d.rd .rxrstWidth t)] ∧
    (d.pulse t at_).regs = d.regs := by
  unfold Dev.pulse
  dsimp only
  rw [if_neg (Nat.not_le.2 h)]
  exact ⟨rfl, rfl⟩

variable {s : State} {n t : Nat} {b : BurstRef} {x : MapBurst}

theorem rxrstPulse_lead (ht : t < 32) (hb : s.dev.burstOf t b = some x) (hp : x.pulsed = false)
    (hr : s.dev.receives t = true) (h : s.dev.rd .rxrstWidth t ≤ s.dev.rd .rxrstLead t) :
    Completes (.rxrstPulse n t b) s n fun e =>
      e.wire = s.dev.wire ++ [.rxrst t (s.dev.pulseTick t b x - s.dev.rd .rxrstLead t) (s.dev.rd .rxrstWidth t)] ∧
      e.regs = s.dev.regs := by
  refine completes_onElement rfl ht ?_
  simp only [hb, hp, hr, Bool.not_true, Bool.or_self, Bool.false_eq_true, if_false]
  exact Dev.pulse_lead (s.dev.modBurst t b fun y => { y with pulsed := true }) h

theorem rxrstPulse_open (ht : t < 32) (hb : s.dev.burstOf t b = some x) (hp : x.pulsed = false)
    (hr : s.dev.receives t = true) (h : s.dev.rd .rxrstLead t < s.dev.rd .rxrstWidth t) :
    Completes (.rxrstPulse n t b) s n fun e =>
      e.wire = s.dev.wire ++ [.rxrst t (Config.freeValue s.dev.free) (s.dev.rd .rxrstWidth t)] ∧
      e.regs = s.dev.regs := by
  refine completes_onElement rfl ht ?_
  simp only [hb, hp, hr, Bool.not_true, Bool.or_self, Bool.false_eq_true, if_false]
  exact Dev.pulse_open (s.dev.modBurst t b fun y => { y with pulsed := true }) h

theorem rxrstPulse_none (ht : t < 32) (hb : s.dev.burstOf t b = some x) (h : x.pulsed = true ∨ s.dev.receives t = false) :
    Completes (.rxrstPulse n t b) s n fun e => e = s.dev := by
  refine completes_onElement rfl ht ?_
  rw [← Bool.not_eq_true', ← Bool.or_eq_true] at h
  simp only [hb, h, if_true]

/-! ### The bursts of a map -/

/-- A burst changed reads as changed. -/
theorem Dev.burstOf_modBurst (t : Nat) (b : BurstRef) (f : MapBurst → MapBurst) :
    (d.modBurst t b f).burstOf t b = (d.burstOf t b).map f := by
  have found : (d.modBurst t b f).mapOf t b =
      (d.mapOf t b).map fun m => { m with bursts := m.bursts.modify b.pos f } := by
    unfold Dev.mapOf Dev.modBurst
    rw [Dev.tree_modTree, if_pos rfl]
    dsimp only
    generalize (d.tree t).maps = l
    induction l with
    | nil => rfl
    | cons m l ih =>
      by_cases h : m.sfc = b.sfc ∧ m.point = b.point
      · simp [h]
      · have h' : (m.sfc == b.sfc && m.point == b.point) = false := by simpa using h
        rw [List.map_cons, if_neg h, List.find?_cons_of_neg (by simp [h']), List.find?_cons_of_neg (by simp [h'])]
        exact ih
  unfold Dev.burstOf
  rw [found]
  cases d.mapOf t b with
  | none => rfl
  | some m => exact List.getElem?_modify_eq f b.pos m.bursts

theorem Dev.burstOf_of_maps {d e : Dev} {t : Nat} (h : (e.tree t).maps = (d.tree t).maps) (b : BurstRef) :
    e.burstOf t b = d.burstOf t b := by
  unfold Dev.burstOf Dev.mapOf
  rw [h]

/-! ### What judging a missed burst leaves alone -/

/-- What has left the device, the maps of a tree, and the counts of missed bursts. -/
def Dev.burstView (d : Dev) (t : Nat) : List Emission × List Map × (Nat → Nat) :=
  (d.wire, (d.tree t).maps, d.rd .burstsMissed)

variable (t : Nat)

variable {d} in
theorem Dev.burstView_of_ciphers {e : Dev} (h : d.Ciphers e) : e.burstView t = d.burstView t := by
  have wire : e.wire = d.wire := by
    change e.butCiphers.wire = d.butCiphers.wire
    rw [h.rest]
  have missed : e.rd .burstsMissed = d.rd .burstsMissed := funext fun i => h.regs .burstsMissed i (by decide)
  rw [Dev.burstView, h.tree t, wire, missed]
  rfl

theorem Dev.burstView_wr {r : Reg} (i v : Nat) (h : r ≠ .burstsMissed) : (d.wr r i v).burstView t = d.burstView t := by
  have missed : (d.wr r i v).rd .burstsMissed = d.rd .burstsMissed := funext fun j => Dev.rd_wr_other _ _ _ _ h.symm
  rw [Dev.burstView, missed]
  rfl

theorem Dev.burstView_modTree (u : Nat) {f : Tree → Tree} (h : ∀ y, (f y).maps = y.maps) :
    (d.modTree u f).burstView t = d.burstView t := by
  have maps : ((d.modTree u f).tree t).maps = (d.tree t).maps := by
    rw [Dev.tree_modTree]
    split
    · next e => rw [h, e]
    · rfl
  rw [Dev.burstView, maps]
  rfl

theorem Dev.burstView_raiseLevel (n : Nat) (o : Occurrence) : (d.raiseLevel n o).burstView t = d.burstView t := by
  have rest := d.raiseLevel_butFaults n o
  have missed : (d.raiseLevel n o).rd .burstsMissed = d.rd .burstsMissed :=
    funext fun i => d.raiseLevel_rd n o i (by decide)
  have wire : (d.raiseLevel n o).wire = d.wire := by
    change (d.raiseLevel n o).butFaults.wire = d.butFaults.wire
    rw [rest]
  rw [Dev.burstView, Dev.tree_of_butFaults rest, wire, missed]
  rfl

/-- A defect that is declared already at most raises its source. -/
theorem Dev.setTreeDefect_declared {u k : Nat} (n : Nat) (h : bitAt (d.rd .treeDefects u) k = true) :
    d.setTreeDefect n u k true = d.raiseLevel n { source := 8 * u + k } := if_pos h

theorem Tree.closeJudged_maps (y : Tree) : y.closeJudged.maps = y.maps := by
  unfold Tree.closeJudged
  split <;> rfl

/-- Judging a burst declares no defect anew. -/
theorem Dev.burstView_judgeTree (n u sfc : Nat) (locked framed : Bool) :
    (d.judgeTree n u sfc locked framed).burstView t = d.burstView t := by
  have closed : ∀ d : Dev, (d.closeFrame n u).burstView t = d.burstView t := fun d => by
    unfold Dev.closeFrame
    split
    · split
      · exact d.burstView_modTree t u Tree.closeJudged_maps
      · rfl
    · rfl
  have raised : ∀ (d : Dev) (k : Nat) (c : Bool), (c = true → bitAt (d.rd .treeDefects u) k = true) →
      (d.when c fun d => d.setTreeDefect n u k true).burstView t = d.burstView t ∧
      (d.when c fun d => d.setTreeDefect n u k true).rd .treeDefects u = d.rd .treeDefects u := fun d k c hc => by
    cases c with
    | false => exact ⟨rfl, rfl⟩
    | true =>
      rw [Dev.when_true, Dev.setTreeDefect_declared d n (hc rfl)]
      exact ⟨d.burstView_raiseLevel t n _, d.raiseLevel_rd n _ u (by decide)⟩
  have declared : ∀ {b seen : Bool}, (!seen && b) = true → b = true := fun h => (Bool.and_eq_true_iff.1 h).2
  unfold Dev.judgeTree
  dsimp only
  generalize hm : d.modTree u _ = m
  have timed : m.burstView t = d.burstView t := by
    rw [← hm]
    refine d.burstView_modTree t u fun y => ?_
    dsimp only
    split
    · split
      · rfl
      · exact y.closeJudged_maps
    · rfl
  obtain ⟨los, defects⟩ := raised m 0 (!locked && bitAt (m.rd .treeDefects u) 0) declared
  obtain ⟨lof, -⟩ := raised (m.when (!locked && bitAt (m.rd .treeDefects u) 0) fun d => d.setTreeDefect n u 0 true) 1
    (!framed && bitAt (m.rd .treeDefects u) 1) fun h => by
      rw [defects]
      exact declared h
  rw [closed, lof, los, timed]

theorem Dev.burstView_judgeTerm (u g : Nat) (o : BurstOutcome) (rdi : Bool) :
    (d.judgeTerm u g o rdi).burstView t = d.burstView t := by
  unfold Dev.judgeTerm
  dsimp only
  split <;> rfl

theorem Dev.burstView_judgeBurst (n u : Nat) (b : BurstRef) (x : MapBurst) (o : BurstObs) (r : BurstOutcome) :
    (d.judgeBurst n u b x o r).burstView t = d.burstView t := by
  unfold Dev.judgeBurst
  split
  · rfl
  · rw [Dev.burstView_judgeTerm, Dev.burstView_judgeTree]

/-- Reports that are missed count in REPORTS_MISSED. -/
theorem Dev.burstView_takeReports_nil (u : Nat) (b : BurstRef) (x : MapBurst) :
    (d.takeReports u b x []).burstView t = d.burstView t :=
  d.each_keeps (Dev.burstView · t) fun d g _ => d.burstView_wr (r := .reportsMissed) t _ _ (by decide)

/-! ### A data burst that is missed -/

theorem Reg.modulus_burstsMissed : Reg.modulus .burstsMissed = 2 ^ 64 := by decide +kernel
theorem Reg.modulus_discCollide : Reg.modulus .discCollide = 2 ^ 64 := by decide +kernel

variable {t} {b : BurstRef} {x : MapBurst} {o : BurstObs}

theorem Dev.outcomeOf_missed (h : o.locked = false) : d.outcomeOf t b x o = .missed := if_pos (by rw [h]; rfl)

/-- The device with burst `b` over, and its miss counted. -/
def Dev.burstMissed (d : Dev) (t : Nat) (b : BurstRef) (x : MapBurst) : Dev :=
  (d.modBurst t b fun y => { y with ended := true }).bump .burstsMissed (t * 512 + x.terminal)

theorem Dev.takeData_missed (n : Nat) (horphan : x.orphan = false) :
    ((d.modBurst t b fun y => { y with ended := true }).takeData n t b x o .missed).burstView t =
      (d.burstMissed t b x).burstView t := by
  unfold Dev.takeData
  rw [horphan, if_neg Bool.false_ne_true, if_neg (by decide), Dev.burstView_takeReports_nil, Dev.burstView_judgeBurst]
  rfl

theorem Dev.stampBurst_not_framed {r : BurstOutcome} (h : r ≠ .framed) : d.stampBurst t b x o r = d :=
  if_neg fun hr => h hr.1

theorem dataBurst_missed {s : State} {n : Nat} (ht : t < 32) (hb : s.dev.burstOf t b = some x)
    (he : x.ended = false) (hr : s.dev.receives t = true) (hk : x.kind = .data) (ho : x.orphan = false)
    (hl : o.locked = false) : Completes (.burstReceive n t b o) s n fun e =>
      e.rd .burstsMissed (t * 512 + x.terminal) = (s.dev.rd .burstsMissed (t * 512 + x.terminal) + 1) % 2 ^ 64 ∧
      (∀ y, e.burstOf t b = some y → y.ended = true) ∧ e.wire = s.dev.wire := by
  refine completes_onElement rfl ht ?_
  simp only [hb, he, hr, hk, s.dev.outcomeOf_missed hl,
    Dev.stampBurst_not_framed _ (show BurstOutcome.missed ≠ .framed by decide),
    Bool.not_true, Bool.or_self, Bool.false_eq_true, if_false, reduceCtorEq, or_self]
  have settled := Dev.burstView_of_ciphers t (Dev.Ciphers.settleBank s.dev (max s.now n) (quadOf t))
  generalize s.dev.settleBank (max s.now n) (quadOf t) = d at settled
  have view := (Dev.burstView_of_ciphers t (Dev.Ciphers.dropKeystream _ (max s.now n) t b)).trans
    (d.takeData_missed (max s.now n) (o := o) (b := b) ho)
  generalize ((d.modBurst t b fun x => { x with ended := true }).takeData (max s.now n) t b x o .missed).dropKeystream
    (max s.now n) t b = e at view
  simp only [Dev.burstView, Prod.mk.injEq] at settled view
  obtain ⟨hwire, hmaps, hmissed⟩ := settled
  obtain ⟨wire, maps, missed⟩ := view
  refine ⟨?_, fun y hy => ?_, wire.trans hwire⟩
  · rw [missed, ← hmissed, ← Reg.modulus_burstsMissed]
    exact Dev.rd_wr_same _ _ _ _
  · have ended : e.burstOf t b = (d.burstOf t b).map fun y => { y with ended := true } :=
      (Dev.burstOf_of_maps maps b).trans (d.burstOf_modBurst t b _)
    rw [hy, Dev.burstOf_of_maps hmaps, hb] at ended
    exact congrArg MapBurst.ended (Option.some.inj ended)

/-! ### A response that collides -/

theorem Dev.outcomeOf_unframed (hl : o.locked = true) (ha : d.arrivalOf t b x o = none) :
    d.outcomeOf t b x o = .unframed := by
  unfold Dev.outcomeOf
  rw [hl, ha]
  rfl

theorem discovery_collides {s : State} {n : Nat} (ht : t < 32) (hu : s.dev.rd .unitRole 0 ≠ 2)
    (hb : s.dev.burstOf t b = some x) (he : x.ended = false) (hr : s.dev.receives t = true) (hk : x.kind = .discovery)
    (hl : o.locked = true) (ha : s.dev.arrivalOf t b x o = none) : Completes (.burstReceive n t b o) s n fun e =>
      e.rd .discCollide t = (s.dev.rd .discCollide t + 1) % 2 ^ 64 ∧
      e.wire = s.dev.wire ++ [.rxrst t (max s.now n) (s.dev.rd .rxrstWidth t)] ∧ s.dev.regsKept e [(.discCollide, t)] := by
  refine completes_onElement rfl ht ?_
  have pulsed : ∀ d : Dev, d.pulseAgain (max s.now n) t o =
      (d.modTree t fun y => { y with rxrst := some (max s.now n, d.rd .rxrstWidth t) }).emit
        (.rxrst t (max s.now n) (d.rd .rxrstWidth t)) := fun d => if_pos hl
  simp only [hb, he, hr, hk, s.dev.outcomeOf_unframed hl ha,
    Dev.stampBurst_not_framed _ (show BurstOutcome.unframed ≠ .framed by decide), pulsed, Dev.emit_rd, Dev.modTree_rd, hu,
    Bool.not_true, Bool.or_self, Bool.false_eq_true, if_false, reduceCtorEq, or_self, Dev.takeDiscovery]
  refine ⟨?_, rfl, fun r i hri => ?_⟩
  · rw [← Reg.modulus_discCollide]
    exact Dev.rd_wr_same _ _ _ _
  · exact (Dev.rd_bump _ _ _ _ _).trans (if_neg fun h => hri (by simp [h.1, h.2]))

/-! ### Bursts that are not received -/

/-- A unit that is not STANDBY looks for no unplaced burst. -/
theorem Dev.unplaced_eq (n t : Nat) (b : BurstRef) (o : BurstObs) (h : d.rd .unitRole 0 ≠ 2) : d.unplaced n t b o = d :=
  if_neg fun hu => h hu.1

theorem burstReceive_unmapped {s : State} {n : Nat} (ht : t < 32) (hu : s.dev.rd .unitRole 0 ≠ 2)
    (hb : s.dev.burstOf t b = none) : Completes (.burstReceive n t b o) s n fun e => e = s.dev := by
  refine completes_onElement rfl ht ?_
  simp only [hb, Dev.unplaced_eq _ _ _ _ _ hu, ite_self]

theorem burstReceive_over {s : State} {n : Nat} (ht : t < 32) (hb : s.dev.burstOf t b = some x)
    (h : x.ended = true ∨ s.dev.receives t = false) : Completes (.burstReceive n t b o) s n fun e => e = s.dev := by
  refine completes_onElement rfl ht ?_
  rw [← Bool.not_eq_true', ← Bool.or_eq_true] at h
  simp only [hb, h, if_true]

/-- Settles O15: one pulse precedes a burst, and a burst's outcome follows from its lock and from the delimiter's search. -/
theorem burstsPulsedAndReceived : Obligations.BurstsPulsedAndReceived := by
  unfold Obligations.BurstsPulsedAndReceived
  exact ⟨fun s n t b x ht hb =>
      ⟨fun hp hr => ⟨rxrstPulse_lead ht hb hp hr, rxrstPulse_open ht hb hp hr⟩, rxrstPulse_none ht hb⟩,
    fun s n t b o ht hu => ⟨burstReceive_unmapped ht hu, fun x hb => ⟨burstReceive_over ht hb, fun he hr =>
      ⟨dataBurst_missed ht hb he hr, discovery_collides ht hu hb he hr⟩⟩⟩⟩

end Sys2Proof.Machine
end

section
/-!
PROOFS. A tree goes dark or lights (R35, R50, R67, R111, R361), and the entries it loads (R79).
-/
namespace Sys2Proof.Machine
open Sys2Proof

variable (d : Dev)

/-! ### A bit set among others -/

theorem two_pow_mul_add_bits (x k : Nat) : 2 ^ k * (2 * (x / 2 ^ k / 2) + x / 2 ^ k % 2) + x % 2 ^ k = x := by
  rw [Nat.div_add_mod (x / 2 ^ k) 2, Nat.div_add_mod]

/-- A number with a bit set: the bits above it, the bit, the bits below it. -/
theorem setBit_eq (x k : Nat) (b : Bool) : setBit x k b = 2 ^ k * (2 * (x / 2 ^ k / 2) + ofBool b) + x % 2 ^ k := by
  have whole := two_pow_mul_add_bits x k
  have hb : bitAt x k = (x / 2 ^ k % 2 == 1) := rfl
  rw [Nat.mul_add] at whole ⊢
  unfold setBit
  rcases Nat.mod_two_eq_zero_or_one (x / 2 ^ k) with h | h <;> rw [h] at whole hb <;> cases b <;>
    simp [hb, ofBool] <;> omega

/-- The other bits read as before. -/
theorem bitAt_setBit_ne {j k : Nat} (x : Nat) (b : Bool) (h : j ≠ k) : bitAt (setBit x k b) j = bitAt x j := by
  have split_at : ∀ c < 2, (2 ^ k * (2 * (x / 2 ^ k / 2) + c) + x % 2 ^ k).testBit j =
      if j < k then (x % 2 ^ k).testBit j else (x / 2 ^ k / 2).testBit (j - k - 1) := fun c hc => by
    rw [Nat.testBit_two_pow_mul_add _ (Nat.mod_lt _ (Nat.two_pow_pos k))]
    split
    · rfl
    · obtain ⟨i, hi⟩ := Nat.exists_eq_succ_of_ne_zero (n := j - k) (by omega)
      rw [hi, Nat.testBit_succ]
      congr 1
      omega
  have hx := split_at (x / 2 ^ k % 2) (Nat.mod_lt _ (by decide))
  rw [two_pow_mul_add_bits] at hx
  rw [bitAt_eq_testBit, bitAt_eq_testBit, setBit_eq, split_at _ (by cases b <;> decide), hx]

theorem Reg.modulus_txdisNow : Reg.modulus .txdisNow = 2 ^ 32 := by decide +kernel

/-- A low bit of a register of 32 bits. -/
theorem bitAt_mod_two_pow {x k : Nat} (h : k < 32) : bitAt (x % 2 ^ 32) k = bitAt x k := by
  rw [bitAt_eq_testBit, bitAt_eq_testBit, Nat.testBit_mod_two_pow]
  simp [h]

/-- The transmit-disable bit of tree `t`. -/
def Dev.txdis (d : Dev) (t : Nat) : Bool := bitAt (d.rd .txdisNow (quadOf t)) (t % 4)

/-- TXDIS_NOW with the bit of tree `t` set. -/
def Dev.setTxdis (d : Dev) (t : Nat) (b : Bool) : Dev :=
  d.wr .txdisNow (quadOf t) (setBit (d.rd .txdisNow (quadOf t)) (t % 4) b)

theorem Dev.txdis_setTxdis (t : Nat) (b : Bool) : (d.setTxdis t b).txdis t = b := by
  rw [Dev.txdis, Dev.setTxdis, Dev.rd_wr_same, Reg.modulus_txdisNow, bitAt_mod_two_pow (by omega), bitAt_setBit]

theorem Dev.txdis_setTxdis_ne {t x : Nat} (b : Bool) (h : x ≠ t) : (d.setTxdis t b).txdis x = d.txdis x := by
  by_cases hq : quadOf x = quadOf t
  · have hx : x % 4 ≠ t % 4 := fun e => h (by unfold quadOf at hq; omega)
    rw [Dev.txdis, Dev.txdis, Dev.setTxdis, hq, Dev.rd_wr_same, Reg.modulus_txdisNow, bitAt_mod_two_pow (by omega),
      bitAt_setBit_ne _ _ hx]
  · rw [Dev.txdis, Dev.setTxdis, Dev.rd_wr_elsewhere _ _ hq]
    rfl

/-! ### A tree goes dark -/

/-- A tree without light. -/
def Tree.darkened (x : Tree) : Tree :=
  { x.keepPloam with
    lit := false, building := none, lockedMap := none, room := 0, payloadBytes := 0,
    rangeWanted := [], windowFrame := none, rogueHist := [], losSet := none, losClr := none, lofSet := none,
    lofClr := none, judged := none, rxrst := none }

/-- No terminal of the tree is in service. -/
def Dev.emptyTree (d : Dev) (t : Nat) : Prop := ∀ g ∈ termsOfTree t, d.rd .termState g = 0

/-- `e` is `d` after a tree without terminals in service has gone dark. -/
structure Dev.Dark (d e : Dev) (t : Nat) : Prop where
  lit : (e.tree t).lit = false
  txdis : e.txdis t = true
  other : ∀ x, x ≠ t → e.tree x = { d.tree x with keystream := (e.tree x).keystream }
  otherTxdis : ∀ x, x ≠ t → e.txdis x = d.txdis x
  regs : d.rdKept e (.txdisNow :: .allocDemand :: .owedBytes :: cipherRegs)
  quads : e.quads = d.quads
  chip : e.chip = d.chip

/-- Work of the banks leaves a dark tree dark. -/
theorem Dev.Dark.of_ciphers {d e f : Dev} {t : Nat} (h : d.Dark e t) (k : e.Ciphers f) : d.Dark f t where
  lit := by
    rw [k.tree t]
    exact h.lit
  txdis := by
    rw [Dev.txdis, k.regs .txdisNow _ (by decide)]
    exact h.txdis
  other x hx := by rw [k.tree x, h.other x hx]
  otherTxdis x hx := by
    rw [Dev.txdis, k.regs .txdisNow _ (by decide)]
    exact h.otherTxdis x hx
  regs r i hr := (k.regs r i fun hc => hr (by simp [hc])).trans (h.regs r i hr)
  quads := (congrArg (·.quads) k.rest).trans h.quads
  chip := k.chip.trans h.chip

/-- The device but for its registers and its allocations. -/
def Dev.butAllocs (d : Dev) : Dev := { d with regs := [], allocs := [] }

@[simp] theorem Dev.butAllocs_tree (x : Nat) : d.butAllocs.tree x = d.tree x := rfl
@[simp] theorem Dev.butAllocs_quads : d.butAllocs.quads = d.quads := rfl
@[simp] theorem Dev.butAllocs_chip : d.butAllocs.chip = d.chip := rfl

theorem Dev.clearAllocs_butAllocs (t : Nat) : (d.clearAllocs t).butAllocs = d.butAllocs := by
  unfold Dev.clearAllocs
  exact d.each_keeps Dev.butAllocs fun d a _ => by split <;> rfl

theorem Dev.clearAllocs_rd (t i : Nat) {r : Reg} (ha : r ≠ .allocDemand) (ho : r ≠ .owedBytes) :
    (d.clearAllocs t).rd r i = d.rd r i := by
  unfold Dev.clearAllocs
  refine d.each_keeps (Dev.rd · r i) fun d a _ => ?_
  split
  · rfl
  · exact (Dev.rd_wr_other _ _ _ _ ho).trans (Dev.rd_wr_other _ _ _ _ ha)

theorem Dev.clearAllocs_tree (t x : Nat) : (d.clearAllocs t).tree x = d.tree x := by
  rw [← Dev.butAllocs_tree, Dev.clearAllocs_butAllocs, Dev.butAllocs_tree]

theorem Dev.clearAllocs_quads (t : Nat) : (d.clearAllocs t).quads = d.quads := by
  rw [← Dev.butAllocs_quads, Dev.clearAllocs_butAllocs, Dev.butAllocs_quads]

theorem Dev.clearAllocs_chip (t : Nat) : (d.clearAllocs t).chip = d.chip := by
  rw [← Dev.butAllocs_chip, Dev.clearAllocs_butAllocs, Dev.butAllocs_chip]

/-- What R111 takes from a tree that has gone dark, its maps among it. -/
theorem Dev.Dark.cleared {d e : Dev} {t : Nat} (h : d.Dark e t) :
    d.Dark ((e.modTree t fun x => { x with maps := [], credit := none }).clearAllocs t) t ∧
    (((e.modTree t fun x => { x with maps := [], credit := none }).clearAllocs t).tree t).maps = [] := by
  have txdisNow := fun i => (e.modTree t fun x => { x with maps := [], credit := none }).clearAllocs_rd t i
    (r := .txdisNow) (by decide) (by decide)
  refine ⟨{ lit := ?_, txdis := ?_, other := fun x hx => ?_, otherTxdis := fun x hx => ?_, regs := fun r i hr => ?_,
            quads := (Dev.clearAllocs_quads _ t).trans h.quads, chip := (Dev.clearAllocs_chip _ t).trans h.chip }, ?_⟩
  · rw [Dev.clearAllocs_tree, Dev.tree_modTree, if_pos rfl]
    exact h.lit
  · rw [Dev.txdis, txdisNow]
    exact h.txdis
  · rw [Dev.clearAllocs_tree, Dev.tree_modTree, if_neg hx]
    exact h.other x hx
  · rw [Dev.txdis, txdisNow]
    exact h.otherTxdis x hx
  · simp only [List.mem_cons, not_or] at hr
    exact (Dev.clearAllocs_rd _ t i hr.2.1 hr.2.2.1).trans (h.regs r i (by simp [hr]))
  · rw [Dev.clearAllocs_tree, Dev.tree_modTree, if_pos rfl]

theorem Dev.each_idle {α : Type} {l : List α} {f : Dev → α → Dev} (h : ∀ x ∈ l, f d x = d) : d.each l f = d := by
  induction l with
  | nil => rfl
  | cons x l ih => rw [Dev.each_cons, h x List.mem_cons_self, ih fun y hy => h y (List.mem_cons_of_mem _ hy)]

theorem Dev.darken_of_emptyTree {t : Nat} (n : Nat) (clear : Bool) (h : d.emptyTree t) :
    d.darken n t clear =
      let d := (d.setTxdis t true).modTree t Tree.darkened
      if clear then ((d.forgetKeystream t).modTree t fun x => { x with maps := [], credit := none }).clearAllocs t else d := by
  have idle : ((d.setTxdis t true).modTree t Tree.darkened).each (termsOfTree t) (fun d g =>
      if d.rd .termState g = 0 then d else d.toEmpty n g false) = (d.setTxdis t true).modTree t Tree.darkened :=
    Dev.each_idle _ fun g hg => if_pos ((Dev.rd_wr_other _ _ _ _ (by decide)).trans (h g hg))
  unfold Dev.darken
  dsimp only
  exact congrArg (fun d : Dev => if clear then
    ((d.forgetKeystream t).modTree t fun x => { x with maps := [], credit := none }).clearAllocs t else d) idle

/-- The transmitter stops, and the tree is without light. -/
theorem Dev.dark_darkened (t : Nat) : d.Dark ((d.setTxdis t true).modTree t Tree.darkened) t where
  lit := by
    rw [Dev.tree_modTree, if_pos rfl]
    rfl
  txdis := d.txdis_setTxdis t true
  other x hx := by
    rw [Dev.tree_modTree, if_neg hx]
    rfl
  otherTxdis x hx := d.txdis_setTxdis_ne true hx
  regs r i hr := Dev.rd_wr_other _ _ _ _ fun e => hr (e ▸ List.mem_cons_self)
  quads := rfl
  chip := rfl

theorem Dev.darken_dark {t : Nat} (n : Nat) (h : d.emptyTree t) : d.Dark (d.darken n t false) t := by
  rw [Dev.darken_of_emptyTree d n false h]
  exact d.dark_darkened t

/-- A tree that is cleared as well has no map left. -/
theorem Dev.darken_cleared {t : Nat} (n : Nat) (h : d.emptyTree t) :
    d.Dark (d.darken n t true) t ∧ ((d.darken n t true).tree t).maps = [] := by
  rw [Dev.darken_of_emptyTree d n true h]
  exact ((d.dark_darkened t).of_ciphers (Dev.Ciphers.forgetKeystream _ t)).cleared

/-! ### PROFILE_CHANGE_DARKEN -/

theorem treesOfQuad_nodup (q : Nat) : (treesOfQuad q).Nodup := by
  simp [treesOfQuad]

theorem mem_treesOfQuad {q x : Nat} : x ∈ treesOfQuad q ↔ quadOf x = q := by
  simp only [treesOfQuad, quadOf, List.mem_cons, List.not_mem_nil, or_false]
  omega

/-- Trees without terminals in service all go dark. -/
theorem Dev.each_darken (n q : Nat) (h : ∀ x ∈ treesOfQuad q, d.emptyTree x) {x : Nat} (hx : x ∈ treesOfQuad q) :
    ((d.each (treesOfQuad q) fun d t => d.darken n t true).tree x).lit = false ∧
    ((d.each (treesOfQuad q) fun d t => d.darken n t true).tree x).maps = [] ∧
    (d.each (treesOfQuad q) fun d t => d.darken n t true).txdis x = true := by
  have empty : ∀ d e : Dev, ∀ y, d.Dark e y → (∀ x ∈ treesOfQuad q, d.emptyTree x) →
      ∀ x ∈ treesOfQuad q, e.emptyTree x := fun d e y dark h x hx g hg =>
    (dark.regs .termState g (by decide)).trans (h x hx g hg)
  obtain ⟨a, ha, -, hb⟩ := Dev.each_at_of (I := fun d => ∀ x ∈ treesOfQuad q, d.emptyTree x)
    (fun d => ((d.tree x).lit, (d.tree x).maps, d.txdis x)) (f := fun d t => d.darken n t true) h (treesOfQuad_nodup q) hx
    (fun d hd y hy => empty d _ y (d.darken_cleared n (hd y hy)).1 hd) fun d hd y hy hxy => by
      have dark := (d.darken_cleared n (hd y hy)).1
      rw [dark.other x hxy.symm, dark.otherTxdis x hxy.symm]
  obtain ⟨dark, maps⟩ := a.darken_cleared n (ha x hx)
  simp only [Prod.mk.injEq] at hb
  exact ⟨hb.1.trans dark.lit, hb.2.1.trans maps, hb.2.2.trans dark.txdis⟩

theorem profileChangeDarken_completes {s : State} {q : Nat} (hq : q < 8) (hc : (s.dev.quad q).change = 1)
    (hr : s.dev.changeRuns q = true) (h : ∀ x ∈ treesOfQuad q, s.dev.emptyTree x) :
    Completes (.profileChangeDarken q) s (s.dev.rd .frameTick 0) fun e =>
      (e.quad q).change = 2 ∧ ∀ x ∈ treesOfQuad q,
        (e.tree x).lit = false ∧ (e.tree x).maps = [] ∧ bitAt (e.rd .txdisNow q) (x % 4) = true := by
  refine completes_onElement rfl hq ?_
  rw [if_pos ⟨hc, hr⟩]
  refine ⟨?_, fun x hx => ?_⟩
  · rw [Dev.quad_modQuad, if_pos rfl]
  · obtain ⟨lit, maps, txdis⟩ := s.dev.each_darken (max s.now (s.dev.rd .frameTick 0)) q h hx
    rw [Dev.txdis, mem_treesOfQuad.1 hx] at txdis
    rw [Dev.modQuad_tree, Dev.modQuad_rd]
    exact ⟨lit, maps, txdis⟩

end Sys2Proof.Machine
end

section
/-!
PROOFS. The three steps of a profile change (R31-R35, R79, R329): the trees dark, the new profile in force, the trees lit again.
-/
namespace Sys2Proof.Machine
open Sys2Proof

variable (d : Dev)

/-! ### What rates and clocks depend on -/

/-- The quads, and the registers that rates and clock frequencies are read from. -/
def Dev.rates (d : Dev) : Tab Quad × (Nat → Nat) × (Nat → Nat) × (Nat → Nat) :=
  (d.quads, d.rd .quadProfile, d.rd .lineMode, d.rd .ospRate)

section
variable {d e : Dev} (h : e.rates = d.rates)
include h

theorem Dev.profile_of_rates (q : Nat) : e.profile q = d.profile q := by
  simp only [Dev.rates, Prod.mk.injEq] at h
  rw [Dev.profile, Dev.profile, Dev.quad, Dev.quad, h.1, h.2.1]

theorem Dev.upRate_of_rates (t : Nat) : e.upRate t = d.upRate t := by
  have profile := Dev.profile_of_rates h
  simp only [Dev.rates, Prod.mk.injEq] at h
  simp only [Dev.upRate, Dev.treeProfile, profile, h]

theorem Dev.forced_of_rates (t : Nat) : e.forced t = d.forced t := by
  have upRate := Dev.upRate_of_rates h
  simp only [Dev.rates, Prod.mk.injEq] at h
  simp only [Dev.forced, upRate, h]

theorem Dev.domainKhzNow_of_rates (c : Nat) : e.domainKhzNow c = d.domainKhzNow c := by
  have profile := Dev.profile_of_rates h
  have upRate := Dev.upRate_of_rates h
  simp only [Dev.rates, Prod.mk.injEq] at h
  simp only [Dev.domainKhzNow, profile, upRate, h]

end

theorem Dev.rates_of_rd {d e : Dev} (hq : e.quads = d.quads)
    (h : ∀ r ∈ [Reg.quadProfile, .lineMode, .ospRate], ∀ i, e.rd r i = d.rd r i) : e.rates = d.rates := by
  rw [Dev.rates, hq, funext (h .quadProfile (by decide)), funext (h .lineMode (by decide)), funext (h .ospRate (by decide))]
  rfl

theorem Dev.rates_wr {r : Reg} (i v : Nat) (h : r ∉ [Reg.quadProfile, .lineMode, .ospRate]) : (d.wr r i v).rates = d.rates :=
  Dev.rates_of_rd rfl fun _ hr _ => Dev.rd_wr_other _ _ _ _ fun e => h (e ▸ hr)

/-! ### Entries loaded -/

/-- The registers of burst-profile entries. -/
def entryRegs : List Reg := [.bpRate, .bpPreamble, .bpRepeat, .bpDelimiter, .bpFec, .bpValid]

/-- The defaults of entry `e` of tree `t`. -/
def Dev.loadEntry (d : Dev) (t profile rate e : Nat) : Dev :=
  let i := 4 * t + e
  (((((d.wr .bpRate i rate).wr .bpPreamble i 0x5555555555555555).wr .bpRepeat i (defaultRepeat profile rate e)).wr
    .bpDelimiter i (defaultDelimiter e)).wr .bpFec i (defaultFec profile e)).wr .bpValid i (if e = 0 then 1 else 0)

theorem Dev.loadEntries_eq (t : Nat) : d.loadEntries t =
    (d.each (List.range 4) fun e k => e.loadEntry t (d.treeProfile t) (d.upRate t) k).modTree t fun x =>
      { x with announced := [0] } := rfl

theorem Dev.loadEntry_rd (t profile rate k : Nat) {r : Reg} {i : Nat} (h : r ∉ entryRegs ∨ i ≠ 4 * t + k) :
    (d.loadEntry t profile rate k).rd r i = d.rd r i := by
  have step : ∀ (e : Dev) (q : Reg) (v : Nat), q ∈ entryRegs → (e.wr q (4 * t + k) v).rd r i = e.rd r i :=
    fun e q v hq => by
      rw [Dev.rd_wr, if_neg]
      rintro ⟨rfl, rfl⟩
      exact h.elim (fun h => h hq) fun h => h rfl
  simp (disch := decide) only [Dev.loadEntry, step]

theorem Dev.loadEntries_rd (t : Nat) {r : Reg} {i : Nat} (h : r ∉ entryRegs ∨ i / 4 ≠ t) :
    (d.loadEntries t).rd r i = d.rd r i := by
  rw [Dev.loadEntries_eq, Dev.modTree_rd]
  refine d.each_keeps (Dev.rd · r i) fun e k hk => e.loadEntry_rd t _ _ k ?_
  have := List.mem_range.1 hk
  exact h.imp_right fun h => by omega

theorem defaultRepeat_lt {profile rate k : Nat} (hk : k < 4) : defaultRepeat profile rate k < 256 := by
  unfold defaultRepeat
  split
  · interval_cases k <;> decide
  · split <;> interval_cases k <;> decide

theorem Reg.modulus_bpValid : Reg.modulus .bpValid = 256 := by decide +kernel
theorem Reg.modulus_bpRepeat : Reg.modulus .bpRepeat = 256 := by decide +kernel
theorem Reg.modulus_rateForced : Reg.modulus .rateForced = 2 ^ 64 := by decide +kernel

/-- Entry 0 alone is valid, and each repeats its preamble as its profile has it. -/
theorem Dev.loadEntries_entry (t : Nat) {k : Nat} (hk : k < 4) :
    (d.loadEntries t).rd .bpValid (4 * t + k) = (if k = 0 then 1 else 0) ∧
    (d.loadEntries t).rd .bpRepeat (4 * t + k) = defaultRepeat (d.treeProfile t) (d.upRate t) k := by
  obtain ⟨a, -, hb⟩ := d.each_at (fun e => (e.rd .bpValid (4 * t + k), e.rd .bpRepeat (4 * t + k)))
    (f := fun e k => e.loadEntry t (d.treeProfile t) (d.upRate t) k) List.nodup_range (List.mem_range.2 hk)
    fun e j _ hj => Prod.ext (e.loadEntry_rd t _ _ j (Or.inr (by omega))) (e.loadEntry_rd t _ _ j (Or.inr (by omega)))
  simp only [Prod.mk.injEq] at hb
  rw [Dev.loadEntries_eq, Dev.modTree_rd, Dev.modTree_rd, hb.1, hb.2]
  constructor
  · rw [Dev.loadEntry, Dev.rd_wr_same, Reg.modulus_bpValid]
    split <;> rfl
  · simp [Dev.loadEntry, Dev.rd_wr, Reg.modulus_bpRepeat, Nat.mod_eq_of_lt (defaultRepeat_lt hk)]

theorem Dev.loadEntries_tree (t x : Nat) :
    (d.loadEntries t).tree x = if x = t then { d.tree t with announced := [0] } else d.tree x := by
  have trees := d.each_keeps Dev.tree (f := fun e k => e.loadEntry t (d.treeProfile t) (d.upRate t) k) (l := List.range 4)
    fun e k _ => rfl
  rw [Dev.loadEntries_eq, Dev.tree_modTree, trees]

/-- The device but for its registers and trees. -/
def Dev.butTrees (d : Dev) : Dev := { d with regs := [], trees := [] }

@[simp] theorem Dev.modTree_butTrees (t : Nat) (f : Tree → Tree) : (d.modTree t f).butTrees = d.butTrees := rfl
@[simp] theorem Dev.wr_butTrees (r : Reg) (i v : Nat) : (d.wr r i v).butTrees = d.butTrees := rfl
@[simp] theorem Dev.bump_butTrees (r : Reg) (i : Nat) : (d.bump r i).butTrees = d.butTrees := rfl
@[simp] theorem Dev.butTrees_quads : d.butTrees.quads = d.quads := rfl
@[simp] theorem Dev.butTrees_quad (q : Nat) : d.butTrees.quad q = d.quad q := rfl
@[simp] theorem Dev.butTrees_bank (q : Nat) : d.butTrees.bank q = d.bank q := rfl
@[simp] theorem Dev.butTrees_chip : d.butTrees.chip = d.chip := rfl
@[simp] theorem Dev.butTrees_mgmt : d.butTrees.mgmt = d.mgmt := rfl
@[simp] theorem Dev.butTrees_faults : d.butTrees.faults = d.faults := rfl

theorem Dev.loadEntries_butTrees (t : Nat) : (d.loadEntries t).butTrees = d.butTrees := by
  rw [Dev.loadEntries_eq, Dev.modTree_butTrees]
  exact d.each_keeps Dev.butTrees fun e k _ => by simp [Dev.loadEntry]

/-! ### PROFILE_CHANGE_APPLY -/

theorem Dev.each_wr_rd (r : Reg) (v : Nat) (l : List Nat) (i : Nat) :
    (d.each l fun d i => d.wr r i v).rd r i = if i ∈ l then v % r.modulus else d.rd r i := by
  induction l generalizing d with
  | nil => rfl
  | cons j l ih =>
    rw [Dev.each_cons, ih, Dev.rd_wr]
    by_cases hi : i ∈ l <;> by_cases hj : i = j <;> simp [hi, hj]

/-- The step of PROFILE_CHANGE_APPLY at one tree of quad `q`. -/
def Dev.applyTree (d : Dev) (q t : Nat) : Dev := (d.loadEntries t).when (d.forced t) fun d => d.bump .rateForced q

theorem Dev.applyTree_rd (q t : Nat) {r : Reg} {i : Nat} (hr : r ≠ .rateForced) (h : r ∉ entryRegs ∨ i / 4 ≠ t) :
    (d.applyTree q t).rd r i = d.rd r i := by
  rw [← d.loadEntries_rd t h, Dev.applyTree]
  cases d.forced t
  · rfl
  · exact Dev.rd_wr_other _ _ _ _ hr

theorem Dev.applyTree_butTrees (q t : Nat) : (d.applyTree q t).butTrees = d.butTrees := by
  rw [← d.loadEntries_butTrees t, Dev.applyTree]
  cases d.forced t
  · rw [Dev.when_false]
  · rw [Dev.when_true, Dev.bump_butTrees]

theorem Dev.applyTree_tree (q t x : Nat) :
    (d.applyTree q t).tree x = if x = t then { d.tree t with announced := [0] } else d.tree x := by
  rw [← d.loadEntries_tree t x, Dev.applyTree]
  cases d.forced t <;> rfl

theorem Dev.applyTree_rates (q t : Nat) : (d.applyTree q t).rates = d.rates := by
  refine Dev.rates_of_rd ?_ fun r hr i => d.applyTree_rd q t ?_ (Or.inl ?_)
  · rw [← Dev.butTrees_quads, Dev.applyTree_butTrees, Dev.butTrees_quads]
  · rintro rfl
    exact absurd hr (by decide)
  · have : ∀ r ∈ [Reg.quadProfile, .lineMode, .ospRate], r ∉ entryRegs := by decide
    exact this r hr

theorem Dev.applyTree_rateForced (q t : Nat) :
    (d.applyTree q t).rd .rateForced q % 2 ^ 64 = (d.rd .rateForced q + if d.forced t then 1 else 0) % 2 ^ 64 := by
  have loaded := d.loadEntries_rd t (r := .rateForced) (i := q) (Or.inl (by decide))
  rw [Dev.applyTree]
  cases d.forced t
  · simp [loaded]
  · rw [Dev.when_true, Dev.rd_bump, if_pos ⟨rfl, rfl⟩, loaded, Reg.modulus_rateForced, Nat.mod_mod]
    rfl

/-- Each tree at another rate than its LINE_MODE is counted. -/
theorem Dev.each_applyTree_rateForced (q : Nat) (l : List Nat) :
    (d.each l fun d t => d.applyTree q t).rd .rateForced q % 2 ^ 64 =
      (d.rd .rateForced q + (l.filter d.forced).length) % 2 ^ 64 := by
  induction l generalizing d with
  | nil => rfl
  | cons t l ih =>
    have forced : (d.applyTree q t).forced = d.forced := funext fun x => Dev.forced_of_rates (d.applyTree_rates q t) x
    rw [Dev.each_cons, ih, forced, Nat.add_mod, Dev.applyTree_rateForced, ← Nat.add_mod, List.filter_cons]
    cases d.forced t
    · rfl
    · simp only [if_true, List.length_cons, Nat.add_assoc, Nat.add_comm 1]

/-- What one tree of a quad reads as when its entries have been loaded. -/
structure Dev.EntriesLoaded (d e : Dev) (x : Nat) : Prop where
  tree : e.tree x = { d.tree x with announced := [0] }
  entry : ∀ k < 4, e.rd .bpValid (4 * x + k) = (if k = 0 then 1 else 0) ∧
    e.rd .bpRepeat (4 * x + k) = defaultRepeat (d.treeProfile x) (d.upRate x) k

theorem Dev.treeProfile_of_rates {d e : Dev} (h : e.rates = d.rates) (t : Nat) : e.treeProfile t = d.treeProfile t :=
  Dev.profile_of_rates h (quadOf t)

theorem Dev.each_applyTree_loaded (q : Nat) {x : Nat} (hx : x ∈ treesOfQuad q) :
    d.EntriesLoaded (d.each (treesOfQuad q) fun d t => d.applyTree q t) x where
  tree := by
    obtain ⟨a, ha, hb⟩ := d.each_at (Dev.tree · x) (f := fun d t => d.applyTree q t) (treesOfQuad_nodup q) hx
      fun e y _ hy => (e.applyTree_tree q y x).trans (if_neg hy.symm)
    rw [hb, Dev.applyTree_tree, if_pos rfl, ha]
  entry k hk := by
    obtain ⟨a, hr, -, hb⟩ := Dev.each_at_of (I := fun e => e.rates = d.rates)
      (fun e => (e.rd .bpValid (4 * x + k), e.rd .bpRepeat (4 * x + k))) (f := fun d t => d.applyTree q t) rfl
      (treesOfQuad_nodup q) hx (fun e he y _ => (e.applyTree_rates q y).trans he) fun e _ y _ hy =>
        Prod.ext (e.applyTree_rd q y (by decide) (Or.inr (by omega))) (e.applyTree_rd q y (by decide) (Or.inr (by omega)))
    have loaded := a.loadEntries_entry x hk
    have applied : ∀ r, r ≠ .rateForced → (a.applyTree q x).rd r (4 * x + k) = (a.loadEntries x).rd r (4 * x + k) :=
      fun r hr => by
        rw [Dev.applyTree]
        cases a.forced x
        · rfl
        · exact Dev.rd_wr_other _ _ _ _ hr
    rw [← Dev.treeProfile_of_rates hr, ← Dev.upRate_of_rates hr, ← loaded.1, ← loaded.2, ← applied _ (by decide),
      ← applied _ (by decide)]
    exact Prod.mk.inj hb

/-! ### The clocks and the bank of the quad -/

/-- The device but for its registers. -/
def Dev.butRegs (d : Dev) : Dev := { d with regs := [] }

@[simp] theorem Dev.butRegs_quads : d.butRegs.quads = d.quads := rfl
@[simp] theorem Dev.butRegs_mgmt : d.butRegs.mgmt = d.mgmt := rfl
@[simp] theorem Dev.butRegs_quad (q : Nat) : d.butRegs.quad q = d.quad q := rfl
@[simp] theorem Dev.butRegs_bank (q : Nat) : d.butRegs.bank q = d.bank q := rfl
@[simp] theorem Dev.butRegs_tree (t : Nat) : d.butRegs.tree t = d.tree t := rfl

theorem Dev.relockQuad_rd (e : Dev) (q i : Nat) {r : Reg} (h : r ≠ .domainLocked) :
    (d.relockQuad e q).rd r i = e.rd r i :=
  e.each_keeps (Dev.rd · r i) fun _ _ _ => Dev.rd_wr_other _ _ _ _ h

theorem Dev.relockQuad_butRegs (e : Dev) (q : Nat) : (d.relockQuad e q).butRegs = e.butRegs :=
  e.each_keeps Dev.butRegs fun _ _ _ => rfl

/-- A domain of the quad whose frequency changes is to relock. -/
theorem Dev.relockQuad_unlocks (e : Dev) {q c : Nat} (hc : c ∈ pllDomains q) (h : e.domainKhzNow c ≠ d.domainKhzNow c) :
    (d.relockQuad e q).rd .domainLocked c = 0 := by
  unfold Dev.relockQuad
  rw [Dev.each_wr_rd, if_pos (List.mem_filter.2 ⟨hc, by simpa using h.symm⟩), Nat.zero_mod]

/-- The device with a bank that holds no job and has nothing ready. -/
def Dev.emptyBank (d : Dev) (q : Nat) : Dev := ({ d with banks := Tab.set {} d.banks q {} } : Dev).wr .ksReady q 0

theorem Dev.bank_emptyBank (q : Nat) : (d.emptyBank q).bank q = {} := by
  simp [Dev.emptyBank, Dev.bank]

/-- A quad's bank wiped: nothing is ready, and no tree of the quad has keystream. -/
structure Dev.Wiped (d e : Dev) (q : Nat) : Prop where
  bank : e.bank q = {}
  ready : e.rd .ksReady q = 0
  regs : d.rdKept e [.ksReady]
  quads : e.quads = d.quads
  keystream : ∀ x ∈ treesOfQuad q, (e.tree x).keystream = []

theorem Dev.wipeBank_wiped (q : Nat) : d.Wiped (d.wipeBank q) q := by
  have kept : (d.wipeBank q).butTrees = (d.emptyBank q).butTrees :=
    (d.emptyBank q).each_keeps Dev.butTrees fun d t _ => d.modTree_butTrees t _
  have regs : ∀ r i, (d.wipeBank q).rd r i = (d.emptyBank q).rd r i := fun r i =>
    (d.emptyBank q).each_keeps (Dev.rd · r i) fun d t _ => d.modTree_rd t _ r i
  exact
    { bank := by rw [← Dev.butTrees_bank, kept, Dev.butTrees_bank, Dev.bank_emptyBank]
      ready := (regs .ksReady q).trans ((Dev.rd_wr_same _ _ _ _).trans (Nat.zero_mod _))
      regs := fun r i hr => (regs r i).trans (Dev.rd_wr_other _ _ _ _ (by simpa using hr))
      quads := by rw [← Dev.butTrees_quads, kept]; rfl
      keystream := fun x hx => by
        obtain ⟨a, -, hb⟩ := Dev.each_at (fun d => (d.tree x).keystream) (d.emptyBank q)
          (f := fun d t => d.modTree t fun x => { x with keystream := [] })
          (treesOfQuad_nodup q) hx fun e y _ hy => by rw [Dev.tree_modTree, if_neg hy.symm]
        refine Eq.trans hb ?_
        rw [Dev.tree_modTree, if_pos rfl] }

/-! ### The command -/

/-- The device before the entries of the quad's trees are loaded. -/
def Dev.applyQuad (d : Dev) (q : Nat) : Dev :=
  (d.relockQuad ((d.wipeBank q).modQuad q fun x => { x with change := 3 }) q).wr .slicesGated q 0

/-- The registers that the step changes beside those of the entries. -/
def applyRegs : List Reg := [.ksReady, .domainLocked, .slicesGated]

/-- The new profile is in force, the bank is wiped, no slice is gated, and the clocks that change are to relock. -/
structure Dev.QuadApplied (d e : Dev) (q : Nat) : Prop where
  change : (e.quad q).change = 3
  ready : e.rd .ksReady q = 0
  bank : e.bank q = {}
  gated : e.rd .slicesGated q = 0
  regs : d.rdKept e applyRegs
  clocks : ∀ c ∈ pllDomains q, e.domainKhzNow c ≠ d.domainKhzNow c → e.rd .domainLocked c = 0
  keystream : ∀ x ∈ treesOfQuad q, (e.tree x).keystream = []

theorem Dev.applyQuad_applied (q : Nat) : d.QuadApplied (d.applyQuad q) q := by
  have wiped := d.wipeBank_wiped q
  unfold Dev.applyQuad
  generalize d.wipeBank q = w at wiped
  have rest := d.relockQuad_butRegs (w.modQuad q fun x => { x with change := 3 }) q
  have regs := fun {r : Reg} (i : Nat) => d.relockQuad_rd (w.modQuad q fun x => { x with change := 3 }) q i (r := r)
  have unlocks := fun {c : Nat} => d.relockQuad_unlocks (w.modQuad q fun x => { x with change := 3 }) (q := q) (c := c)
  generalize d.relockQuad (w.modQuad q fun x => { x with change := 3 }) q = e at rest regs unlocks
  have change : (e.wr .slicesGated q 0).quad q = { w.quad q with change := 3 } := by
    rw [Dev.wr_quad, ← Dev.butRegs_quad, rest, Dev.butRegs_quad, Dev.quad_modQuad, if_pos rfl]
  have clock : ∀ c, (e.wr .slicesGated q 0).domainKhzNow c =
      (w.modQuad q fun x => { x with change := 3 }).domainKhzNow c :=
    fun c => Dev.domainKhzNow_of_rates ((e.rates_wr q 0 (by decide)).trans
      (Dev.rates_of_rd (by rw [← Dev.butRegs_quads, rest, Dev.butRegs_quads])
        fun r hr i => regs i fun h => absurd (h ▸ hr) (by decide))) c
  exact
    { change := by rw [change]
      ready := by rw [Dev.rd_wr_other _ _ _ _ (by decide), regs _ (by decide), Dev.modQuad_rd, wiped.ready]
      bank := by rw [Dev.wr_bank, ← Dev.butRegs_bank, rest, Dev.butRegs_bank, Dev.modQuad_bank, wiped.bank]
      gated := (Dev.rd_wr_same _ _ _ _).trans (Nat.zero_mod _)
      regs := fun r i hr => by
        simp only [applyRegs, List.mem_cons, List.not_mem_nil, or_false, not_or] at hr
        rw [Dev.rd_wr_other _ _ _ _ hr.2.2, regs i hr.2.1, Dev.modQuad_rd, wiped.regs r i (by simpa using hr.1)]
      clocks := fun c hc h => by
        rw [Dev.rd_wr_other _ _ _ _ (by decide)]
        exact unlocks hc (clock c ▸ h)
      keystream := fun x hx => by
        rw [Dev.wr_tree, ← Dev.butRegs_tree, rest, Dev.butRegs_tree, Dev.modQuad_tree, wiped.keystream x hx] }

theorem profileChangeApply_completes {s : State} {n q : Nat} (hq : q < 8) (hc : (s.dev.quad q).change = 2) :
    Completes (.profileChangeApply n q) s n fun e =>
      (e.quad q).change = 3 ∧ e.profile q = s.dev.rd .quadProfile q ∧ e.rd .ksReady q = 0 ∧ e.bank q = {} ∧
      e.rd .slicesGated q = 0 ∧
      e.rd .rateForced q % 2 ^ 64 = (s.dev.rd .rateForced q + ((treesOfQuad q).filter e.forced).length) % 2 ^ 64 ∧
      (∀ c ∈ pllDomains q, e.domainKhzNow c ≠ s.dev.domainKhzNow c → e.rd .domainLocked c = 0) ∧
      ∀ x ∈ treesOfQuad q, (e.tree x).announced = [0] ∧ (e.tree x).keystream = [] ∧ ∀ k < 4,
        e.rd .bpValid (4 * x + k) = (if k = 0 then 1 else 0) ∧
        e.rd .bpRepeat (4 * x + k) = defaultRepeat (e.rd .quadProfile q) (e.upRate x) k := by
  have applied := s.dev.applyQuad_applied q
  refine completes_onElement (f := fun _ d => if (d.quad q).change = 2 then
    (d.applyQuad q).each (treesOfQuad q) fun d t => d.applyTree q t else d) rfl hq ?_
  rw [if_pos hc]
  have forced := (s.dev.applyQuad q).each_applyTree_rateForced q (treesOfQuad q)
  have loaded := fun x => (s.dev.applyQuad q).each_applyTree_loaded q (x := x)
  have rest := (s.dev.applyQuad q).each_keeps Dev.butTrees (l := treesOfQuad q) (f := fun d t => d.applyTree q t)
    fun d t _ => d.applyTree_butTrees q t
  have rates := (s.dev.applyQuad q).each_keeps Dev.rates (l := treesOfQuad q) (f := fun d t => d.applyTree q t)
    fun d t _ => d.applyTree_rates q t
  have regs : ∀ r i, r ≠ .rateForced → r ∉ entryRegs →
      ((s.dev.applyQuad q).each (treesOfQuad q) fun d t => d.applyTree q t).rd r i = (s.dev.applyQuad q).rd r i :=
    fun r i hr he => Dev.each_keeps _ (Dev.rd · r i) fun d t _ => d.applyTree_rd q t hr (Or.inl he)
  generalize (s.dev.applyQuad q).each (treesOfQuad q) (fun d t => d.applyTree q t) = e at *
  have quad : e.quad q = (s.dev.applyQuad q).quad q := by rw [← Dev.butTrees_quad, rest, Dev.butTrees_quad]
  have change : (e.quad q).change = 3 := by rw [quad, applied.change]
  have profile : e.rd .quadProfile q = s.dev.rd .quadProfile q := by
    rw [regs _ _ (by decide) (by decide), applied.regs _ _ (by decide)]
  have inForce : e.profile q = e.rd .quadProfile q := if_neg (by simp [change])
  refine ⟨change, inForce.trans profile, ?_, ?_, ?_, ?_, fun c hc h => ?_, fun x hx => ?_⟩
  · rw [regs _ _ (by decide) (by decide), applied.ready]
  · rw [← Dev.butTrees_bank, rest, Dev.butTrees_bank, applied.bank]
  · rw [regs _ _ (by decide) (by decide), applied.gated]
  · rw [forced, applied.regs _ _ (by decide), funext (Dev.forced_of_rates rates)]
  · rw [regs _ _ (by decide) (by decide)]
    exact applied.clocks c hc (Dev.domainKhzNow_of_rates rates c ▸ h)
  · have entries := loaded x hx
    refine ⟨by rw [entries.tree], by rw [entries.tree]; exact applied.keystream x hx, fun k hk => ?_⟩
    have treeProfile : (s.dev.applyQuad q).treeProfile x = e.rd .quadProfile q := by
      rw [← Dev.treeProfile_of_rates rates, Dev.treeProfile, mem_treesOfQuad.1 hx, inForce]
    rw [← treeProfile, Dev.upRate_of_rates rates]
    exact entries.entry k hk

end Sys2Proof.Machine
end

section
/-!
PROOFS. A tree lights (R35, R50, R361), and the last step of a profile change (R33).
-/
namespace Sys2Proof.Machine
open Sys2Proof

variable (d : Dev)

/-! ### A tree lights -/

/-- What lighting may depend on, apart from the tree's light (R264, R283, R336, R341). -/
def Dev.lightView (d : Dev) (t : Nat) : Nat × Nat × Nat × List Nat × Bool × Bool × Quad × Chip :=
  (d.rd .treeEnable t, d.rd .pdState (quadDomain (quadOf t)), d.rd .unitRole 0, d.faults.shut, (d.tree t).inReset,
    (d.tree t).restarting, d.quad (quadOf t), d.chip)

theorem Dev.mayLight_of_view {d e : Dev} {t : Nat} (h : e.lightView t = d.lightView t) : e.mayLight t = d.mayLight t := by
  simp only [Dev.lightView, Prod.mk.injEq] at h
  simp only [Dev.mayLight, Dev.on, Dev.treeShut, h]

/-- `e` is `d` with tree `t` lit. -/
structure Dev.Lit (d e : Dev) (t : Nat) : Prop where
  lit : (e.tree t).lit = true
  inReset : (e.tree t).inReset = (d.tree t).inReset
  restarting : (e.tree t).restarting = (d.tree t).restarting
  txdis : e.txdis t = false
  other : ∀ x, x ≠ t → e.tree x = d.tree x
  regs : d.rdKept e [.txdisNow, .slicesGated]
  rest : e.butTrees = d.butTrees

theorem Dev.Lit.seqMsg {d e : Dev} {t : Nat} (h : d.Lit e t) (m : Ploam) : d.Lit (e.seqMsg t m) t := by
  have tree : (e.seqMsg t m).tree t = { e.tree t with sequencer := (e.tree t).sequencer ++ [m] } :=
    (e.tree_modTree t t _).trans (if_pos rfl)
  exact
    { lit := by rw [tree]; exact h.lit
      inReset := by rw [tree]; exact h.inReset
      restarting := by rw [tree]; exact h.restarting
      txdis := h.txdis
      other := fun x hx => ((e.tree_modTree t x _).trans (if_neg hx)).trans (h.other x hx)
      regs := h.regs
      rest := h.rest }

theorem Dev.light_lit (t : Nat) : d.Lit (d.light t) t := by
  have base : ∀ (v : Nat) (f : Tree → Tree), (∀ y, (f y).lit = true ∧ (f y).inReset = y.inReset ∧
      (f y).restarting = y.restarting) → d.Lit (((d.setTxdis t false).wr .slicesGated (quadOf t) v).modTree t f) t :=
    fun v f hf => by
      have tree : (((d.setTxdis t false).wr .slicesGated (quadOf t) v).modTree t f).tree t = f (d.tree t) :=
        (Dev.tree_modTree _ t t f).trans (if_pos rfl)
      exact
        { lit := by rw [tree]; exact (hf _).1
          inReset := by rw [tree]; exact (hf _).2.1
          restarting := by rw [tree]; exact (hf _).2.2
          txdis := by
            rw [Dev.txdis, Dev.modTree_rd, Dev.rd_wr_other _ _ _ _ (by decide)]
            exact d.txdis_setTxdis t false
          other := fun x hx => (Dev.tree_modTree _ t x f).trans (if_neg hx)
          regs := fun r i hr => by
            simp only [List.mem_cons, List.not_mem_nil, or_false, not_or] at hr
            rw [Dev.modTree_rd, Dev.rd_wr_other _ _ _ _ hr.2, Dev.setTxdis, Dev.rd_wr_other _ _ _ _ hr.1]
          rest := rfl }
  unfold Dev.light
  dsimp only
  split
  · exact base _ _ fun y => ⟨rfl, rfl, rfl⟩
  · exact Dev.each_holds (I := fun e => d.Lit e t) (base _ _ fun y => ⟨rfl, rfl, rfl⟩) fun e he k _ => he.seqMsg _

/-- Lighting one tree leaves it open which trees may light. -/
theorem Dev.Lit.view {d e : Dev} {t : Nat} (h : d.Lit e t) (x : Nat) : e.lightView x = d.lightView x := by
  have quad : e.quad (quadOf x) = d.quad (quadOf x) := by rw [← Dev.butTrees_quad, h.rest, Dev.butTrees_quad]
  have chip : e.chip = d.chip := by rw [← Dev.butTrees_chip, h.rest, Dev.butTrees_chip]
  have faults : e.faults = d.faults := by rw [← Dev.butTrees_faults, h.rest, Dev.butTrees_faults]
  have tree : (e.tree x).inReset = (d.tree x).inReset ∧ (e.tree x).restarting = (d.tree x).restarting := by
    by_cases hx : x = t
    · subst hx
      exact ⟨h.inReset, h.restarting⟩
    · rw [h.other x hx]
      exact ⟨rfl, rfl⟩
  rw [Dev.lightView, h.regs _ _ (by decide), h.regs _ _ (by decide), h.regs _ _ (by decide), quad, chip, faults, tree.1,
    tree.2]
  rfl

/-- The trees of a list light. -/
structure Dev.AllLit (d e : Dev) (l : List Nat) : Prop where
  lit : ∀ x ∈ l, (e.tree x).lit = true
  view : ∀ x, e.lightView x = d.lightView x
  regs : d.rdKept e [.txdisNow, .slicesGated]
  rest : e.butTrees = d.butTrees

theorem Dev.each_light {l : List Nat} (hl : l.Nodup) : d.AllLit (d.each l fun d t => d.light t) l where
  lit x hx := by
    obtain ⟨a, -, hb⟩ := Dev.each_at (fun d => (d.tree x).lit) d (f := fun d t => d.light t) hl hx
      fun e y _ hy => by rw [(e.light_lit y).other x hy.symm]
    exact Eq.trans hb (a.light_lit x).lit
  view x := d.each_keeps (Dev.lightView · x) fun e t _ => (e.light_lit t).view x
  regs r i hr := d.each_keeps (Dev.rd · r i) fun e t _ => (e.light_lit t).regs r i hr
  rest := d.each_keeps Dev.butTrees fun e t _ => (e.light_lit t).rest

/-! ### The end of the operation -/

theorem Dev.rd_setMgmt (m : Mgmt) (r : Reg) (i : Nat) : ({ d with mgmt := m } : Dev).rd r i = d.rd r i := rfl

/-- Where none waits, the end of an operation counts it, and changes nothing else. -/
structure Dev.OpEnded (d e : Dev) : Prop where
  regs : d.rdKept e [.longOps, .lastLongOp, .lastLongMs]
  trees : e.trees = d.trees
  quads : e.quads = d.quads
  faults : e.faults = d.faults
  chip : e.chip = d.chip

theorem Dev.opEnded_counted (code ms : Nat) (m : Mgmt) :
    d.OpEnded { ((d.bump .longOps 0).wr .lastLongOp 0 code).wr .lastLongMs 0 ms with mgmt := m } where
  regs r i hr := by
    simp only [List.mem_cons, List.not_mem_nil, or_false, not_or] at hr
    rw [Dev.rd_setMgmt, Dev.rd_wr_other _ _ _ _ hr.2.2, Dev.rd_wr_other _ _ _ _ hr.2.1, Dev.bump_eq,
      Dev.rd_wr_other _ _ _ _ hr.1]
  trees := rfl
  quads := rfl
  faults := rfl
  chip := rfl

theorem Dev.endOp_ended (n : Nat) (h : d.mgmt.waitingOps = []) : d.OpEnded (d.endOp n) := by
  cases ho : d.mgmt.longOp with
  | none =>
    unfold Dev.endOp
    rw [ho]
    exact ⟨fun _ _ _ => rfl, rfl, rfl, rfl, rfl⟩
  | some o =>
    have mgmt : ∀ ms, (((d.bump .longOps 0).wr .lastLongOp 0 o.code).wr .lastLongMs 0 ms).mgmt = d.mgmt := fun ms => by
      rw [Dev.wr_mgmt, Dev.wr_mgmt, Dev.bump_eq, Dev.wr_mgmt]
    unfold Dev.endOp
    rw [ho]
    dsimp only
    rw [mgmt, h]
    exact d.opEnded_counted _ _ _

theorem Dev.OpEnded.view {d e : Dev} (h : d.OpEnded e) (x : Nat) : e.lightView x = d.lightView x := by
  rw [Dev.lightView, h.regs _ _ (by decide), h.regs _ _ (by decide), h.regs _ _ (by decide), Dev.tree, Dev.quad, h.trees,
    h.quads, h.faults, h.chip]
  rfl

/-! ### PROFILE_CHANGE_COMPLETE -/

theorem Reg.modulus_profileChanges : Reg.modulus .profileChanges = 2 ^ 64 := by decide +kernel
theorem Reg.modulus_treeRestarts : Reg.modulus .treeRestarts = 2 ^ 64 := by decide +kernel

/-- The change of quad `q` is over and counted. -/
def Dev.endChange (d : Dev) (q : Nat) : Dev :=
  ((d.modQuad q fun x => { x with change := 0, formerProfile := 0 }).wr .profileState q 0).bump .profileChanges q

/-- The restart of each tree of the quad is counted, and a quad that is powered has its clocks locked. -/
def Dev.restartQuad (d : Dev) (q : Nat) : Dev :=
  let d := d.each (treesOfQuad q) fun d t => d.bump .treeRestarts t
  if d.rd .pdState (quadDomain q) = 2 then d.each (pllDomains q) fun d c => d.wr .domainLocked c 1 else d

theorem Dev.restartQuad_butRegs (q : Nat) : (d.restartQuad q).butRegs = d.butRegs := by
  have counted := d.each_keeps Dev.butRegs (l := treesOfQuad q) (f := fun d t => d.bump .treeRestarts t) fun _ _ _ => rfl
  unfold Dev.restartQuad
  dsimp only
  split
  · exact (Dev.each_keeps _ Dev.butRegs (l := pllDomains q) (f := fun d c => d.wr .domainLocked c 1)
      fun _ _ _ => rfl).trans counted
  · exact counted

theorem Dev.restartQuad_rd (q : Nat) {r : Reg} (i : Nat) (ht : r ≠ .treeRestarts) (hl : r ≠ .domainLocked) :
    (d.restartQuad q).rd r i = d.rd r i := by
  have counted := d.each_keeps (Dev.rd · r i) (l := treesOfQuad q) (f := fun d t => d.bump .treeRestarts t)
    fun _ _ _ => Dev.rd_wr_other _ _ _ _ ht
  unfold Dev.restartQuad
  dsimp only
  split
  · exact (Dev.each_keeps _ (Dev.rd · r i) (l := pllDomains q) (f := fun d c => d.wr .domainLocked c 1)
      fun _ _ _ => Dev.rd_wr_other _ _ _ _ hl).trans counted
  · exact counted

theorem Dev.restartQuad_restarts {q x : Nat} (hx : x ∈ treesOfQuad q) :
    (d.restartQuad q).rd .treeRestarts x = (d.rd .treeRestarts x + 1) % 2 ^ 64 := by
  have counted : (d.each (treesOfQuad q) fun d t => d.bump .treeRestarts t).rd .treeRestarts x =
      (d.rd .treeRestarts x + 1) % 2 ^ 64 := by
    obtain ⟨a, ha, hb⟩ := Dev.each_at (Dev.rd · .treeRestarts x) d (f := fun d t => d.bump .treeRestarts t)
      (treesOfQuad_nodup q) hx fun e y _ hy => Dev.rd_wr_elsewhere _ _ hy.symm
    rw [hb, ← ha, Dev.rd_bump, if_pos ⟨rfl, rfl⟩, Reg.modulus_treeRestarts]
  unfold Dev.restartQuad
  dsimp only
  split
  · exact (Dev.each_keeps _ (Dev.rd · .treeRestarts x) (l := pllDomains q) (f := fun d c => d.wr .domainLocked c 1)
      fun _ _ _ => Dev.rd_wr_other _ _ _ _ (by decide)).trans counted
  · exact counted

theorem profileChangeComplete_completes {s : State} {n q : Nat} (hq : q < 8) (hc : (s.dev.quad q).change = 3)
    (hw : s.dev.mgmt.waitingOps = []) : Completes (.profileChangeComplete n q) s n fun e =>
      (e.quad q).change = 0 ∧ e.rd .profileState q = 0 ∧
      e.rd .profileChanges q = (s.dev.rd .profileChanges q + 1) % 2 ^ 64 ∧
      ∀ x ∈ treesOfQuad q, e.rd .treeRestarts x = (s.dev.rd .treeRestarts x + 1) % 2 ^ 64 ∧
        (e.mayLight x = true → (e.tree x).lit = true) := by
  refine completes_onElement (f := fun n d => if (d.quad q).change = 3 then
    let e := (d.endChange q).restartQuad q
    let l := e.each ((treesOfQuad q).filter e.mayLight) fun d t => d.light t
    if d.changeRuns q then l.endOp n else l else d) rfl hq ?_
  rw [if_pos hc]
  dsimp only
  have rest := (s.dev.endChange q).restartQuad_butRegs q
  have regs := fun {r : Reg} i => (s.dev.endChange q).restartQuad_rd q i (r := r)
  have restarts := fun {x : Nat} => (s.dev.endChange q).restartQuad_restarts (q := q) (x := x)
  generalize (s.dev.endChange q).restartQuad q = e at *
  have lit := e.each_light ((treesOfQuad_nodup q).filter e.mayLight)
  generalize e.each ((treesOfQuad q).filter e.mayLight) (fun d t => d.light t) = l at *
  have ended : l.OpEnded (if s.dev.changeRuns q then l.endOp (max s.now n) else l) := by
    have waiting : l.mgmt.waitingOps = [] := by
      rw [← Dev.butTrees_mgmt, lit.rest, Dev.butTrees_mgmt, ← Dev.butRegs_mgmt, rest]
      exact hw
    split
    · exact l.endOp_ended _ waiting
    · exact ⟨fun _ _ _ => rfl, rfl, rfl, rfl, rfl⟩
  generalize (if s.dev.changeRuns q then l.endOp (max s.now n) else l) = z at *
  have read : ∀ {r : Reg} (i : Nat), r ∉ [Reg.longOps, .lastLongOp, .lastLongMs, .txdisNow, .slicesGated] →
      z.rd r i = e.rd r i := fun i hr => (ended.regs _ i fun h => hr (by simp at h ⊢; tauto)).trans
        (lit.regs _ i fun h => hr (by simp at h ⊢; tauto))
  refine ⟨?_, ?_, ?_, fun x hx => ⟨?_, fun may => ?_⟩⟩
  · rw [Dev.quad, ended.quads, ← Dev.quad, ← Dev.butTrees_quad, lit.rest, Dev.butTrees_quad, ← Dev.butRegs_quad, rest,
      Dev.butRegs_quad, Dev.endChange, Dev.bump_eq, Dev.wr_quad, Dev.wr_quad, Dev.quad_modQuad, if_pos rfl]
  · rw [read _ (by decide), regs _ (by decide) (by decide), Dev.endChange, Dev.bump_eq, Dev.rd_wr_other _ _ _ _ (by decide),
      Dev.rd_wr_same, Nat.zero_mod]
  · rw [read _ (by decide), regs _ (by decide) (by decide), Dev.endChange, Dev.rd_bump, if_pos ⟨rfl, rfl⟩,
      Dev.rd_wr_other _ _ _ _ (by decide), Dev.modQuad_rd, Reg.modulus_profileChanges]
  · rw [read _ (by decide), restarts hx, Dev.endChange, Dev.bump_eq, Dev.rd_wr_other _ _ _ _ (by decide),
      Dev.rd_wr_other _ _ _ _ (by decide), Dev.modQuad_rd]
  · rw [Dev.mayLight_of_view (ended.view x), Dev.mayLight_of_view (lit.view x)] at may
    rw [Dev.tree, ended.trees]
    exact lit.lit x (List.mem_filter.2 ⟨hx, may⟩)

/-- Settles O14: each step of a change does its work tree by tree, and the work on one tree leaves the others as they are. -/
theorem profileChangeSteps : Obligations.ProfileChangeSteps := by
  unfold Obligations.ProfileChangeSteps
  exact fun s n q hq => ⟨fun hc hr h => profileChangeDarken_completes hq hc hr h, profileChangeApply_completes hq,
    profileChangeComplete_completes hq⟩

end Sys2Proof.Machine
end

section
/-!
PROOFS. What buffers, queues, holds, indications and durable records leave as it is: the chip, each tree's queue of messages, and
every register but their own (R172-R195, R267).
-/
namespace Sys2Proof.Machine
open Sys2Proof

/-- The registers of cells, queues, holds, drops, defects, indications, addresses flushed and durable records. -/
def bufferRegs : List Reg :=
  [.cellsFree, .bankCellsUsed, .doubleFree, .occurrences, .poolUsed, .poolPeak, .noBuffer, .descFree, .verInflight, .sampleNext,
   .mirDrop, .termFlushed, .flushedFrames, .holdState, .downDrop, .termDownDrop, .meterDrop, .ecnMarked, .tailDrop,
   .redDropGreen, .redDropYellow, .redDropRed, .treeDefects, .defectEvents, .indSent, .indLost, .flushed, .dseqSent]

/-- What is told of a device but its buffers. -/
structure Unbuffered where
  sequencer : Nat → List Ploam
  chip : Chip
  rd : Reg → Nat → Nat

def Dev.unbuffered (d : Dev) : Unbuffered where
  sequencer t := (d.tree t).sequencer
  chip := d.chip
  rd r i := if r ∈ bufferRegs then 0 else d.rd r i

section
variable {d e : Dev} (h : e.unbuffered = d.unbuffered)
include h

theorem Dev.sequencer_of_unbuffered (t : Nat) : (e.tree t).sequencer = (d.tree t).sequencer :=
  congrFun (congrArg Unbuffered.sequencer h) t

theorem Dev.chip_of_unbuffered : e.chip = d.chip := congrArg Unbuffered.chip h

theorem Dev.rd_of_unbuffered {r : Reg} (i : Nat) (hr : r ∉ bufferRegs) : e.rd r i = d.rd r i := by
  have := congrArg (fun u : Unbuffered => u.rd r i) h
  simpa only [Dev.unbuffered, if_neg hr] using this

end

theorem Dev.unbuffered_of_rd {d e : Dev} (ht : ∀ t, (e.tree t).sequencer = (d.tree t).sequencer) (hc : e.chip = d.chip)
    (hr : ∀ r i, r ∉ bufferRegs → e.rd r i = d.rd r i) : e.unbuffered = d.unbuffered := by
  unfold Dev.unbuffered
  rw [hc]
  congr 1
  · exact funext ht
  · funext r i
    split
    · rfl
    · next h => exact hr r i h

variable (d : Dev)

@[simp] theorem Dev.unbuffered_wr {r : Reg} (i v : Nat) (h : r ∈ bufferRegs) : (d.wr r i v).unbuffered = d.unbuffered :=
  Dev.unbuffered_of_rd (fun _ => rfl) rfl fun _ _ hr => Dev.rd_wr_other _ _ _ _ fun e => hr (e ▸ h)

@[simp] theorem Dev.unbuffered_bump {r : Reg} (i : Nat) (h : r ∈ bufferRegs) : (d.bump r i).unbuffered = d.unbuffered :=
  d.unbuffered_wr i _ h

@[simp] theorem Dev.unbuffered_add {r : Reg} (i k : Nat) (h : r ∈ bufferRegs) : (d.add r i k).unbuffered = d.unbuffered :=
  d.unbuffered_wr i _ h

@[simp] theorem Dev.unbuffered_modTerm (g : Nat) (f : Term → Term) : (d.modTerm g f).unbuffered = d.unbuffered := rfl

@[simp] theorem Dev.unbuffered_modPort (p : Nat) (f : Port → Port) : (d.modPort p f).unbuffered = d.unbuffered := rfl

theorem Dev.unbuffered_modTree (t : Nat) {f : Tree → Tree} (h : ∀ y, (f y).sequencer = y.sequencer) :
    (d.modTree t f).unbuffered = d.unbuffered :=
  Dev.unbuffered_of_rd (fun x => by
    rw [Dev.tree_modTree]
    split
    · next hx => rw [h, hx]
    · rfl) rfl fun _ _ _ => rfl

theorem Dev.unbuffered_when (c : Bool) {f : Dev → Dev} (h : (f d).unbuffered = d.unbuffered) :
    (d.when c f).unbuffered = d.unbuffered := by
  cases c
  · rfl
  · exact h

theorem Dev.unbuffered_of_butFaults {d e : Dev} (h : e.butFaults = d.butFaults)
    (hr : ∀ r i, r ≠ .occurrences → e.rd r i = d.rd r i) : e.unbuffered = d.unbuffered :=
  have shown : e.butFaults.unbuffered = d.butFaults.unbuffered := congrArg Dev.unbuffered h
  Dev.unbuffered_of_rd (congrFun (congrArg Unbuffered.sequencer shown)) (congrArg Unbuffered.chip shown)
    fun r i hs => hr r i fun ho => absurd (ho ▸ hs) (by decide)

@[simp] theorem Dev.unbuffered_event (n s index : Nat) : (d.event n s index).unbuffered = d.unbuffered :=
  Dev.unbuffered_of_butFaults (d.event_butFaults n s index) fun _ i h => d.event_rd n s index i h

@[simp] theorem Dev.unbuffered_raiseLevel (n : Nat) (o : Occurrence) : (d.raiseLevel n o).unbuffered = d.unbuffered :=
  Dev.unbuffered_of_butFaults (d.raiseLevel_butFaults n o) fun _ i h => d.raiseLevel_rd n o i h

@[simp] theorem Dev.unbuffered_dropLevel (s : Nat) : (d.dropLevel s).unbuffered = d.unbuffered :=
  Dev.unbuffered_of_butFaults (d.dropLevel_butFaults s) fun _ i _ => d.dropLevel_rd s i

@[simp] theorem Dev.unbuffered_durable (n : Nat) (f : Nat → MirrorRecord) : (d.durable n f).unbuffered = d.unbuffered := by
  rcases d.durable_cases n f with e | ⟨k, e⟩ <;> rw [e]
  exact d.unbuffered_wr 0 k (by decide)

/-! ### Cells and frames -/

@[simp] theorem Dev.unbuffered_freeCell (n c : Nat) : (d.freeCell n c).unbuffered = d.unbuffered := by
  unfold Dev.freeCell
  dsimp only
  split
  · rw [Dev.unbuffered_wr _ _ _ (by decide), Dev.unbuffered_add _ _ _ (by decide)]
    rfl
  · split
    · rw [Dev.unbuffered_wr _ _ _ (by decide), Dev.unbuffered_add _ _ _ (by decide)]
      rfl
    · rw [Dev.unbuffered_event, Dev.unbuffered_bump _ _ (by decide)]

theorem Dev.unbuffered_freeCells (n : Nat) (l : List Nat) :
    (d.each l fun d c => d.freeCell n c).unbuffered = d.unbuffered :=
  d.each_keeps Dev.unbuffered fun d c _ => d.unbuffered_freeCell n c

@[simp] theorem Dev.unbuffered_uncharge (pool k : Nat) : (d.uncharge pool k).unbuffered = d.unbuffered :=
  d.unbuffered_wr (r := .poolUsed) _ _ (by decide)

@[simp] theorem Dev.unbuffered_charge (pool : Nat) : (d.charge pool).unbuffered = d.unbuffered := by
  unfold Dev.charge
  simp (disch := decide)

section
variable {d}

/-- A cell taken from a bank is no longer in the bank's store; nothing else changes. -/
theorem Dev.unbuffered_takeFromBank {b c : Nat} {e : Dev} (h : d.takeFromBank b = some (c, e)) :
    e.unbuffered = d.unbuffered := by
  unfold Dev.takeFromBank at h
  dsimp only at h
  split at h
  · split at h
    · cases h
      rfl
    · split at h <;> cases h
      rfl
  · split at h <;> cases h
    rfl

theorem Dev.unbuffered_takeInTurn {tries b c : Nat} {e : Dev} (h : d.takeInTurn tries b = some (c, e)) :
    e.unbuffered = d.unbuffered := by
  induction tries generalizing b with
  | zero => cases h
  | succ tries ih =>
    unfold Dev.takeInTurn at h
    split at h
    · next f hf =>
      cases h
      have taken := Dev.unbuffered_takeFromBank hf
      rw [Dev.unbuffered_bump _ _ (by decide), Dev.unbuffered_wr _ _ _ (by decide)]
      exact taken
    · exact ih h

end

theorem Dev.unbuffered_takeCells (pool k : Nat) (got : List Nat) :
    (d.takeCells pool k got).2.2.unbuffered = d.unbuffered := by
  induction k generalizing d got with
  | zero => rfl
  | succ k ih =>
    unfold Dev.takeCells
    split
    · rfl
    · split
      · rfl
      · next e he => exact (ih _ _).trans ((e.unbuffered_charge pool).trans (Dev.unbuffered_takeInTurn he))

theorem Dev.unbuffered_badRead : d.badRead.unbuffered = d.unbuffered := by
  unfold Dev.badRead
  dsimp only
  split
  · rfl
  · next e he =>
    have taken := Dev.unbuffered_takeInTurn he
    exact taken

/-- Both devices that storing a frame yields, the one with the frame and the one without. -/
theorem Dev.unbuffered_storeFrame (n pool length : Nat) (bytes : Bytes) :
    (d.storeFrame n pool length bytes).2.unbuffered = d.unbuffered ∧
      ∀ c e, (d.storeFrame n pool length bytes).1 = some (c, e) → e.unbuffered = d.unbuffered := by
  have taken := d.unbuffered_takeCells pool (cellsOf length) []
  unfold Dev.storeFrame
  split
  · exact ⟨d.unbuffered_badRead, fun c e h => absurd h.symm (Option.some_ne_none _)⟩
  · split
    · next e he =>
      rw [he] at taken
      refine ⟨rfl, fun c f h => ?_⟩
      cases h
      exact taken
    · next e he =>
      rw [he] at taken
      refine ⟨?_, fun c e h => absurd h.symm (Option.some_ne_none _)⟩
      rw [Dev.unbuffered_bump _ _ (by decide), Dev.unbuffered_uncharge, Dev.unbuffered_freeCells]
      exact taken

/-! ### Descriptors and queues -/

theorem Dev.unbuffered_addDesc (x : Desc) : (d.addDesc x).2.unbuffered = d.unbuffered :=
  Dev.unbuffered_wr (r := .descFree) _ 0 _ (by decide)

@[simp] theorem Dev.unbuffered_setDesc (k : Nat) (x : Desc) : (d.setDesc k x).unbuffered = d.unbuffered := rfl

@[simp] theorem Dev.unbuffered_setQueue (q : Nat) (l : List Nat) : (d.setQueue q l).unbuffered = d.unbuffered := by
  unfold Dev.setQueue
  dsimp only
  split
  · split <;> rfl
  · rfl

@[simp] theorem Dev.unbuffered_pushQueue (q k : Nat) : (d.pushQueue q k).unbuffered = d.unbuffered :=
  d.unbuffered_setQueue q _

@[simp] theorem Dev.unbuffered_settleCommit (n : Nat) : (d.settleCommit n).unbuffered = d.unbuffered := by
  unfold Dev.settleCommit
  split <;> rfl

@[simp] theorem Dev.unbuffered_leaveVersion (n w : Nat) : (d.leaveVersion n w).unbuffered = d.unbuffered := by
  have left := d.unbuffered_wr (r := .verInflight) w (d.rd .verInflight w - 1) (by decide)
  unfold Dev.leaveVersion
  dsimp only
  split
  · exact (Dev.unbuffered_settleCommit _ n).trans left
  · exact left

@[simp] theorem Dev.unbuffered_releaseChain (n chain : Nat) : (d.releaseChain n chain).unbuffered = d.unbuffered := by
  unfold Dev.releaseChain
  split
  · rfl
  · split
    · exact (Dev.unbuffered_uncharge _ _ _).trans (Dev.unbuffered_freeCells _ n _)
    · rfl

@[simp] theorem Dev.unbuffered_freeDesc (n k : Nat) : (d.freeDesc n k).unbuffered = d.unbuffered := by
  unfold Dev.freeDesc
  split
  · rfl
  · dsimp only
    split <;> simp (disch := decide) <;> rfl

@[simp] theorem Dev.unbuffered_sampleDone (id : Option Nat) (outcome : Nat) :
    (d.sampleDone id outcome).unbuffered = d.unbuffered := by
  unfold Dev.sampleDone
  split
  · rfl
  · split
    · rfl
    · exact Dev.unbuffered_wr (r := .sampleNext) _ 0 _ (by decide)

@[simp] theorem Dev.unbuffered_dropDesc (n k outcome : Nat) : (d.dropDesc n k outcome).unbuffered = d.unbuffered := by
  unfold Dev.dropDesc
  split
  · rfl
  · dsimp only
    split <;> simp (disch := decide)

theorem Dev.unbuffered_flushQueue (n q : Nat) {count : Dev → Dev} (h : ∀ d, (count d).unbuffered = d.unbuffered) :
    (d.flushQueue n q count).unbuffered = d.unbuffered :=
  (Dev.each_keeps _ Dev.unbuffered fun d k _ => (h _).trans (d.unbuffered_dropDesc n k 6)).trans
    (d.unbuffered_setQueue q [])

@[simp] theorem Dev.unbuffered_flushTerm (n g : Nat) : (d.flushTerm n g).unbuffered = d.unbuffered :=
  d.each_keeps Dev.unbuffered fun d q _ =>
    d.unbuffered_flushQueue n (downQueue g q) fun d => d.unbuffered_bump (r := .termFlushed) g (by decide)

@[simp] theorem Dev.unbuffered_flushPort (n p : Nat) : (d.flushPort n p).unbuffered = d.unbuffered :=
  d.each_keeps Dev.unbuffered fun d q _ =>
    d.unbuffered_flushQueue n (upQueue p q) fun d => d.unbuffered_bump (r := .flushedFrames) p (by decide)

theorem Dev.unbuffered_settlePortHold (n p : Nat) : (d.settlePortHold n p).unbuffered = d.unbuffered := by
  unfold Dev.settlePortHold Dev.endPortHold
  split
  · split <;> simp (disch := decide)
  · rfl

theorem Dev.unbuffered_settleTermHold (n g : Nat) : (d.settleTermHold n g).unbuffered = d.unbuffered := by
  unfold Dev.settleTermHold Dev.endTermHold
  split
  · split <;> simp
  · rfl

theorem Dev.unbuffered_settleHold (n : Nat) (x : Desc) : (d.settleHold n x).unbuffered = d.unbuffered := by
  unfold Dev.settleHold
  split
  · exact d.unbuffered_settlePortHold n _
  · exact d.unbuffered_settleTermHold n _
  · rfl

@[simp] theorem Dev.unbuffered_follow (id : Option Nat) (f : Followed → Followed) :
    (d.follow id f).unbuffered = d.unbuffered := by
  unfold Dev.follow
  split <;> rfl

@[simp] theorem Dev.unbuffered_updateAvg (q r : Nat) : (d.updateAvg q r).unbuffered = d.unbuffered := rfl

@[simp] theorem Dev.unbuffered_drawNoise : d.drawNoise.2.unbuffered = d.unbuffered := rfl

theorem redDropReg_mem_bufferRegs (colour : Nat) : redDropReg colour ∈ bufferRegs := by
  unfold redDropReg
  split <;> decide

theorem Dev.gateOf_counter_mem {d : Dev} {x : Desc} {g : QueueGate} {r : Reg} {i : Nat}
    (h : d.gateOf x = (g, some (r, i))) : r ∈ bufferRegs := by
  unfold Dev.gateOf at h
  split at h <;> cases h <;> decide

/-- A frame queued, or dropped by its gate, its meter or the early-drop test. -/
theorem Dev.unbuffered_enqueue (n k : Nat) : (d.enqueue n k).2.unbuffered = d.unbuffered := by
  unfold Dev.enqueue
  split
  · rfl
  · next x _ =>
    have settled := d.unbuffered_settleHold n x
    have metered : (if x.meterEn then (d.settleHold n x).metered n x.meter x.length x.colour
        else (x.colour, false, d.settleHold n x)).2.2.unbuffered = d.unbuffered := by
      split <;> exact settled
    dsimp only
    split
    · rw [Dev.unbuffered_dropDesc]
      split
      · next r i hg =>
        split
        · exact settled
        · exact (Dev.unbuffered_bump _ i (Dev.gateOf_counter_mem hg)).trans settled
      · exact settled
    · generalize (if x.meterEn then (d.settleHold n x).metered n x.meter x.length x.colour
        else (x.colour, false, d.settleHold n x)) = m at metered
      obtain ⟨colour, drop, e⟩ := m
      replace metered : e.unbuffered = d.unbuffered := metered
      dsimp only
      rw [← metered]
      split
      · simp (disch := decide)
      · split
        · simp
        · split
          · simp
          · simp (disch := decide)
          · simp (disch := decide)
          · rw [Dev.unbuffered_dropDesc, Dev.unbuffered_bump _ 0 (redDropReg_mem_bufferRegs _)]
            simp

theorem Dev.unbuffered_queueDevice (n pool kind dest queue domain : Nat) (bytes : Bytes) (oneStep : Bool)
    (ring : Option Nat) :
    (d.queueDevice n pool kind dest queue domain bytes oneStep ring).2.unbuffered = d.unbuffered := by
  unfold Dev.queueDevice
  dsimp only
  obtain ⟨left, stored⟩ := d.unbuffered_storeFrame n pool (max 64 (bytes.length + 4)) bytes
  split
  · next e he =>
    rw [he] at left
    exact left
  · next c e f he =>
    rw [he] at stored
    exact (Dev.unbuffered_enqueue _ n _).trans ((e.unbuffered_addDesc _).trans (stored c e rfl))

/-! ### Indications, defects and terminals' holds -/

@[simp] theorem Dev.unbuffered_orderIndication (n t q : Nat) : (d.orderIndication n t q).unbuffered = d.unbuffered := by
  unfold Dev.orderIndication
  split
  · rfl
  · dsimp only
    rw [Dev.unbuffered_setQueue]
    split <;> rfl

theorem Dev.unbuffered_indicate (n t event : Nat) : (d.indicate n t event).unbuffered = d.unbuffered := by
  unfold Dev.indicate
  dsimp only
  generalize hm : (if 14 ≤ d.rd .indicationOffset t ∧ d.rd .indicationOffset t + 4 ≤ d.rd .indLength t then _ else _) = m
  have drawn : m.2.unbuffered = d.unbuffered := by
    rw [← hm]
    split <;> rfl
  rw [← drawn]
  have composed := m.2.unbuffered_modTree t
    (f := fun x => { x with indSeq := (x.indSeq + 1) % 256, indAt := n, indEvent := event })
    fun _ => rfl
  split <;> rw [Dev.unbuffered_bump _ t (by decide), Dev.unbuffered_when _ _ (Dev.unbuffered_orderIndication _ n t _),
    Dev.unbuffered_queueDevice, composed]

theorem Dev.unbuffered_setTreeDefect (n t b : Nat) (on : Bool) :
    (d.setTreeDefect n t b on).unbuffered = d.unbuffered := by
  unfold Dev.setTreeDefect
  dsimp only
  split
  · exact d.unbuffered_when on (d.unbuffered_raiseLevel n _)
  · refine (Dev.unbuffered_when _ _ (Dev.unbuffered_indicate _ n t _)).trans ?_
    have marked : (((d.wr .treeDefects t (setBit (d.rd .treeDefects t) b on))).when on fun d =>
        d.modTree t fun x => { x with pm := x.pm.mark b }).unbuffered = d.unbuffered :=
      (Dev.unbuffered_when _ on (Dev.unbuffered_modTree _ t (f := fun x => { x with pm := x.pm.mark b }) fun _ => rfl)).trans
        (d.unbuffered_wr (r := .treeDefects) _ _ (by decide))
    split
    · rw [Dev.unbuffered_raiseLevel, Dev.unbuffered_bump _ _ (by decide), marked]
    · rw [Dev.unbuffered_dropLevel, marked]

theorem Dev.unbuffered_judgeRdi (n t : Nat) : (d.judgeRdi n t).unbuffered = d.unbuffered :=
  d.unbuffered_setTreeDefect n t 3 _

theorem Dev.unbuffered_mirrorTerm (n g : Nat) : (d.mirrorTerm n g).unbuffered = d.unbuffered := d.unbuffered_durable n _

theorem Dev.unbuffered_flushTermAddrs (g : Nat) : (d.flushTermAddrs g).unbuffered = d.unbuffered := by
  unfold Dev.flushTermAddrs
  split
  · rfl
  · exact Dev.unbuffered_add (r := .flushed) _ 0 _ (by decide)

theorem Dev.unbuffered_startTermHold (n g : Nat) : (d.startTermHold n g).unbuffered = d.unbuffered := by
  unfold Dev.startTermHold
  dsimp only
  split
  · exact d.unbuffered_flushTerm n g
  · rfl

theorem Dev.unbuffered_endTermHold (n g : Nat) : (d.endTermHold n g).unbuffered = d.unbuffered :=
  Dev.unbuffered_flushTerm _ n g

theorem Dev.unbuffered_resumeTerm (n g : Nat) : (d.resumeTerm n g).unbuffered = d.unbuffered :=
  d.unbuffered_settleTermHold n g

theorem Dev.unbuffered_ite {c : Prop} [Decidable c] {e f : Dev} (he : e.unbuffered = d.unbuffered)
    (hf : f.unbuffered = d.unbuffered) : (if c then e else f).unbuffered = d.unbuffered := by
  split
  · exact he
  · exact hf

/-- A new state of a terminal changes, of all that is told, the state alone. -/
theorem Dev.unbuffered_setTermState (n g : Nat) {st : Nat} (h : d.rd .termState g ≠ st) :
    (d.setTermState n g st).unbuffered = (d.wr .termState g st).unbuffered := by
  unfold Dev.setTermState
  dsimp only
  rw [if_neg h, Dev.unbuffered_mirrorTerm]
  have resumed := Dev.unbuffered_ite (d.wr .termState g st) (c := st = 2) (Dev.unbuffered_resumeTerm _ n g) rfl
  generalize (if st = 2 then (d.wr .termState g st).resumeTerm n g else d.wr .termState g st) = e at *
  have held := Dev.unbuffered_ite e (c := d.rd .termState g = 2 ∧ st ≠ 4) (e.unbuffered_startTermHold n g) rfl
  generalize (if d.rd .termState g = 2 ∧ st ≠ 4 then e.startTermHold n g else e) = f at *
  have ended := Dev.unbuffered_ite f (c := st = 4) (f.unbuffered_endTermHold n g) rfl
  generalize (if st = 4 then f.endTermHold n g else f) = k at *
  have flushed := Dev.unbuffered_ite k (c := st = 0 ∨ st = 4) (k.unbuffered_flushTermAddrs g) rfl
  generalize (if st = 0 ∨ st = 4 then k.flushTermAddrs g else k) = l at *
  have judged := Dev.unbuffered_ite l (c := d.rd .termState g = 2 ∨ st = 2) (l.unbuffered_judgeRdi n (treeOfTerm g)) rfl
  rw [judged, flushed, ended, held, resumed]

end Sys2Proof.Machine
end

section
/-!
PROOFS. Tree objects and terminal commands written (R35, R50, R66-R69, R79, R83, R361).
-/
namespace Sys2Proof.Machine
open Sys2Proof

variable (d : Dev)

@[simp] theorem Dev.durable_term (n : Nat) (f : Nat → MirrorRecord) (g : Nat) : (d.durable n f).term g = d.term g := by
  simp [Dev.term]

/-! ### TREE_ENABLE -/

theorem Reg.modulus_treeEnable : Reg.modulus .treeEnable = 256 := by decide +kernel
theorem Reg.modulus_lineMode : Reg.modulus .lineMode = 256 := by decide +kernel
theorem Reg.modulus_bpRate : Reg.modulus .bpRate = 256 := by decide +kernel

/-- An adaptation is counted and may load the tree's entries. -/
theorem Dev.adaptTree_rd (t : Nat) {r : Reg} (i : Nat) (h : r ∉ .rateForced :: entryRegs) :
    (d.adaptTree t).rd r i = d.rd r i := by
  rw [List.mem_cons, not_or] at h
  have counted : (d.bump .rateForced (quadOf t)).rd r i = d.rd r i := Dev.rd_wr_other _ _ _ _ h.1
  unfold Dev.adaptTree
  split
  · cases d.rd .lineMode t == 3
    · exact counted
    · exact (Dev.loadEntries_rd _ t (Or.inl h.2)).trans counted
  · rfl

theorem Dev.adaptTree_butTrees (t : Nat) : (d.adaptTree t).butTrees = d.butTrees := by
  unfold Dev.adaptTree
  split
  · cases d.rd .lineMode t == 3
    · rfl
    · exact Dev.loadEntries_butTrees _ t
  · rfl

theorem Dev.lightTree_lit (t : Nat) : ((d.lightTree t).tree t).lit = true ∧ (d.lightTree t).txdis t = false ∧
    (d.lightTree t).rd .treeEnable t = d.rd .treeEnable t ∧ (d.lightTree t).chip = d.chip := by
  have lit := (d.adaptTree t).light_lit t
  refine ⟨lit.lit, lit.txdis, (lit.regs _ _ (by decide)).trans (d.adaptTree_rd t t (by decide)), ?_⟩
  rw [Dev.lightTree, ← Dev.butTrees_chip, lit.rest, d.adaptTree_butTrees, Dev.butTrees_chip]

theorem Dev.setTreeEnable_lights (n t : Nat) (hoff : d.on .treeEnable t = false)
    (hmay : (d.wr .treeEnable t 1).mayLight t = true) : d.setTreeEnable n t 1 = (d.wr .treeEnable t 1).lightTree t := by
  unfold Dev.setTreeEnable
  dsimp only
  rw [hoff, hmay, if_pos rfl]
  rfl

theorem Dev.setTreeEnable_darkens (n t : Nat) : d.setTreeEnable n t 0 = (d.wr .treeEnable t 0).darken n t false := by
  unfold Dev.setTreeEnable
  exact if_neg (by decide)

section
variable {s : State} {n : Nat} {m : Master} {t : Nat}

theorem treeEnable_answered (h : s.dev.acceptsNum (max s.now n) m .treeEnable t 1 = true)
    (hoff : (s.dev.asked (max s.now n) m).on .treeEnable t = false)
    (hmay : ((s.dev.asked (max s.now n) m).wr .treeEnable t 1).mayLight t = true) :
    Answered (.treeEnableWrite n m t 1) s n m fun _ e =>
      e.rd .treeEnable t = 1 ∧ (e.tree t).lit = true ∧ bitAt (e.rd .txdisNow (quadOf t)) (t % 4) = false := by
  have lights := (s.dev.asked (max s.now n) m).setTreeEnable_lights (max s.now n) t hoff hmay
  obtain ⟨lit, txdis, enable, chip⟩ := ((s.dev.asked (max s.now n) m).wr .treeEnable t 1).lightTree_lit t
  rw [Dev.rd_wr_same, Reg.modulus_treeEnable] at enable
  rw [← lights] at lit txdis enable chip
  exact Answered.of_durable_action (Dev.setTreeEnable · (max s.now n) t 1) rfl h nofun nofun
    (fun d => d.stored_flag rfl (by decide)) (fun _ => rfl) chip ⟨enable, lit, txdis⟩
    (fun a e f he => by
      rw [Dev.durable_rd _ _ _ _ (by decide), Dev.durable_rd _ _ _ _ (by decide), Dev.durable_tree]
      exact he) fun _ _ he => he

theorem treeDisable_answered (h : s.dev.acceptsNum (max s.now n) m .treeEnable t 0 = true)
    (hempty : (s.dev.asked (max s.now n) m).emptyTree t) :
    Answered (.treeEnableWrite n m t 0) s n m fun _ e =>
      e.rd .treeEnable t = 0 ∧ (e.tree t).lit = false ∧ bitAt (e.rd .txdisNow (quadOf t)) (t % 4) = true := by
  have dark := Dev.darken_dark ((s.dev.asked (max s.now n) m).wr .treeEnable t 0) (max s.now n) fun g hg =>
    (Dev.rd_wr_other _ _ _ _ (by decide)).trans (hempty g hg)
  have enable := dark.regs .treeEnable t (by decide)
  rw [Dev.rd_wr_same, Nat.zero_mod] at enable
  rw [← Dev.setTreeEnable_darkens] at dark enable
  exact Answered.of_durable_action (Dev.setTreeEnable · (max s.now n) t 0) rfl h nofun nofun
    (fun d => d.stored_flag rfl (by decide)) (fun _ => rfl) dark.chip ⟨enable, dark.lit, dark.txdis⟩
    (fun a e f he => by
      rw [Dev.durable_rd _ _ _ _ (by decide), Dev.durable_rd _ _ _ _ (by decide), Dev.durable_tree]
      exact he) fun _ _ he => he

end

/-! ### LINE_MODE -/

theorem adaptRate_le {mode : Nat} (profile : Nat) (h : mode ≤ 3) : adaptRate profile mode ≤ 3 := by
  unfold adaptRate
  split
  · exact h
  · split <;> decide
  · split <;> decide
  · decide

/-- A tree has a new LINE_MODE, and its entries the rate that follows from it. -/
structure Dev.LineModeSet (d e : Dev) (t v : Nat) : Prop where
  mode : e.rd .lineMode t = v
  rates : ∀ k < 4, e.rd .bpRate (4 * t + k) = adaptRate (d.treeProfile t) v
  regs : ∀ r i, (r, i) ≠ (.lineMode, t) → (r = .bpRate → i / 4 ≠ t) → e.rd r i = d.rd r i
  chip : e.chip = d.chip

theorem Dev.setLineMode_set (t : Nat) {v : Nat} (hv : v ≤ 3) : d.LineModeSet (d.setLineMode t v) t v := by
  have mode : (d.wr .lineMode t v).rd .lineMode t = v := by
    rw [Dev.rd_wr_same, Reg.modulus_lineMode]
    omega
  have profile : (d.wr .lineMode t v).treeProfile t = d.treeProfile t := by
    unfold Dev.treeProfile Dev.profile
    rw [Dev.rd_wr_other _ _ _ _ (by decide), Dev.wr_quad]
  have kept : ∀ r i, (r = .bpRate → i / 4 ≠ t) → (d.setLineMode t v).rd r i = (d.wr .lineMode t v).rd r i :=
    fun r i h => Dev.each_keeps _ (Dev.rd · r i) fun e k hk => by
      rw [Dev.rd_wr, if_neg]
      rintro ⟨rfl, rfl⟩
      have := List.mem_range.1 hk
      exact h rfl (by omega)
  exact
    { mode := (kept .lineMode t nofun).trans mode
      rates := fun k hk => by
        obtain ⟨a, ha, -, hb⟩ := Dev.each_at_of (I := fun e => e.rates = (d.wr .lineMode t v).rates)
          (Dev.rd · .bpRate (4 * t + k)) (l := List.range 4) (f := fun e k => e.wr .bpRate (4 * t + k) (e.upRate t)) rfl
          List.nodup_range (List.mem_range.2 hk) (fun e he y _ => (e.rates_wr _ _ (by decide)).trans he)
          fun e _ y _ hy => Dev.rd_wr_elsewhere _ _ (by omega)
        have le := adaptRate_le (d.treeProfile t) hv
        refine Eq.trans hb ?_
        rw [Dev.rd_wr_same, Reg.modulus_bpRate, Dev.upRate_of_rates ha, Dev.upRate, mode, profile]
        omega
      regs := fun r i hm hr => (kept r i hr).trans (by
        rw [Dev.rd_wr, if_neg fun h => hm (Prod.ext h.1 h.2)])
      chip := Dev.each_keeps _ Dev.chip fun _ _ _ => rfl }

theorem stored_lineMode (d : Dev) (t v : Nat) : d.stored .lineMode t v = v := by
  change (if (Reg.row .lineMode).ty = .bool then v % 2 else v) = v
  exact if_neg (by decide +kernel)

section
variable {s : State} {n : Nat} {m : Master}

theorem lineMode_le_of_accepts {t v : Nat} (h : s.dev.acceptsNum (max s.now n) m .lineMode t v = true) : v ≤ 3 := by
  have good := Dev.goodValue_of_acceptsNum h
  change (!Chk.allows (.range 0 3) (if (Reg.row .lineMode).ty = .bool then v % 2 else v)) = false at good
  rw [if_neg (by decide +kernel)] at good
  simpa [Chk.allows] using good

theorem lineMode_answered {t v : Nat} (h : s.dev.acceptsNum (max s.now n) m .lineMode t v = true) :
    Answered (.lineModeWrite n m t v) s n m fun a e =>
      e.rd .lineMode t = v ∧ (∀ k < 4, e.rd .bpRate (4 * t + k) = adaptRate (a.treeProfile t) v) ∧
      ∀ r i, r ≠ .dseqSent → (r, i) ≠ (.lineMode, t) → (r = .bpRate → i / 4 ≠ t) → e.rd r i = a.rd r i := by
  have set := (s.dev.asked (max s.now n) m).setLineMode_set t (lineMode_le_of_accepts h)
  exact Answered.of_durable_action (Dev.setLineMode · t v) rfl h nofun nofun (fun d => stored_lineMode d t v)
    (fun _ => rfl) set.chip ⟨set.mode, set.rates, fun r i _ => set.regs r i⟩
    (fun a e f ⟨mode, rates, regs⟩ =>
      ⟨(e.durable_rd _ f t (by decide)).trans mode, fun k hk => (e.durable_rd _ f _ (by decide)).trans (rates k hk),
        fun r i hr hm hb => (e.durable_rd _ f i hr).trans (regs r i hr hm hb)⟩) fun _ _ he => he

end

/-! ### BP_VALID -/

/-- The message that tells the terminals of a tree that entry `k` is valid, or no longer. -/
def validMessage (v k : Nat) : Ploam := if v = 1 then .profileAnnounce k else .profileWithdraw k

/-- An entry's flag is set; a flag that changes is no longer announced, and a lit tree tells its terminals. -/
structure Dev.BpValidSet (d e : Dev) (i v : Nat) : Prop where
  flag : e.rd .bpValid i = v
  told : d.rd .bpValid i ≠ v → i % 4 ∉ (e.tree (i / 4)).announced ∧
    (e.tree (i / 4)).sequencer =
      (d.tree (i / 4)).sequencer ++ (if (d.tree (i / 4)).lit then [validMessage v (i % 4)] else [])
  regs : ∀ r j, (r, j) ≠ (.bpValid, i) → e.rd r j = d.rd r j
  chip : e.chip = d.chip

theorem Dev.setBpValid_set (i : Nat) {v : Nat} (hv : v < 2) : d.BpValidSet (d.setBpValid i v) i v := by
  have flag : (d.wr .bpValid i v).rd .bpValid i = v := by
    rw [Dev.rd_wr_same, Reg.modulus_bpValid]
    omega
  have regs : ∀ r j, (r, j) ≠ (.bpValid, i) → (d.wr .bpValid i v).rd r j = d.rd r j := fun r j h => by
    rw [Dev.rd_wr, if_neg fun e => h (Prod.ext e.1 e.2)]
  have forgotten : ((d.wr .bpValid i v).modTree (i / 4) fun x => { x with
      announced := x.announced.filter (· != i % 4) }).tree (i / 4) =
      { d.tree (i / 4) with announced := (d.tree (i / 4)).announced.filter (· != i % 4) } :=
    (Dev.tree_modTree _ _ _ _).trans (if_pos rfl)
  have absent : i % 4 ∉ (d.tree (i / 4)).announced.filter (· != i % 4) := by simp
  unfold Dev.setBpValid
  dsimp only
  by_cases same : v = d.rd .bpValid i
  · rw [if_pos same]
    exact ⟨flag, fun h => absurd same.symm h, regs, rfl⟩
  · rw [if_neg same, forgotten]
    by_cases lit : (d.tree (i / 4)).lit = true
    · rw [if_pos lit]
      refine ⟨flag, fun _ => ?_, regs, rfl⟩
      rw [Dev.seqMsg, Dev.tree_modTree, if_pos rfl, forgotten, if_pos lit]
      exact ⟨absent, rfl⟩
    · rw [if_neg lit]
      refine ⟨flag, fun _ => ?_, regs, rfl⟩
      rw [forgotten, if_neg lit, List.append_nil]
      exact ⟨absent, rfl⟩

theorem bpValid_answered {s : State} {n : Nat} {m : Master} {i v : Nat} (hv : v < 2)
    (h : s.dev.acceptsNum (max s.now n) m .bpValid i v = true) : Answered (.bpValidWrite n m i v) s n m fun a e =>
      e.rd .bpValid i = v ∧
      (a.rd .bpValid i ≠ v → i % 4 ∉ (e.tree (i / 4)).announced ∧
        (e.tree (i / 4)).sequencer =
          (a.tree (i / 4)).sequencer ++ (if (a.tree (i / 4)).lit then [validMessage v (i % 4)] else [])) ∧
      ∀ r j, r ≠ .dseqSent → (r, j) ≠ (.bpValid, i) → e.rd r j = a.rd r j := by
  have set := (s.dev.asked (max s.now n) m).setBpValid_set i hv
  exact Answered.of_durable_action (Dev.setBpValid · i v) rfl h nofun nofun (fun d => d.stored_flag rfl hv)
    (fun _ => rfl) set.chip ⟨set.flag, set.told, fun r j _ => set.regs r j⟩
    (fun a e f ⟨flag, told, regs⟩ => by
      rw [Dev.durable_rd _ _ _ _ (by decide), Dev.durable_tree]
      exact ⟨flag, told, fun r j hr hj => (e.durable_rd _ f j hr).trans (regs r j hr hj)⟩) fun _ _ he => he

/-! ### Terminals that leave service -/

/-- A terminal that leaves service loses grants and an update, which no queue of messages of a tree holds. -/
theorem Dev.unbuffered_retireTerm (g : Nat) : (d.retireTerm g).unbuffered = d.unbuffered := by
  have updated : (d.dropUpdate g).unbuffered = d.unbuffered := by
    unfold Dev.dropUpdate
    dsimp only
    rw [Dev.unbuffered_modTerm]
    split
    · exact d.unbuffered_modTree _ (f := fun x => { x with ranging := x.ranging.filter _ }) fun _ => rfl
    · rfl
  rw [← updated]
  exact Dev.unbuffered_modTree _ (treeOfTerm g) (f := fun x => { x with
    maps := x.maps.map fun m => m.orphan (g % 512), rangeWanted := x.rangeWanted.filter (· != g) }) fun _ => rfl

/-- The state that a terminal has taken. -/
theorem Dev.setTermState_rd (n g : Nat) {st : Nat} (h : d.rd .termState g ≠ st) :
    (d.setTermState n g st).rd .termState g = st % Reg.modulus .termState := by
  rw [Dev.rd_of_unbuffered (d.unbuffered_setTermState n g h) g (by decide), Dev.rd_wr_same]

theorem Reg.modulus_termState : Reg.modulus .termState = 256 := by decide +kernel

/-- The registers of a terminal that EMPTY clears. -/
def emptyRegs : List Reg := [.termState, .eqdBits, .bpEntry]

/-- A terminal has returned to EMPTY. -/
structure Dev.Emptied (d e : Dev) (g : Nat) : Prop where
  cleared : ∀ r ∈ emptyRegs, e.rd r g = 0
  regs : ∀ r i, r ∉ bufferRegs → r ∉ emptyRegs → e.rd r i = d.rd r i
  sequencer : ∀ t, (e.tree t).sequencer = (d.tree t).sequencer
  chip : e.chip = d.chip

theorem Dev.toEmpty_emptied (n g : Nat) (h : d.rd .termState g ≠ 0) : d.Emptied (d.toEmpty n g false) g := by
  have retired := d.unbuffered_retireTerm g
  have state : (d.forgetTerm g).rd .termState g ≠ 0 := by
    rwa [Dev.forgetTerm, Dev.rd_wr_other _ _ _ _ (by decide), Dev.rd_wr_other _ _ _ _ (by decide),
      Dev.rd_of_unbuffered retired g (by decide)]
  have emptied : (d.toEmpty n g false).unbuffered = ((d.forgetTerm g).wr .termState g 0).unbuffered :=
    Dev.unbuffered_setTermState _ n g state
  exact
    { cleared := fun r hr => by
        rw [Dev.rd_of_unbuffered emptied g (by revert r; decide), Dev.forgetTerm]
        simp only [emptyRegs, List.mem_cons, List.not_mem_nil, or_false] at hr
        rcases hr with rfl | rfl | rfl <;> simp [Dev.rd_wr]
      regs := fun r i hb he => by
        simp only [emptyRegs, List.mem_cons, List.not_mem_nil, or_false, not_or] at he
        rw [Dev.rd_of_unbuffered emptied i hb, Dev.rd_wr_other _ _ _ _ he.1, Dev.forgetTerm,
          Dev.rd_wr_other _ _ _ _ he.2.2, Dev.rd_wr_other _ _ _ _ he.2.1, Dev.rd_of_unbuffered retired i hb]
      sequencer := fun t => (Dev.sequencer_of_unbuffered emptied t).trans (Dev.sequencer_of_unbuffered retired t)
      chip := by
        rw [Dev.chip_of_unbuffered emptied, Dev.wr_chip, Dev.forgetTerm, Dev.wr_chip, Dev.wr_chip,
          Dev.chip_of_unbuffered retired] }

theorem Dev.inState_iff {g st : Nat} : d.inState g st = true ↔ d.rd .termState g = st := beq_iff_eq

theorem Dev.mem_seqMsg (t : Nat) (p : Ploam) : p ∈ ((d.seqMsg t p).tree t).sequencer := by
  rw [Dev.seqMsg, Dev.tree_modTree, if_pos rfl]
  simp

/-! ### The host's commands to a terminal -/

/-- A terminal is in EMPTY without delay and entry, and where its tree is lit the message is queued. -/
def Dev.EmptyTold (e : Dev) (g : Nat) (lit : Bool) (p : Ploam) : Prop :=
  (∀ r ∈ emptyRegs, e.rd r g = 0) ∧ (lit = true → p ∈ (e.tree (treeOfTerm g)).sequencer)

theorem Dev.EmptyTold.durable {e : Dev} {g : Nat} {lit : Bool} {p : Ploam} (h : e.EmptyTold g lit p) (n : Nat)
    (f : Nat → MirrorRecord) : (e.durable n f).EmptyTold g lit p := by
  refine ⟨fun r hr => (e.durable_rd n f g ?_).trans (h.1 r hr), fun hl => ?_⟩
  · rintro rfl
    exact absurd hr (by decide)
  · rw [Dev.durable_tree]
    exact h.2 hl

theorem Dev.termCommand_deactivates (n g : Nat) (h : d.rd .termState g ≠ 0) :
    (d.termCommand n g 1).EmptyTold g (d.tree (treeOfTerm g)).lit (.deactivate (d.rd .onuId g)) ∧
    (d.termCommand n g 1).chip = d.chip := by
  have command : d.termCommand n g 1 = d.toEmpty n g (d.tree (treeOfTerm g)).lit := by
    unfold Dev.termCommand
    dsimp only
    rw [if_pos rfl, if_neg (mt d.inState_iff.1 h)]
  rw [command]
  cases (d.tree (treeOfTerm g)).lit
  · have emptied := d.toEmpty_emptied n g h
    exact ⟨⟨emptied.cleared, nofun⟩, emptied.chip⟩
  · have emptied := (d.seqMsg (treeOfTerm g) (.deactivate (d.rd .onuId g))).toEmpty_emptied n g h
    refine ⟨⟨emptied.cleared, fun _ => ?_⟩, emptied.chip⟩
    have queued := d.mem_seqMsg (treeOfTerm g) (.deactivate (d.rd .onuId g))
    rw [← emptied.sequencer] at queued
    exact queued

theorem Dev.termCommand_quarantines (n g : Nat) (h : d.rd .termState g ≠ 4) :
    (d.termCommand n g 2).rd .termState g = 4 ∧ ((d.termCommand n g 2).term g).disableLeft = 3 ∧
    (d.termCommand n g 2).chip = d.chip := by
  have command : d.termCommand n g 2 = d.toQuarantine n g := by
    unfold Dev.termCommand
    dsimp only
    rw [if_neg (by decide), if_pos rfl, if_neg (mt d.inState_iff.1 h)]
  have retired := d.unbuffered_retireTerm g
  have state : (d.retireTerm g).rd .termState g ≠ 4 := by rwa [Dev.rd_of_unbuffered retired g (by decide)]
  rw [command, Dev.toQuarantine, Dev.modTerm_rd, Dev.setTermState_rd _ n g state, Reg.modulus_termState, Dev.term_modTerm,
    if_pos rfl, Dev.modTerm_chip, Dev.chip_of_unbuffered (Dev.unbuffered_setTermState _ n g state), Dev.wr_chip,
    Dev.chip_of_unbuffered retired]
  exact ⟨rfl, rfl, rfl⟩

theorem Dev.termCommand_releases (n g : Nat) (h : d.rd .termState g = 4) :
    (d.termCommand n g 3).EmptyTold g (d.tree (treeOfTerm g)).lit (.enable (d.rd .snProvision g)) ∧
    (d.termCommand n g 3).chip = d.chip := by
  have command : d.termCommand n g 3 = (d.toEmpty n g false).when (d.tree (treeOfTerm g)).lit fun e =>
      e.seqMsg (treeOfTerm g) (.enable (e.rd .snProvision g)) := by
    unfold Dev.termCommand
    dsimp only
    rw [if_neg (by decide), if_neg (by decide), if_pos (d.inState_iff.2 h)]
  have emptied := d.toEmpty_emptied n g (by rw [h]; decide)
  rw [command]
  cases (d.tree (treeOfTerm g)).lit
  · exact ⟨⟨emptied.cleared, nofun⟩, emptied.chip⟩
  · rw [Dev.when_true, emptied.regs .snProvision g (by decide) (by decide)]
    exact ⟨⟨emptied.cleared, fun _ => Dev.mem_seqMsg _ _ _⟩, emptied.chip⟩

theorem stored_termCommand (d : Dev) (g v : Nat) : d.stored .termCommand g v = v := by
  change (if (Reg.row .termCommand).ty = .bool then v % 2 else v) = v
  exact if_neg (by decide +kernel)

section
variable {s : State} {n : Nat} {m : Master} {g : Nat}

theorem deactivate_answered (h : s.dev.acceptsNum (max s.now n) m .termCommand g 1 = true)
    (hs : (s.dev.asked (max s.now n) m).rd .termState g ≠ 0) : Answered (.terminalDeactivate n m g) s n m fun a e =>
      e.EmptyTold g (a.tree (treeOfTerm g)).lit (.deactivate (a.rd .onuId g)) := by
  obtain ⟨told, chip⟩ := (s.dev.asked (max s.now n) m).termCommand_deactivates (max s.now n) g hs
  exact Answered.of_durable_action (Dev.termCommand · (max s.now n) g 1) rfl h nofun nofun
    (fun d => stored_termCommand d g 1) (fun _ => rfl) chip told (fun _ _ f he => he.durable _ f) fun _ _ he => he

theorem quarantine_answered (h : s.dev.acceptsNum (max s.now n) m .termCommand g 2 = true)
    (hs : (s.dev.asked (max s.now n) m).rd .termState g ≠ 4) : Answered (.terminalQuarantine n m g) s n m fun _ e =>
      e.rd .termState g = 4 ∧ (e.term g).disableLeft = 3 := by
  obtain ⟨state, disable, chip⟩ := (s.dev.asked (max s.now n) m).termCommand_quarantines (max s.now n) g hs
  exact Answered.of_durable_action (Dev.termCommand · (max s.now n) g 2) rfl h nofun nofun
    (fun d => stored_termCommand d g 2) (fun _ => rfl) chip ⟨state, disable⟩
    (fun _ _ f he => by rwa [Dev.durable_rd _ _ _ _ (by decide), Dev.durable_term]) fun _ _ he => he

theorem release_answered (h : s.dev.acceptsNum (max s.now n) m .termCommand g 3 = true)
    (hs : (s.dev.asked (max s.now n) m).rd .termState g = 4) : Answered (.terminalRelease n m g) s n m fun a e =>
      e.EmptyTold g (a.tree (treeOfTerm g)).lit (.enable (a.rd .snProvision g)) := by
  obtain ⟨told, chip⟩ := (s.dev.asked (max s.now n) m).termCommand_releases (max s.now n) g hs
  exact Answered.of_durable_action (Dev.termCommand · (max s.now n) g 3) rfl h nofun nofun
    (fun d => stored_termCommand d g 3) (fun _ => rfl) chip told (fun _ _ f he => he.durable _ f) fun _ _ he => he

end

/-- Settles O24: a write does its action, and buffers, defects and durable records, which may follow, undo none of it. -/
theorem treesAndTerminalsWritten : Obligations.TreesAndTerminalsWritten := by
  unfold Obligations.TreesAndTerminalsWritten
  refine ⟨fun s n m t v => ⟨treeEnable_answered, treeDisable_answered, lineMode_answered, fun i hv => bpValid_answered hv⟩,
    fun s n m g => ⟨fun h hs _ => ?_, quarantine_answered, fun h hs => ?_⟩⟩
  · exact (deactivate_answered h hs).imp fun a e ⟨cleared, told⟩ =>
      ⟨cleared _ (by decide), cleared _ (by decide), cleared _ (by decide), told⟩
  · exact (release_answered h hs).imp fun a e ⟨cleared, told⟩ => ⟨cleared _ (by decide), told⟩

end Sys2Proof.Machine
end

section
/-!
PROOFS. Mate frames and words on the heartbeat pins as they arrive (R51, R260, R270, R271).
-/
namespace Sys2Proof.Machine
open Sys2Proof

variable (d : Dev)

/-! ### Commands of the whole device, counters -/

/-- A command of the whole device completes with what it does at its tick. -/
theorem completes_at {c : Instr} {s : State} {n : Nat} {f : Nat → Dev → Dev} {p : Dev → Prop}
    (hc : exec c s = .next (s.at_ n f)) (hp : p (f (max s.now n) s.dev)) : Completes c s n p :=
  ⟨_, hc, rfl, rfl, hp⟩

/-- A counter of 64 bits advanced by one (R292). -/
theorem Dev.rd_bump_counter {r : Reg} (i : Nat) (h : r.modulus = 2 ^ 64) :
    (d.bump r i).rd r i = (d.rd r i + 1) % 2 ^ 64 := by
  rw [Dev.rd_bump, if_pos ⟨rfl, rfl⟩, h]

theorem Dev.bump_rd_other {r q : Reg} (i j : Nat) (h : q ≠ r) : (d.bump r i).rd q j = d.rd q j :=
  d.rd_wr_other _ _ _ h

@[simp] theorem Dev.bump_mate (r : Reg) (i : Nat) : (d.bump r i).mate = d.mate := rfl

theorem Dev.onlyRegs_bump (r : Reg) (i : Nat) : d.onlyRegs (d.bump r i) [(r, i)] := d.onlyRegs_wr r i _

variable {d} in
theorem Dev.mate_of_butFaults {e : Dev} (h : e.butFaults = d.butFaults) : e.mate = d.mate := by
  change e.butFaults.mate = d.butFaults.mate
  rw [h]

theorem Reg.modulus_mateFramesRx : Reg.modulus .mateFramesRx = 2 ^ 64 := by decide +kernel
theorem Reg.modulus_mateSeqGap : Reg.modulus .mateSeqGap = 2 ^ 64 := by decide +kernel
theorem Reg.modulus_hbWordErr : Reg.modulus .hbWordErr = 2 ^ 64 := by decide +kernel
theorem Reg.modulus_hbRxPins : Reg.modulus .hbRxPins = 2 ^ 64 := by decide +kernel
theorem Reg.modulus_pathState : Reg.modulus .pathState = 2 ^ 32 := by decide +kernel

/-! ### The Delineator in SYNC (R51) -/

variable {n : Nat} {f : MateFrameIn}

theorem Dev.mateFrame_sync (hu : d.rd .mateState 0 ≠ 0) (hs : d.mate.hunt = false)
    (hf : mateHeaderCheck f ≠ .uncorrectable) :
    d.mateFrame n f = (d.modMate fun m => { m with lastBad := false }).takeMateFrame n f := by
  unfold Dev.mateFrame
  rw [if_neg (by simp [hu]), hs]
  cases hc : mateHeaderCheck f with
  | fits | corrected => rfl
  | uncorrectable => exact absurd hc hf

theorem Dev.mateFrame_uncorrectable (hu : d.rd .mateState 0 ≠ 0) (hs : d.mate.hunt = false)
    (hf : mateHeaderCheck f = .uncorrectable) :
    d.mateFrame n f = if d.mate.lastBad then
        d.modMate fun m => { m with hunt := true, huntSince := n, held := none, lastBad := false, pm := { m.pm with err := true } }
      else d.modMate fun m => { m with lastBad := true, pm := { m.pm with err := true } } := by
  unfold Dev.mateFrame
  rw [if_neg (by simp [hu]), hs, hf]
  rfl

/-! ### A frame that is taken (R260) -/

/-- A frame counted, and a gap where its sequence number `seq` does not follow the last one's. -/
def Dev.countMateFrame (d : Dev) (seq : Nat) : Dev :=
  match d.mate.seqRx with
  | some k => if (k + 1) % 65536 = seq then d.bump .mateFramesRx 0 else (d.bump .mateFramesRx 0).bump .mateSeqGap 0
  | none => d.bump .mateFramesRx 0

/-- A frame without content is counted and judged, and that is all. -/
theorem Dev.takeMateFrame_empty (h : mateType f.header = 0) :
    d.takeMateFrame n f = (d.countMateFrame (field f.header 24 16)).modMate fun m => { m with
      seqRx := some (field f.header 24 16), aisBit := some (bitAt f.header 45), rdiBit := some (bitAt f.header 44) } := by
  have content : ∀ d : Dev, d.mateContent n f = d := fun d => by
    unfold Dev.mateContent
    rw [h]
    rfl
  unfold Dev.takeMateFrame
  rw [content]
  rfl

theorem Dev.countMateFrame_mate (seq : Nat) : (d.countMateFrame seq).mate = d.mate := by
  unfold Dev.countMateFrame
  split
  · split <;> simp only [Dev.bump_mate]
  · exact d.bump_mate _ _

theorem Dev.countMateFrame_framesRx (seq : Nat) :
    (d.countMateFrame seq).rd .mateFramesRx 0 = (d.rd .mateFramesRx 0 + 1) % 2 ^ 64 := by
  have counted := d.rd_bump_counter 0 Reg.modulus_mateFramesRx
  unfold Dev.countMateFrame
  split
  · split
    · exact counted
    · exact (Dev.bump_rd_other _ _ _ (by decide)).trans counted
  · exact counted

theorem Dev.countMateFrame_seqGap {seq k : Nat} (h : d.mate.seqRx = some k) :
    (d.countMateFrame seq).rd .mateSeqGap 0 =
      if (k + 1) % 65536 = seq then d.rd .mateSeqGap 0 else (d.rd .mateSeqGap 0 + 1) % 2 ^ 64 := by
  have framesRx : (d.bump .mateFramesRx 0).rd .mateSeqGap 0 = d.rd .mateSeqGap 0 := d.bump_rd_other _ _ (by decide)
  unfold Dev.countMateFrame
  rw [h]
  dsimp only
  split
  · exact framesRx
  · rw [Dev.rd_bump_counter _ _ Reg.modulus_mateSeqGap, framesRx]

theorem Dev.countMateFrame_kept (seq : Nat) : d.regsKept (d.countMateFrame seq) [(.mateFramesRx, 0), (.mateSeqGap, 0)] := by
  intro r i hr
  simp only [List.mem_cons, Prod.mk.injEq, List.not_mem_nil, or_false, not_or] at hr
  have framesRx : (d.bump .mateFramesRx 0).rd r i = d.rd r i := (d.rd_bump _ _ _ _).trans (if_neg hr.1)
  unfold Dev.countMateFrame
  split
  · split
    · exact framesRx
    · exact ((Dev.rd_bump _ _ _ _ _).trans (if_neg hr.2)).trans framesRx
  · exact framesRx

/-! ### What a frame brings -/

theorem Dev.takeArrived_nil (n : Nat) (h : d.mate.arrived = []) : d.takeArrived n = d := by
  unfold Dev.takeArrived
  split
  · rfl
  · rw [h]
    show ({ d with mate := { d.mate with arrived := (d.mate.arrived.filter recordExists).filter _ } } : Dev) = d
    rw [h, List.filter_nil, List.filter_nil, ← h]

theorem Dev.startStream_not_due (n : Nat) (h : d.mate.streamDue = false) : d.startStream n = d := by
  unfold Dev.startStream
  rw [h]
  rfl

/-- With no record waiting and no stream owed, a mate frame is its Delineator's work alone. -/
theorem Dev.mateArrival_quiet (ha : (d.mateFrame n f).mate.arrived = []) (hs : (d.mateFrame n f).mate.streamDue = false) :
    d.mateArrival n f = d.mateFrame n f := by
  unfold Dev.mateArrival
  rw [Dev.takeArrived_nil _ n ha, Dev.startStream_not_due _ n hs]

variable {s : State}

theorem mateFrameReceive_empty (hu : s.dev.rd .mateState 0 ≠ 0) (hh : s.dev.mate.hunt = false)
    (ha : s.dev.mate.arrived = []) (hs : s.dev.mate.streamDue = false) (hf : mateHeaderCheck f ≠ .uncorrectable)
    (ht : mateType f.header = 0) : Completes (.mateFrameReceive n f) s n fun e =>
      e.rd .mateFramesRx 0 = (s.dev.rd .mateFramesRx 0 + 1) % 2 ^ 64 ∧ e.mate.seqRx = some (field f.header 24 16) ∧
      (∀ k, s.dev.mate.seqRx = some k → e.rd .mateSeqGap 0 =
        (if (k + 1) % 65536 = field f.header 24 16 then s.dev.rd .mateSeqGap 0
          else (s.dev.rd .mateSeqGap 0 + 1) % 2 ^ 64)) ∧
      s.dev.regsKept e [(.mateFramesRx, 0), (.mateSeqGap, 0)] := by
  refine completes_at rfl ?_
  have taken : s.dev.mateFrame (max s.now n) f = _ :=
    (s.dev.mateFrame_sync hu hh hf).trans (Dev.takeMateFrame_empty _ ht)
  have mate := (s.dev.modMate fun m => { m with lastBad := false }).countMateFrame_mate (field f.header 24 16)
  rw [Dev.mateArrival_quiet _ (by rw [taken, Dev.mate_modMate, mate]; exact ha)
    (by rw [taken, Dev.mate_modMate, mate]; exact hs), taken]
  exact ⟨Dev.countMateFrame_framesRx _ _, rfl, fun k hk => Dev.countMateFrame_seqGap _ hk, Dev.countMateFrame_kept _ _⟩

theorem mateFrameReceive_uncorrectable (hu : s.dev.rd .mateState 0 ≠ 0) (hh : s.dev.mate.hunt = false)
    (ha : s.dev.mate.arrived = []) (hs : s.dev.mate.streamDue = false) (hf : mateHeaderCheck f = .uncorrectable) :
    Completes (.mateFrameReceive n f) s n fun e =>
      e.mate.hunt = s.dev.mate.lastBad ∧ e.mate.lastBad = !s.dev.mate.lastBad ∧ e.regs = s.dev.regs := by
  refine completes_at rfl ?_
  have heard := s.dev.mateFrame_uncorrectable (n := max s.now n) hu hh hf
  cases hb : s.dev.mate.lastBad with
  | true =>
    rw [if_pos hb] at heard
    rw [Dev.mateArrival_quiet _ (by rw [heard]; exact ha) (by rw [heard]; exact hs), heard]
    exact ⟨rfl, rfl, rfl⟩
  | false =>
    rw [if_neg (by simp [hb])] at heard
    rw [Dev.mateArrival_quiet _ (by rw [heard]; exact ha) (by rw [heard]; exact hs), heard]
    exact ⟨hh, rfl, rfl⟩

/-! ### Words on the pins (R271) -/

/-- A word of the pins that is a heartbeat: its SYNC and its CRC are right. -/
def validWord (w : Nat) : Prop := field w 24 8 = 0xB4 ∧ crc8 (toBytes 3 (w / 256 % 2 ^ 24)) = w % 256

theorem Dev.pinBeat_invalid {w : Nat} (hr : d.on .redundancyEnable 0 = true) (h : ¬validWord w) :
    d.pinBeat n w = (d.bump .hbWordErr 0).raise n { source := 401 } := by
  unfold Dev.pinBeat
  rw [hr, if_neg (by decide), if_pos (by simpa only [validWord, not_and_or] using h)]

theorem Dev.pinBeat_plain {w : Nat} (hr : d.on .redundancyEnable 0 = true) (h : validWord w) (hk : field w 22 2 = 0) :
    d.pinBeat n w = d.beatHeard n .pins (bitAt w 21) false := by
  unfold Dev.pinBeat
  rw [hr, if_neg (by decide), if_neg (by simpa only [validWord, not_and_or, not_or, not_not] using h), hk]
  rfl

theorem heartbeatReceive_invalid {w : Nat} (hr : s.dev.on .redundancyEnable 0 = true) (h : ¬validWord w) :
    Completes (.heartbeatReceive n (.pins w)) s n fun e =>
      e.rd .hbWordErr 0 = (s.dev.rd .hbWordErr 0 + 1) % 2 ^ 64 ∧ e.mate = s.dev.mate ∧
      ∀ r i, r ∉ [.hbWordErr, .occurrences] → e.rd r i = s.dev.rd r i := by
  refine completes_at (f := fun n d => d.pinBeat n w) rfl ?_
  rw [Dev.pinBeat_invalid _ hr h]
  refine ⟨?_, (Dev.mate_of_butFaults (Dev.raise_butFaults _ _ _)).trans (Dev.bump_mate _ _ _), fun r i hri => ?_⟩
  · rw [Dev.raise_rd _ _ _ _ (by decide), Dev.rd_bump_counter _ _ Reg.modulus_hbWordErr]
  · simp only [List.mem_cons, List.not_mem_nil, or_false, not_or] at hri
    rw [Dev.raise_rd _ _ _ _ hri.2, Dev.bump_rd_other _ _ _ hri.1]

/-- The device once a heartbeat on the pins is counted and timed and its path live again. -/
def Dev.countBeat (d : Dev) (n : Nat) : Dev :=
  ((d.bump .hbRxPins 0).modMate fun m => { m with pinsAt := some n }).wr .pathState 0 (setBit (d.rd .pathState 0) 1 true)

/-- What a heartbeat says of the roles and of a relinquish (R265, R276, R278). -/
def Mate.noteBeat (active refuse : Bool) (m : Mate) : Mate :=
  { m with
    bothSilent := none,
    heardRole1 := m.heardRole1 || (m.joiningAt.isSome && active),
    heardRole0 := m.heardRole0 || (m.joiningAt.isSome && !active),
    refuseHeard := m.refuseHeard || (m.relinquishing.isSome && refuse) }

theorem Dev.countBeat_rd (n : Nat) {r : Reg} (i : Nat) (h : r ≠ .pathState) :
    (d.countBeat n).rd r i = (d.bump .hbRxPins 0).rd r i :=
  (Dev.rd_wr_other _ _ _ _ h).trans (Dev.modMate_rd _ _ _ _)

theorem Dev.countBeat_mate (n : Nat) : (d.countBeat n).mate = { d.mate with pinsAt := some n } := by
  rw [Dev.countBeat, Dev.wr_mate, Dev.mate_modMate, Dev.bump_mate]

/-- A unit that is not STANDBY keeps no frame that a heartbeat would free. -/
theorem Dev.beatHeard_pins (active refuse : Bool) (h : d.rd .unitRole 0 ≠ 2) :
    d.beatHeard n .pins active refuse = ((d.countBeat n).dropLevel 395).modMate (Mate.noteBeat active refuse) := by
  have path : (d.bump .hbRxPins 0).rd .pathState 0 = d.rd .pathState 0 := d.bump_rd_other _ _ (by decide)
  have role : (((d.countBeat n).dropLevel 395).modMate (Mate.noteBeat active refuse)).rd .unitRole 0 ≠ 2 := by
    rwa [Dev.modMate_rd, Dev.dropLevel_rd, Dev.countBeat_rd _ _ _ (by decide), Dev.bump_rd_other _ _ _ (by decide)]
  unfold Dev.beatHeard
  simp only [pathBit, Dev.modMate_rd, path]
  exact if_neg role

theorem heartbeatReceive_plain {w : Nat} (hr : s.dev.on .redundancyEnable 0 = true) (h : validWord w)
    (hk : field w 22 2 = 0) (hu : s.dev.rd .unitRole 0 ≠ 2) : Completes (.heartbeatReceive n (.pins w)) s n fun e =>
      e.rd .hbRxPins 0 = (s.dev.rd .hbRxPins 0 + 1) % 2 ^ 64 ∧ bitAt (e.rd .pathState 0) 1 = true ∧
      e.mate.pinsAt = some (max s.now n) ∧ s.dev.released e 395 ∧
      s.dev.regsKept e [(.hbRxPins, 0), (.pathState, 0)] := by
  refine completes_at (f := fun n d => d.pinBeat n w) rfl ?_
  rw [Dev.pinBeat_plain _ hr h hk]
  rw [Dev.beatHeard_pins _ _ _ hu]
  refine ⟨?_, ?_, ?_, (s.dev.countBeat _).dropLevel_released 395, fun r i hri => ?_⟩
  · rw [Dev.modMate_rd, Dev.dropLevel_rd, Dev.countBeat_rd _ _ _ (by decide),
      Dev.rd_bump_counter _ _ Reg.modulus_hbRxPins]
  · rw [Dev.modMate_rd, Dev.dropLevel_rd, Dev.countBeat, Dev.rd_wr_same, Reg.modulus_pathState,
      bitAt_mod_two_pow (by decide), bitAt_setBit]
  · rw [Dev.mate_modMate, Dev.mate_of_butFaults (Dev.dropLevel_butFaults _ 395), Dev.countBeat_mate]
    rfl
  · simp only [List.mem_cons, Prod.mk.injEq, List.not_mem_nil, or_false, not_or] at hri
    rw [Dev.modMate_rd, Dev.dropLevel_rd, Dev.countBeat, Dev.rd_wr, if_neg hri.2, Dev.modMate_rd, Dev.rd_bump,
      if_neg hri.1]

/-- Settles O54: in SYNC a header decides alone whether its frame is taken, and a word's SYNC and CRC whether it is a
heartbeat. -/
theorem matePathsHeard : Obligations.MatePathsHeard := by
  unfold Obligations.MatePathsHeard
  exact fun s n => ⟨fun f hu hh ha hs => ⟨mateFrameReceive_empty hu hh ha hs, mateFrameReceive_uncorrectable hu hh ha hs⟩,
    fun w hr => ⟨heartbeatReceive_invalid hr, heartbeatReceive_plain hr⟩⟩

end Sys2Proof.Machine
end

section
/-!
PROOFS. Downstream frames enciphered into the payload of the running frame (R43, R117, R118, R125).
-/
namespace Sys2Proof.Machine
open Sys2Proof

variable (d : Dev)

/-! ### Frames followed by the Latency Sampler -/

@[simp] theorem Dev.follow_tree (id : Option Nat) (g : Followed → Followed) (t : Nat) :
    (d.follow id g).tree t = d.tree t := by
  unfold Dev.follow
  split <;> rfl

@[simp] theorem Dev.follow_rd (id : Option Nat) (g : Followed → Followed) (r : Reg) (i : Nat) :
    (d.follow id g).rd r i = d.rd r i := by
  unfold Dev.follow
  split <;> rfl

@[simp] theorem Dev.follow_wire (id : Option Nat) (g : Followed → Followed) : (d.follow id g).wire = d.wire := by
  unfold Dev.follow
  split <;> rfl

@[simp] theorem Dev.sampleDone_wire (id : Option Nat) (outcome : Nat) : (d.sampleDone id outcome).wire = d.wire := by
  unfold Dev.sampleDone
  split
  · rfl
  · split <;> rfl

@[simp] theorem Dev.sampleDone_none (outcome : Nat) : d.sampleDone none outcome = d := rfl

theorem Dev.tree_modTree_same (t : Nat) (g : Tree → Tree) : (d.modTree t g).tree t = g (d.tree t) := by
  rw [Dev.tree_modTree, if_pos rfl]

namespace Dev.Ciphers

variable {d e : Dev}

theorem wire (h : d.Ciphers e) : e.wire = d.wire := by
  change e.butCiphers.wire = d.butCiphers.wire
  rw [h.rest]

theorem room (h : d.Ciphers e) (t : Nat) : (e.tree t).room = (d.tree t).room := by rw [h.tree t]

theorem payload (h : d.Ciphers e) (t : Nat) : (e.tree t).payload = (d.tree t).payload := by rw [h.tree t]

theorem queueStream (d : Dev) (n q : Nat) (src : JobSource) (slot : Option Nat) (ctr pos blocks : Nat) :
    d.Ciphers (d.queueStream n q src slot ctr pos blocks) :=
  each d fun d _ _ => queueJob d n q src slot _ _ _

theorem downKeystream (d : Dev) (n t slot ctr bytes : Nat) : d.Ciphers (d.downKeystream n t slot ctr bytes).2 :=
  (settleBank d n (quadOf t)).trans (queueStream ..)

end Dev.Ciphers

/-! ### What becomes of the oldest frame of a payload -/

/-- The oldest frame goes, counted for its terminal. -/
def Dev.dropFront (d : Dev) (t : Nat) (f : DownFrame) (rest : List DownFrame) (r : Reg) : Dev :=
  ((d.modTree t fun x => { x with payload := rest }).bump r f.terminal).sampleDone f.sampled 7

/-- An idle frame of `bytes` bytes takes the position of one whose keystream is late (R118). -/
def Dev.fillLate (d : Dev) (t bytes : Nat) : Dev :=
  (((d.modTree t fun x => x.takeRoom bytes).bump .dsLate (quadOf t)).add .idleFillBytes t bytes).emit (.idleFill t bytes)

/-- A frame waits for the next payload with the bytes `left`. -/
def DownFrame.leftOver (f : DownFrame) (part left : Bytes) : DownFrame :=
  { f with bytes := left, placed := f.placed + part.length }

/-- The bytes `part` of a frame leave as `x` (R43). -/
def Dev.sendPart (d : Dev) (n t : Nat) (f : DownFrame) (part : Bytes) (x : Emission) : Dev :=
  let d := d.modTree t fun x => x.takeRoom (part.length + encHeader)
  (if f.placed = 0 then d.follow f.sampled fun y => { y with outFirst := n - f.t0 } else d).emit x

/-- The bytes `part` of the oldest frame leave as `x`; the frame is over, or waits with the bytes `left`. -/
def Dev.placePart (d : Dev) (n t : Nat) (f : DownFrame) (rest : List DownFrame) (part left : Bytes) (x : Emission) : Dev :=
  let d := d.sendPart n t f part x
  if left.isEmpty then
    ((d.modTree t fun x => { x with payload := rest }).follow f.sampled fun y => { y with outLast := n - f.t0 }).sampleDone
      f.sampled 0
  else d.modTree t fun x => { x with payload := f.leftOver part left :: rest }

variable {t : Nat} {f : DownFrame} {rest : List DownFrame}

/-- What a frame that is dropped leaves behind. -/
structure Dev.FrontDropped (d e : Dev) (t : Nat) (f : DownFrame) (rest : List DownFrame) (r : Reg) : Prop where
  payload : (e.tree t).payload = rest
  wire : e.wire = d.wire
  counted : e.rd r f.terminal = (d.rd r f.terminal + 1) % 2 ^ 64
  kept : f.sampled = none → d.regsKept e [(r, f.terminal)]

theorem Dev.dropFront_dropped {r : Reg} (hr : r.modulus = 2 ^ 64) (hs : r ≠ .sampleNext) :
    d.FrontDropped (d.dropFront t f rest r) t f rest r where
  payload := by
    rw [Dev.dropFront, Dev.sampleDone_tree, Dev.bump_eq, Dev.wr_tree, Dev.tree_modTree_same]
  wire := by rw [Dev.dropFront, Dev.sampleDone_wire, Dev.bump_eq, Dev.wr_wire, Dev.modTree_wire]
  counted := by
    rw [Dev.dropFront, Dev.sampleDone_rd _ _ _ _ hs, Dev.rd_bump_counter _ _ hr, Dev.modTree_rd]
  kept h q j hq := by
    rw [Dev.dropFront, h, Dev.sampleDone_none, Dev.rd_bump, if_neg fun e => hq (by simp [e.1, e.2]), Dev.modTree_rd]

/-- What a frame that leaves, whole or in part, leaves behind. -/
structure Dev.PartPlaced (d e : Dev) (t : Nat) (f : DownFrame) (rest : List DownFrame) (part left : Bytes)
    (x : Emission) : Prop where
  wire : e.wire = d.wire ++ [x]
  room : (e.tree t).room = (d.tree t).room - (part.length + encHeader)
  whole : left = [] → (e.tree t).payload = rest
  waits : left ≠ [] → (e.tree t).payload = f.leftOver part left :: rest
  kept : f.sampled = none → d.rdKept e cipherRegs

theorem Dev.sendPart_tree (n : Nat) (part : Bytes) (x : Emission) :
    (d.sendPart n t f part x).tree t = (d.tree t).takeRoom (part.length + encHeader) := by
  unfold Dev.sendPart
  dsimp only
  split <;> simp only [Dev.emit_tree, Dev.follow_tree, Dev.tree_modTree_same]

theorem Dev.sendPart_wire (n : Nat) (part : Bytes) (x : Emission) :
    (d.sendPart n t f part x).wire = d.wire ++ [x] := by
  unfold Dev.sendPart
  dsimp only
  split <;> simp only [Dev.wire_emit, Dev.follow_wire, Dev.modTree_wire]

theorem Dev.sendPart_rd (n : Nat) (part : Bytes) (x : Emission) (r : Reg) (i : Nat) :
    (d.sendPart n t f part x).rd r i = d.rd r i := by
  unfold Dev.sendPart
  dsimp only
  split <;> simp only [Dev.emit_rd, Dev.follow_rd, Dev.modTree_rd]

variable {d} in
theorem Dev.placePart_placed {e : Dev} (h : d.Ciphers e) (n : Nat) (part left : Bytes) (x : Emission) :
    d.PartPlaced (e.placePart n t f rest part left x) t f rest part left x := by
  have tree := e.sendPart_tree (t := t) (f := f) n part x
  have wire := e.sendPart_wire (t := t) (f := f) n part x
  have rd := e.sendPart_rd (t := t) (f := f) n part x
  unfold Dev.placePart
  dsimp only
  generalize e.sendPart n t f part x = m at tree wire rd
  rw [h.wire] at wire
  have room : (m.tree t).room = (d.tree t).room - (part.length + encHeader) := by
    rw [tree, ← h.room t]
    rfl
  have kept : d.rdKept m cipherRegs := fun r i hr => (rd r i).trans (h.regs r i hr)
  cases left with
  | nil =>
    rw [List.isEmpty_nil, if_pos rfl]
    exact {
      wire := by rw [Dev.sampleDone_wire, Dev.follow_wire, Dev.modTree_wire, wire]
      room := by rw [Dev.sampleDone_tree, Dev.follow_tree, Dev.tree_modTree_same, room]
      whole := fun _ => by rw [Dev.sampleDone_tree, Dev.follow_tree, Dev.tree_modTree_same]
      waits := fun hl => absurd rfl hl
      kept := fun hs r i hr => by
        rw [hs, Dev.sampleDone_none, Dev.follow_rd, Dev.modTree_rd, kept r i hr] }
  | cons b l =>
    rw [List.isEmpty_cons, if_neg Bool.false_ne_true]
    exact {
      wire := by rw [Dev.modTree_wire, wire]
      room := by rw [Dev.tree_modTree_same, room]
      whole := nofun
      waits := fun _ => by rw [Dev.tree_modTree_same]
      kept := fun _ r i hr => by rw [Dev.modTree_rd, kept r i hr] }

/-- What a frame whose keystream is late leaves behind. -/
structure Dev.LateFilled (d e : Dev) (t bytes : Nat) : Prop where
  payload : (e.tree t).payload = (d.tree t).payload
  wire : e.wire = d.wire ++ [.idleFill t bytes]
  room : (e.tree t).room = (d.tree t).room - bytes
  counted : e.rd .dsLate (quadOf t) = (d.rd .dsLate (quadOf t) + 1) % 2 ^ 64
  kept : d.rdKept e ([.dsLate, .idleFillBytes] ++ cipherRegs)

theorem Reg.modulus_dsLate : Reg.modulus .dsLate = 2 ^ 64 := by decide +kernel
theorem Reg.modulus_erasedDrop : Reg.modulus .erasedDrop = 2 ^ 64 := by decide +kernel
theorem Reg.modulus_keyModeMismatch : Reg.modulus .keyModeMismatch = 2 ^ 64 := by decide +kernel

variable {d} in
theorem Dev.fillLate_filled {e : Dev} (h : d.Ciphers e) (bytes : Nat) : d.LateFilled (e.fillLate t bytes) t bytes where
  payload := by
    rw [Dev.fillLate, Dev.emit_tree, Dev.add_eq, Dev.wr_tree, Dev.bump_eq, Dev.wr_tree, Dev.tree_modTree_same, ← h.payload t]
    rfl
  wire := by
    rw [Dev.fillLate, Dev.wire_emit, Dev.add_eq, Dev.wr_wire, Dev.bump_eq, Dev.wr_wire, Dev.modTree_wire, h.wire]
  room := by
    rw [Dev.fillLate, Dev.emit_tree, Dev.add_eq, Dev.wr_tree, Dev.bump_eq, Dev.wr_tree, Dev.tree_modTree_same, ← h.room t]
    rfl
  counted := by
    rw [Dev.fillLate, Dev.emit_rd, Dev.add_eq, Dev.rd_wr_other _ _ _ _ (by decide),
      Dev.rd_bump_counter _ _ Reg.modulus_dsLate, Dev.modTree_rd, h.regs _ _ (by decide)]
  kept r i hr := by
    simp only [List.mem_append, List.mem_cons, List.not_mem_nil, or_false, not_or] at hr
    rw [Dev.fillLate, Dev.emit_rd, Dev.add_eq, Dev.rd_wr_other _ _ _ _ hr.1.2, Dev.bump_rd_other _ _ _ hr.1.1,
      Dev.modTree_rd, h.regs r i hr.2]

/-! ### The command -/

/-- What of a frame fits the rest of the running frame's payload, and what does not. -/
def Dev.fitting (d : Dev) (t : Nat) (f : DownFrame) : Bytes := f.bytes.take ((d.tree t).room - encHeader)
def Dev.unfitting (d : Dev) (t : Nat) (f : DownFrame) : Bytes := f.bytes.drop ((d.tree t).room - encHeader)

/-- The start of the keystream under `key` of what leaves next in tree `t`'s payload (R117). -/
def Dev.downCounter (d : Dev) (t : Nat) (key : Key) : Nat :=
  Config.counterStart (d.rd .superframe 0) ((d.tree t).payloadBytes - (d.tree t).room) key.index

/-- What fits of a frame, as it leaves at its payload position under key index `idx` from counter `ctr` on (R43). -/
def Dev.fittingFrame (d : Dev) (t : Nat) (f : DownFrame) (idx ctr : Nat) : Emission :=
  .treeFrame t f.terminal f.encPort idx (d.rd .superframe 0) ((d.tree t).payloadBytes - (d.tree t).room) ctr
    (d.unfitting t f).isEmpty (d.fitting t f)

variable {s : State} {n sfc : Nat}

theorem encipher_waits (ht : t < 32) (h : sfc ≠ s.dev.rd .superframe 0 ∨ (s.dev.tree t).room ≤ encHeader) :
    Completes (.downstreamFrameEncipher n t sfc) s n fun e => e = s.dev := by
  refine completes_onElement rfl ht ?_
  dsimp only
  split
  · rfl
  · exact if_pos (by tauto)

section
variable (ht : t < 32) (hp : (s.dev.tree t).payload = f :: rest) (hl : (s.dev.tree t).lit = true)
  (ha : bitAt (s.dev.rd .treeDefects t) 2 = false) (hr : encHeader < (s.dev.tree t).room)
include ht hp hl ha hr

theorem encipher_mode3 (hm : s.dev.portMode t f.encPort = 3) :
    Completes (.downstreamFrameEncipher n t (s.dev.rd .superframe 0)) s n fun e =>
      s.dev.FrontDropped e t f rest .keyModeMismatch := by
  refine completes_onElement rfl ht ?_
  simp only [hp, hl, ha, hm, Nat.not_le.2 hr, ne_eq, not_true_eq_false, reduceCtorEq, or_self, if_false, if_true]
  exact s.dev.dropFront_dropped Reg.modulus_keyModeMismatch (by decide)

/-- The slot that the port's mode names is without a key (R43). -/
theorem encipher_keyless {k : Nat} (hm : s.dev.portMode t f.encPort ≠ 3)
    (hd : s.dev.downSlot t f.terminal f.encPort = some k) (hk : (s.dev.slot k).current = none) :
    Completes (.downstreamFrameEncipher n t (s.dev.rd .superframe 0)) s n fun e =>
      s.dev.FrontDropped e t f rest .erasedDrop := by
  refine completes_onElement rfl ht ?_
  simp only [hp, hl, ha, hm, hd, hk, Nat.not_le.2 hr, ne_eq, not_true_eq_false, reduceCtorEq, or_self, if_false,
    Option.map_none]
  exact s.dev.dropFront_dropped Reg.modulus_erasedDrop (by decide)

/-- What fits of a frame on a port that is not enciphered (R125). -/
theorem encipher_clear (hm : s.dev.portMode t f.encPort = 0) :
    Completes (.downstreamFrameEncipher n t (s.dev.rd .superframe 0)) s n fun e =>
      s.dev.PartPlaced e t f rest (s.dev.fitting t f) (s.dev.unfitting t f) (s.dev.fittingFrame t f 0 0) := by
  have hd : s.dev.downSlot t f.terminal f.encPort = none := by
    unfold Dev.downSlot
    rw [hm]
    rfl
  refine completes_onElement rfl ht ?_
  simp only [hp, hl, ha, hm, hd, Nat.not_le.2 hr, ne_eq, not_true_eq_false, reduceCtorEq, or_self, if_false, if_true,
    Bool.not_true, OfNat.zero_ne_ofNat, Bool.false_eq_true]
  exact Dev.placePart_placed (Dev.Ciphers.refl s.dev) _ _ _ _

section
variable {k : Nat} {key : Key} (h0 : s.dev.portMode t f.encPort ≠ 0) (h3 : s.dev.portMode t f.encPort ≠ 3)
  (hd : s.dev.downSlot t f.terminal f.encPort = some k) (hk : (s.dev.slot k).current = some key)
include h3 hd hk

/-- A frame whose keystream is not there in time (R118). -/
theorem encipher_late
    (hi : (s.dev.downKeystream (max s.now n) t k (s.dev.downCounter t key) (s.dev.fitting t f).length).1 = false) :
    Completes (.downstreamFrameEncipher n t (s.dev.rd .superframe 0)) s n fun e =>
      s.dev.LateFilled e t ((s.dev.fitting t f).length + encHeader) := by
  refine completes_onElement rfl ht ?_
  unfold Dev.downCounter Dev.fitting at hi
  simp only [hp, hl, ha, h3, hd, hk, hi, Nat.not_le.2 hr, ne_eq, not_true_eq_false, reduceCtorEq, or_self, if_false, if_true,
    Bool.not_false, Option.map_some]
  exact Dev.fillLate_filled (Dev.Ciphers.downKeystream ..) _

include h0 in
/-- What fits of a frame whose keystream is there in time (R117, R118). -/
theorem encipher_keyed
    (hi : (s.dev.downKeystream (max s.now n) t k (s.dev.downCounter t key) (s.dev.fitting t f).length).1 = true) :
    Completes (.downstreamFrameEncipher n t (s.dev.rd .superframe 0)) s n fun e =>
      s.dev.PartPlaced e t f rest (s.dev.fitting t f) (s.dev.unfitting t f)
        (s.dev.fittingFrame t f key.index (s.dev.downCounter t key)) := by
  refine completes_onElement rfl ht ?_
  unfold Dev.downCounter Dev.fitting at hi
  simp only [hp, hl, ha, h0, h3, hd, hk, hi, Nat.not_le.2 hr, ne_eq, not_true_eq_false, reduceCtorEq, or_self, if_false,
    Bool.not_true, Bool.false_eq_true, Option.map_some]
  exact Dev.placePart_placed (Dev.Ciphers.downKeystream ..) _ _ _ _

end
end

/-- The slot of a port in mode 1 or 2 (R125). -/
theorem Dev.downSlot_of_mode {k : Nat} (h : d.portMode t f.encPort = 1 ∧ k = f.terminal ∨
    d.portMode t f.encPort = 2 ∧ k = 32768 + t) :
    d.downSlot t f.terminal f.encPort = some k ∧ d.portMode t f.encPort ≠ 0 ∧ d.portMode t f.encPort ≠ 3 := by
  unfold Dev.downSlot
  obtain ⟨hm, rfl⟩ | ⟨hm, rfl⟩ := h <;> rw [hm] <;> exact ⟨rfl, by decide, by decide⟩

theorem Completes.imp {c : Instr} {p q : Dev → Prop} (h : Completes c s n p) (hpq : ∀ e, p e → q e) :
    Completes c s n q := by
  obtain ⟨t, ht, hn, hq, hp⟩ := h
  exact ⟨t, ht, hn, hq, hpq _ hp⟩

/-- Settles O39: the mode of the frame's port and the key of its slot decide what becomes of the oldest frame; the work of the bank
that makes its keystream changes nothing but the bank. -/
theorem framesEncipherDownstream : Obligations.FramesEncipherDownstream := by
  unfold Obligations.FramesEncipherDownstream
  intro s n t f rest ht hp hl ha
  dsimp only
  refine ⟨fun hr => encipher_waits ht (.inr hr), fun k hk => encipher_waits ht (.inl hk), fun hr => ⟨fun hm => ?_, ?_, ?_, ?_⟩⟩
  · exact (encipher_clear ht hp hl ha hr hm).imp fun e he => ⟨he.wire, he.room, he.whole, he.waits, he.kept⟩
  · intro k key hm hk
    obtain ⟨hd, h0, h3⟩ := Dev.downSlot_of_mode s.dev hm
    refine ⟨fun hi => ?_, fun hi => ?_⟩
    · exact (encipher_keyed ht hp hl ha hr h0 h3 hd hk hi).imp fun e he => ⟨he.wire, he.room, he.whole, he.waits, he.kept⟩
    · exact (encipher_late ht hp hl ha hr h3 hd hk hi).imp fun e he =>
        ⟨he.payload.trans hp, he.wire, he.room, he.counted, he.kept⟩
  · intro hm hk
    obtain ⟨hd, -, h3⟩ := Dev.downSlot_of_mode s.dev (.inl ⟨hm, rfl⟩)
    exact (encipher_keyless ht hp hl ha hr h3 hd hk).imp fun e he => ⟨he.payload, he.wire, he.counted, he.kept⟩
  · intro hm
    exact (encipher_mode3 ht hp hl ha hr hm).imp fun e he => ⟨he.payload, he.wire, he.counted, he.kept⟩

end Sys2Proof.Machine
end

section
/-!
PROOFS. What a message on an Overhead Serial Port changes (R61-R64): the port's store, what has left the device, the counters of
messages and the fault of an abort.
-/
namespace Sys2Proof.Machine
open Sys2Proof

variable (d : Dev)

/-- The counters of an Overhead Serial Port's messages, and the occurrences of its aborts. -/
def ospRegs : List Reg := [.txMessages, .txAborts, .txOverflow, .occurrences]

/-- The device but for its registers, its faults, its serial ports and what has left it. -/
def Dev.butOsps (d : Dev) : Dev := { d with regs := [], faults := {}, osps := [], wire := [] }

theorem Dev.butOsps_of_butFaults {d e : Dev} (h : e.butFaults = d.butFaults) : e.butOsps = d.butOsps := by
  change e.butFaults.butOsps = d.butFaults.butOsps
  rw [h]

/-- `e` is `d` after a message on an Overhead Serial Port. -/
structure Dev.Told (d e : Dev) : Prop where
  rest : e.butOsps = d.butOsps
  regs : d.rdKept e ospRegs

namespace Dev.Told

variable {d e f : Dev}

theorem trans (h : d.Told e) (k : e.Told f) : d.Told f where
  rest := k.rest.trans h.rest
  regs r i hr := (k.regs r i hr).trans (h.regs r i hr)

theorem tree (h : d.Told e) (t : Nat) : e.tree t = d.tree t := by
  change e.butOsps.tree t = d.butOsps.tree t
  rw [h.rest]

theorem term (h : d.Told e) (g : Nat) : e.term g = d.term g := by
  change e.butOsps.term g = d.butOsps.term g
  rw [h.rest]

theorem bump (d : Dev) {r : Reg} (i : Nat) (h : r ∈ ospRegs) : d.Told (d.bump r i) :=
  ⟨rfl, fun _ _ hq => d.bump_rd_other _ _ fun e => hq (e ▸ h)⟩

theorem emit (d : Dev) (x : Emission) : d.Told (d.emit x) := ⟨rfl, fun _ _ _ => rfl⟩

theorem event (d : Dev) (n k index : Nat) : d.Told (d.event n k index) where
  rest := Dev.butOsps_of_butFaults (d.event_butFaults n k index)
  regs _ i hr := d.event_rd n k index i fun e => hr (by simp [e, ospRegs])

theorem modOsp (d : Dev) (p : Nat) (g : Osp → Osp) : d.Told (d.modOsp p g) := ⟨rfl, fun _ _ _ => rfl⟩

theorem ospPut (d : Dev) (n p terminal : Nat) (dropping : Bool) (wire : Bytes) :
    d.Told (d.ospPut n p terminal dropping wire) := by
  unfold Dev.ospPut
  exact modOsp d p _

theorem ospAborted (d : Dev) (n p terminal reason : Nat) (wire : Bytes) :
    d.Told (d.ospAborted n p terminal reason wire) :=
  ((bump d p (by decide)).trans (emit _ _)).trans (event _ _ _ _)

theorem ospTransmit (d : Dev) (n p terminal : Nat) (m : Bytes) (stop : Option Nat) :
    d.Told (d.ospTransmit n p terminal m stop) := by
  unfold Dev.ospTransmit
  dsimp only
  split
  · split
    · exact ((ospPut d ..).trans (bump _ p (by decide))).trans (emit _ _)
    · exact (ospPut d ..).trans (ospAborted ..)
  · split
    · exact (bump d p (by decide)).trans (event _ _ _ _)
    · exact (ospPut d ..).trans (ospAborted ..)

theorem termEvent (d : Dev) (n g on : Nat) : d.Told (d.termEvent n g on) := ospTransmit ..

end Dev.Told

/-- A whole message that fits the port's store is stored, counted and sent (R62, R64). -/
theorem Dev.ospSend_fits {n p : Nat} (terminal : Nat) (m : Bytes)
    (h : d.ospHeld n p + ospUnits (ospWire m none).length ≤ ospStore) :
    d.ospSend n p terminal m =
      ((d.ospPut n p terminal false (ospWire m none)).bump .txMessages p).emit (.ospMessage p (ospWire m none)) := by
  unfold Dev.ospSend Dev.ospTransmit
  exact if_pos h

theorem Dev.ospPut_wire (n p terminal : Nat) (dropping : Bool) (wire : Bytes) :
    (d.ospPut n p terminal dropping wire).wire = d.wire := by
  unfold Dev.ospPut
  exact d.modOsp_wire p _

theorem Dev.ospSend_wire {n p : Nat} (terminal : Nat) (m : Bytes)
    (h : d.ospHeld n p + ospUnits (ospWire m none).length ≤ ospStore) :
    (d.ospSend n p terminal m).wire = d.wire ++ [.ospMessage p (ospWire m none)] := by
  rw [Dev.ospSend_fits _ _ _ h, Dev.wire_emit, Dev.bump_eq, Dev.wr_wire, Dev.ospPut_wire]

end Sys2Proof.Machine
end

section
/-!
PROOFS. Defects of trees, terminals and the mate link declared and cleared (R53-R56, R68).
-/
namespace Sys2Proof.Machine
open Sys2Proof

variable (d : Dev)

/-! ### A tree defect changes state (R53, R59) -/

theorem Reg.modulus_treeDefects : Reg.modulus .treeDefects = 2 ^ 32 := by decide +kernel
theorem Reg.modulus_termDefects : Reg.modulus .termDefects = 2 ^ 32 := by decide +kernel
theorem Reg.modulus_mateDefects : Reg.modulus .mateDefects = 2 ^ 32 := by decide +kernel
theorem Reg.modulus_defectEvents : Reg.modulus .defectEvents = 2 ^ 64 := by decide +kernel

/-- Bit `b` of a tree's defects written, and nothing told of it. -/
def Dev.writeDefect (d : Dev) (t b : Nat) (on : Bool) : Dev :=
  d.wr .treeDefects t (setBit (d.rd .treeDefects t) b on)

/-- The same of a defect that is declared: it marks the running second and is counted. -/
def Dev.declareDefect (d : Dev) (t b : Nat) : Dev :=
  ((d.writeDefect t b true).modTree t fun x => { x with pm := x.pm.mark b }).bump .defectEvents t

variable {n t b : Nat}

theorem Dev.writeDefect_bit (on : Bool) (hb : b < 32) : bitAt ((d.writeDefect t b on).rd .treeDefects t) b = on := by
  rw [Dev.writeDefect, Dev.rd_wr_same, Reg.modulus_treeDefects, bitAt_mod_two_pow hb, bitAt_setBit]

theorem Dev.writeDefect_bit_ne (on : Bool) {k : Nat} (hk : k < 32) (h : k ≠ b) :
    bitAt ((d.writeDefect t b on).rd .treeDefects t) k = bitAt (d.rd .treeDefects t) k := by
  rw [Dev.writeDefect, Dev.rd_wr_same, Reg.modulus_treeDefects, bitAt_mod_two_pow hk, bitAt_setBit_ne _ _ h]

theorem Dev.writeDefect_rd (on : Bool) {r : Reg} {i : Nat} (h : (r, i) ≠ (.treeDefects, t)) :
    (d.writeDefect t b on).rd r i = d.rd r i := by
  rw [Dev.writeDefect, Dev.rd_wr, if_neg fun e => h (by rw [e.1, e.2])]

theorem Dev.declareDefect_rd {r : Reg} {i : Nat} (h : (r, i) ≠ (.defectEvents, t)) :
    (d.declareDefect t b).rd r i = (d.writeDefect t b true).rd r i := by
  rw [Dev.declareDefect, Dev.rd_bump, if_neg fun e => h (by rw [e.1, e.2]), Dev.modTree_rd]

theorem Dev.declareDefect_events :
    (d.declareDefect t b).rd .defectEvents t = (d.rd .defectEvents t + 1) % 2 ^ 64 := by
  rw [Dev.declareDefect, Dev.rd_bump_counter _ _ Reg.modulus_defectEvents, Dev.modTree_rd,
    Dev.writeDefect_rd _ _ (by simp)]

theorem Dev.setTreeDefect_clear_idle (h : bitAt (d.rd .treeDefects t) b = false) : d.setTreeDefect n t b false = d :=
  if_pos h

/-- A defect that is declared, with no indication enabled for it. -/
theorem Dev.setTreeDefect_declares (h : bitAt (d.rd .treeDefects t) b = false)
    (hm : bitAt (d.rd .enableMask t) b = false) :
    d.setTreeDefect n t b true = (d.declareDefect t b).raiseLevel n { source := 8 * t + b } := by
  have mask : bitAt (((d.declareDefect t b).raiseLevel n { source := 8 * t + b }).rd .enableMask t) b = false := by
    rwa [Dev.raiseLevel_rd _ _ _ _ (by decide), Dev.declareDefect_rd _ (by simp), Dev.writeDefect_rd _ _ (by simp)]
  unfold Dev.setTreeDefect
  rw [if_neg (by simp [h])]
  exact (congrArg (Dev.when _ · _) mask).trans rfl

/-- A defect that clears, with no indication enabled for it. -/
theorem Dev.setTreeDefect_clears (h : bitAt (d.rd .treeDefects t) b = true)
    (hm : bitAt (d.rd .enableMask t) b = false) :
    d.setTreeDefect n t b false = (d.writeDefect t b false).dropLevel (8 * t + b) := by
  have mask : bitAt (((d.writeDefect t b false).dropLevel (8 * t + b)).rd .enableMask t) b = false := by
    rwa [Dev.dropLevel_rd, Dev.writeDefect_rd _ _ (by simp)]
  unfold Dev.setTreeDefect
  rw [if_neg (by simp [h])]
  exact (congrArg (Dev.when _ · _) mask).trans rfl

/-- What a defect that is declared leaves behind. -/
structure Dev.DefectOn (d e : Dev) (t b : Nat) : Prop where
  bit : bitAt (e.rd .treeDefects t) b = true
  events : e.rd .defectEvents t = (d.rd .defectEvents t + 1) % 2 ^ 64
  level : (e.source (8 * t + b)).level = true
  kept : ∀ r i, r ≠ .occurrences → (r, i) ∉ [(.treeDefects, t), (.defectEvents, t)] → e.rd r i = d.rd r i

/-- What a defect that is not declared, or clears, leaves behind. -/
structure Dev.DefectOff (d e : Dev) (t b : Nat) : Prop where
  bit : bitAt (e.rd .treeDefects t) b = false
  bits : ∀ k < 32, k ≠ b → bitAt (e.rd .treeDefects t) k = bitAt (d.rd .treeDefects t) k
  kept : d.regsKept e [(.treeDefects, t)]
  source : ∀ k, k ≠ 8 * t + b → e.source k = d.source k

/-- The sources of a tree that is not shut are evaluated (R283). -/
theorem Dev.evaluated_of_not_shut (h : d.treeShut t = false) (hb : b < 8) : d.unevaluated (8 * t + b) = false := by
  have ht : (8 * t + b) / 8 = t := by omega
  simp [Dev.unevaluated, ht, h]

theorem Dev.declareDefect_treeShut : (d.declareDefect t b).treeShut t = d.treeShut t := by
  unfold Dev.treeShut
  rw [Dev.declareDefect, Dev.bump_eq, Dev.wr_faults, Dev.modTree_faults, Dev.writeDefect, Dev.wr_faults]

theorem Dev.setTreeDefect_on (h : bitAt (d.rd .treeDefects t) b = false) (hm : bitAt (d.rd .enableMask t) b = false)
    (hs : d.treeShut t = false) (hb : b < 8) : d.DefectOn (d.setTreeDefect n t b true) t b := by
  rw [Dev.setTreeDefect_declares _ h hm]
  refine ⟨?_, ?_, ?_, fun r i ho hr => ?_⟩
  · rw [Dev.raiseLevel_rd _ _ _ _ (by decide), Dev.declareDefect_rd _ (by simp), Dev.writeDefect_bit _ _ (by omega)]
  · rw [Dev.raiseLevel_rd _ _ _ _ (by decide), Dev.declareDefect_events]
  · exact Dev.raiseLevel_level _ n { source := 8 * t + b }
      (Dev.evaluated_of_not_shut _ (d.declareDefect_treeShut.trans hs) hb)
  · rw [List.mem_cons, List.mem_singleton, not_or] at hr
    rw [Dev.raiseLevel_rd _ _ _ _ ho, Dev.declareDefect_rd _ hr.2, Dev.writeDefect_rd _ _ hr.1]

theorem Dev.dropLevel_source {k : Nat} (j : Nat) (h : k ≠ j) : (d.dropLevel j).source k = d.source k := by
  unfold Dev.dropLevel
  split
  · rw [Dev.source_modSource, if_neg h]
  · rfl

theorem Dev.setTreeDefect_off (hm : bitAt (d.rd .enableMask t) b = false) (hb : b < 32) :
    d.DefectOff (d.setTreeDefect n t b false) t b := by
  cases h : bitAt (d.rd .treeDefects t) b with
  | false =>
    rw [Dev.setTreeDefect_clear_idle _ h]
    exact ⟨h, fun _ _ _ => rfl, fun _ _ _ => rfl, fun _ _ => rfl⟩
  | true =>
    rw [Dev.setTreeDefect_clears _ h hm]
    refine ⟨?_, fun k hk hkb => ?_, fun r i hr => ?_, fun k hk => ?_⟩
    · rw [Dev.dropLevel_rd, Dev.writeDefect_bit _ _ hb]
    · rw [Dev.dropLevel_rd, Dev.writeDefect_bit_ne _ _ hk hkb]
    · rw [Dev.dropLevel_rd, Dev.writeDefect_rd _ _ fun e => hr (by simp [e])]
    · rw [Dev.dropLevel_source _ _ hk]
      rfl

theorem Dev.setTreeDefect_released (h : bitAt (d.rd .treeDefects t) b = true)
    (hm : bitAt (d.rd .enableMask t) b = false) : d.released (d.setTreeDefect n t b false) (8 * t + b) := by
  rw [Dev.setTreeDefect_clears _ h hm]
  exact Dev.dropLevel_released (d.writeDefect t b false) (8 * t + b)

theorem bitAt_zero (k : Nat) : bitAt 0 k = false := by simp [bitAt]

/-! ### The commands of a tree's defects -/

variable {s : State}

theorem treeDefectDeclare_ais (ht : t < 32) (hm : s.dev.rd .enableMask t = 0) (hs : s.dev.treeShut t = false)
    (hf : (s.dev.tree t).feed = false) (hr : s.dev.rd .aisFrames t ≤ (s.dev.tree t).feedRun)
    (h : s.dev.treeDefect t .ais = false) : Completes (.treeDefectDeclare n t .ais) s n fun e =>
      e.treeDefect t .ais = true ∧ e.rd .defectEvents t = (s.dev.rd .defectEvents t + 1) % 2 ^ 64 ∧
      (e.source (8 * t + 2)).level = true ∧
      ∀ r i, r ≠ .occurrences → (r, i) ∉ [(.treeDefects, t), (.defectEvents, t)] → e.rd r i = s.dev.rd r i := by
  refine completes_onElement rfl ht ?_
  simp only [hf, hr, Bool.not_false, Bool.true_and, decide_true, if_true]
  obtain ⟨bit, events, level, kept⟩ := s.dev.setTreeDefect_on (n := max s.now n) h (hm ▸ bitAt_zero 2) hs (by decide)
  exact ⟨bit, events, level, kept⟩

theorem treeDefectClear_ais (ht : t < 32) (hm : s.dev.rd .enableMask t = 0)
    (hf : (s.dev.tree t).feed = true) (hr : s.dev.rd .aisFrames t ≤ (s.dev.tree t).feedRun)
    (h : s.dev.treeDefect t .ais = true) : Completes (.treeDefectClear n t .ais) s n fun e =>
      e.treeDefect t .ais = false ∧ s.dev.released e (8 * t + 2) ∧ s.dev.regsKept e [(.treeDefects, t)] := by
  refine completes_onElement rfl ht ?_
  simp only [hf, hr, Bool.true_and, decide_true, if_true]
  have off := s.dev.setTreeDefect_off (n := max s.now n) (t := t) (b := 2) (hm ▸ bitAt_zero 2) (by decide)
  exact ⟨off.bit, s.dev.setTreeDefect_released h (hm ▸ bitAt_zero 2), off.kept⟩

/-- A frame judged over changes a tree's timings alone. -/
theorem Dev.closeFrame_rd (n t : Nat) (r : Reg) (i : Nat) : (d.closeFrame n t).rd r i = d.rd r i := by
  unfold Dev.closeFrame
  split
  · split <;> rfl
  · rfl

theorem Dev.closeFrame_source (n t k : Nat) : (d.closeFrame n t).source k = d.source k := by
  unfold Dev.closeFrame
  split
  · split <;> rfl
  · rfl

theorem treeDefectClear_los (ht : t < 32) (hm : s.dev.rd .enableMask t = 0)
    (hr : Timed.ripe ((s.dev.closeFrame (max s.now n) t).tree t).losClr (max s.now n) = true)
    (h : s.dev.treeDefect t .los = true) : Completes (.treeDefectClear n t .los) s n fun e =>
      e.treeDefect t .los = false ∧ s.dev.released e (8 * t) ∧ s.dev.regsKept e [(.treeDefects, t)] := by
  have rd := s.dev.closeFrame_rd (max s.now n) t
  have source := s.dev.closeFrame_source (max s.now n) t
  have declared : (s.dev.closeFrame (max s.now n) t).treeDefect t .los = true := by rwa [Dev.treeDefect, rd]
  have mask : bitAt ((s.dev.closeFrame (max s.now n) t).rd .enableMask t) 0 = false := by rw [rd, hm, bitAt_zero]
  refine completes_onElement rfl ht ?_
  simp only [hr, declared, Bool.and_self, if_true]
  generalize s.dev.closeFrame (max s.now n) t = c at rd source declared mask
  have off := c.setTreeDefect_off (n := max s.now n) mask (by decide)
  have released := c.setTreeDefect_released (n := max s.now n) declared mask
  refine ⟨off.bit, fun hl => ?_, fun r i hri => (off.kept r i hri).trans (rd r i)⟩
  rw [← source]
  exact released hl

/-! ### LOS declared (R53, R54, R68) -/

theorem Dev.toLost_idle {g : Nat} (byTree : Bool) (h2 : d.rd .termState g ≠ 2) (h3 : d.rd .termState g ≠ 3) :
    d.toLost n g byTree = d := by
  unfold Dev.toLost
  rw [if_neg (by rwa [Dev.inState_iff]), if_neg (by rw [Dev.inState_iff]; exact fun h => h3 h.1)]

theorem Dev.setTermDefect_clear_idle {g k : Nat} (h : bitAt (d.rd .termDefects g) k = false) :
    d.setTermDefect n g k false = d := if_pos h

/-- The masks of a terminal without a defect reset its counts and no more (R54). -/
theorem Dev.maskTerm_clear {g : Nat} (los : Bool) (h : d.rd .termDefects g = 0) :
    (d.maskTerm n g los).regs = d.regs ∧ (d.maskTerm n g los).faults = d.faults := by
  have clear : ∀ k, d.setTermDefect n g k false = d := fun k => d.setTermDefect_clear_idle (h ▸ bitAt_zero k)
  unfold Dev.maskTerm
  simp only [clear, ite_self]
  split <;> exact ⟨rfl, rfl⟩

/-- No terminal of a tree is in service: tree LOS moves none. -/
theorem Dev.each_toLost_idle (byTree : Bool)
    (h : ∀ g ∈ termsOfTree t, d.rd .termState g ≠ 2 ∧ d.rd .termState g ≠ 3) :
    (d.each (termsOfTree t) fun d g => d.toLost n g byTree) = d :=
  Dev.each_idle d fun g hg => d.toLost_idle byTree (h g hg).1 (h g hg).2

theorem Dev.each_maskTerm_clear (los : Bool) (h : ∀ g ∈ termsOfTree t, d.rd .termDefects g = 0) :
    (d.each (termsOfTree t) fun d g => d.maskTerm n g los).regs = d.regs ∧
    (d.each (termsOfTree t) fun d g => d.maskTerm n g los).faults = d.faults :=
  Dev.each_holds (I := fun e => e.regs = d.regs ∧ e.faults = d.faults) ⟨rfl, rfl⟩ fun e he g hg => by
    have clear : e.rd .termDefects g = 0 := by rw [Dev.rd, he.1]; exact h g hg
    obtain ⟨regs, faults⟩ := e.maskTerm_clear (n := n) los clear
    exact ⟨regs.trans he.1, faults.trans he.2⟩

/-- The timings of a tree's LOS end, and those of its LOF. -/
def Tree.endLos (x : Tree) : Tree := { x with losSet := none, losClr := none, judged := none }
def Tree.endLof (x : Tree) : Tree := { x with lofSet := none, lofClr := none }

theorem Dev.declareLos_eq : d.declareLos n t =
    (((((d.setTreeDefect n t 0 true).modTree t Tree.endLos).each (termsOfTree t) fun d g => d.toLost n g true).setTreeDefect
      n t 1 false).modTree t Tree.endLof).each (termsOfTree t) fun d g => d.maskTerm n g true := rfl

/-- LOS of a tree without a terminal in service and without a terminal defect. -/
theorem Dev.declareLos_bare (hm : d.rd .enableMask t = 0) (hs : d.treeShut t = false)
    (h : d.treeDefect t .los = false)
    (hg : ∀ g ∈ termsOfTree t, d.rd .termState g ≠ 2 ∧ d.rd .termState g ≠ 3 ∧ d.rd .termDefects g = 0) :
    (d.declareLos n t).treeDefect t .los = true ∧ (d.declareLos n t).treeDefect t .lof = false ∧
    ((d.declareLos n t).source (8 * t)).level = true := by
  have on := d.setTreeDefect_on (n := n) h (hm ▸ bitAt_zero 0) hs (by decide)
  rw [Dev.declareLos_eq]
  change d.DefectOn (d.setTreeDefect n t 0 true) t 0 at on
  generalize d.setTreeDefect n t 0 true = a at on
  have kept : ∀ {r : Reg} (i : Nat), r ∉ [.occurrences, .treeDefects, .defectEvents] →
      (a.modTree t Tree.endLos).rd r i = d.rd r i := fun i hr => by
    simp only [List.mem_cons, List.not_mem_nil, or_false, not_or] at hr
    exact on.kept _ i hr.1 (by simp [hr.2.1, hr.2.2])
  rw [Dev.each_toLost_idle _ true fun g hgt => by
    rw [kept g (by decide)]
    exact ⟨(hg g hgt).1, (hg g hgt).2.1⟩]
  have mask : bitAt ((a.modTree t Tree.endLos).rd .enableMask t) 1 = false := by
    rw [kept t (by decide), hm, bitAt_zero]
  have off := (a.modTree t Tree.endLos).setTreeDefect_off (n := n) mask (by decide)
  generalize (a.modTree t Tree.endLos).setTreeDefect n t 1 false = b at off
  obtain ⟨regs, faults⟩ := (b.modTree t Tree.endLof).each_maskTerm_clear (n := n) (t := t) true fun g hgt => by
    rw [Dev.modTree_rd, off.kept _ _ (by simp), kept g (by decide)]
    exact (hg g hgt).2.2
  generalize (b.modTree t Tree.endLof).each (termsOfTree t) _ = e at regs faults
  have rd : e.rd .treeDefects t = b.rd .treeDefects t := by
    rw [Dev.rd, regs]
    rfl
  refine ⟨?_, ?_, ?_⟩
  · rw [Dev.treeDefect, rd]
    exact (off.bits 0 (by decide) (by decide)).trans on.bit
  · rw [Dev.treeDefect, rd]
    exact off.bit
  · rw [Dev.source, faults]
    exact (congrArg Source.level (off.source (8 * t) (by omega))).trans on.level

theorem treeDefectDeclare_los (ht : t < 32) (hm : s.dev.rd .enableMask t = 0) (hs : s.dev.treeShut t = false)
    (hr : Timed.ripe (s.dev.tree t).losSet (max s.now n) = true) (h : s.dev.treeDefect t .los = false)
    (hg : ∀ g ∈ termsOfTree t,
      s.dev.rd .termState g ≠ 2 ∧ s.dev.rd .termState g ≠ 3 ∧ s.dev.rd .termDefects g = 0) :
    Completes (.treeDefectDeclare n t .los) s n fun e =>
      e.treeDefect t .los = true ∧ e.treeDefect t .lof = false ∧ (e.source (8 * t)).level = true := by
  refine completes_onElement rfl ht ?_
  simp only [hr, h, Bool.not_false, Bool.and_self, if_true]
  exact s.dev.declareLos_bare hm hs h hg

/-! ### The commands of a terminal's defects -/

variable {g k : Nat}

/-- A terminal goes from OPERATION to LOST (R68). -/
structure Dev.Lost (d e : Dev) (n g : Nat) : Prop where
  state : e.rd .termState g = 3
  since : (e.term g).lostAt = some n
  kept : d.rdKept e (.termState :: bufferRegs)

theorem Dev.setTermState_kept {st : Nat} (h : d.rd .termState g ≠ st) :
    d.rdKept (d.setTermState n g st) (.termState :: bufferRegs) := fun r i hr => by
  rw [List.mem_cons, not_or] at hr
  rw [Dev.rd_of_unbuffered (d.unbuffered_setTermState n g h) i hr.2, Dev.rd_wr_other _ _ _ _ hr.1]

theorem Dev.toLost_lost (byTree : Bool) (h : d.rd .termState g = 2) : d.Lost (d.toLost n g byTree) n g := by
  have leaves : d.rd .termState g ≠ 3 := by rw [h]; decide
  unfold Dev.toLost
  rw [if_pos (by rwa [Dev.inState_iff])]
  refine ⟨?_, ?_, fun r i hr => ?_⟩
  · rw [Dev.modTerm_rd, Dev.setTermState_rd _ _ _ leaves, Reg.modulus_termState]
  · rw [Dev.term_modTerm, if_pos rfl]
  · rw [Dev.modTerm_rd, d.setTermState_kept leaves r i hr]

/-- Bit `k` of a terminal's defects written and told to the host (R55). -/
def Dev.writeTermDefect (d : Dev) (n g k : Nat) (on : Bool) : Dev :=
  (d.wr .termDefects g (setBit (d.rd .termDefects g) k on)).termEvent n g (ofBool on)

theorem Dev.writeTermDefect_told (n g k : Nat) (on : Bool) :
    (d.wr .termDefects g (setBit (d.rd .termDefects g) k on)).Told (d.writeTermDefect n g k on) :=
  Dev.Told.termEvent ..

theorem Dev.writeTermDefect_defects (on : Bool) :
    (d.writeTermDefect n g k on).rd .termDefects g = setBit (d.rd .termDefects g) k on % 2 ^ 32 := by
  rw [(d.writeTermDefect_told n g k on).regs _ _ (by decide), Dev.rd_wr_same, Reg.modulus_termDefects]

theorem Dev.writeTermDefect_rd (on : Bool) {r : Reg} (i : Nat) (h : r ∉ .termDefects :: ospRegs) :
    (d.writeTermDefect n g k on).rd r i = d.rd r i := by
  rw [List.mem_cons, not_or] at h
  rw [(d.writeTermDefect_told n g k on).regs _ _ h.2, Dev.rd_wr_other _ _ _ _ h.1]

theorem Dev.writeTermDefect_term (on : Bool) (x : Nat) : (d.writeTermDefect n g k on).term x = d.term x := by
  rw [(d.writeTermDefect_told n g k on).term, Dev.wr_term]

/-- LOSi or LOFi changes: the bit, the EVENT message, and the transition of R68. -/
theorem Dev.setTermDefect_changes {on : Bool} (hk : k ≠ 3) (h : bitAt (d.rd .termDefects g) k ≠ on) :
    d.setTermDefect n g k on =
      let e := (d.writeTermDefect n g k on).when on fun d => d.modTerm g fun x => { x with pm := x.pm.mark k }
      if on then e.toLost n g false
      else if e.rd .termDefects g % 4 = 0 ∧ (e.term g).treeLos = false then e.fromLost n g else e := by
  unfold Dev.setTermDefect Dev.writeTermDefect
  rw [if_neg h]
  exact if_neg hk

theorem terminalDefectDeclare_losi (hg : g < 16384) (hm : s.dev.unmasked (treeOfTerm g) .losi = true)
    (hr : s.dev.rd .losiBursts (treeOfTerm g) ≤ (s.dev.term g).missRun) (h : bitAt (s.dev.rd .termDefects g) 0 = false)
    (hs : s.dev.rd .termState g = 2) : Completes (.terminalDefectDeclare n g .losi) s n fun e =>
      bitAt (e.rd .termDefects g) 0 = true ∧ e.rd .termState g = 3 ∧ (e.term g).lostAt = some (max s.now n) := by
  refine completes_onElement rfl hg ?_
  simp only [hm, Dev.burstLimit, Term.runs, hr, termDefectBit, decide_true, Bool.and_self, if_true]
  rw [Dev.setTermDefect_changes _ (by decide) (by simp [h])]
  dsimp only
  rw [Dev.when_true, if_pos rfl]
  have operating : ((s.dev.writeTermDefect (max s.now n) g 0 true).modTerm g
      fun x => { x with pm := x.pm.mark 0 }).rd .termState g = 2 := by
    rw [Dev.modTerm_rd, Dev.writeTermDefect_rd _ _ _ (by decide), hs]
  obtain ⟨state, since, kept⟩ := Dev.toLost_lost _ (n := max s.now n) false operating
  refine ⟨?_, state, since⟩
  rw [kept _ _ (by decide), Dev.modTerm_rd, Dev.writeTermDefect_defects, bitAt_mod_two_pow (by decide), bitAt_setBit]

/-! ### A terminal returns from LOST (R68, R194) -/

variable {d} in
theorem Dev.term_of_butFaults {e : Dev} (h : e.butFaults = d.butFaults) (g : Nat) : e.term g = d.term g := by
  change e.butFaults.term g = d.butFaults.term g
  rw [h]

theorem Dev.declareDefect_term : (d.declareDefect t b).term g = d.term g := by
  rw [Dev.declareDefect, Dev.bump_eq, Dev.wr_term, Dev.modTree_term, Dev.writeDefect, Dev.wr_term]

/-- A tree defect whose indication is off is no terminal's business. -/
theorem Dev.setTreeDefect_term (on : Bool) (hm : bitAt (d.rd .enableMask t) b = false) :
    (d.setTreeDefect n t b on).term g = d.term g := by
  cases h : bitAt (d.rd .treeDefects t) b <;> cases on
  case false.false => rw [Dev.setTreeDefect_clear_idle _ h]
  case true.true =>
    rw [Dev.setTreeDefect_declared _ _ h]
    exact Dev.term_of_butFaults (Dev.raiseLevel_butFaults ..) g
  case false.true =>
    rw [Dev.setTreeDefect_declares _ h hm, Dev.term_of_butFaults (Dev.raiseLevel_butFaults ..), Dev.declareDefect_term]
  case true.false =>
    rw [Dev.setTreeDefect_clears _ h hm, Dev.term_of_butFaults (Dev.dropLevel_butFaults ..), Dev.writeDefect, Dev.wr_term]

/-- A terminal that takes OPERATION: its hold ends, tree RDI is judged, and the change is mirrored. -/
theorem Dev.setTermState_operation (h : d.rd .termState g ≠ 2) : d.setTermState n g 2 =
    (((d.wr .termState g 2).resumeTerm n g).judgeRdi n (treeOfTerm g)).mirrorTerm n g := by
  unfold Dev.setTermState
  simp only [h, if_false, if_true, false_and, or_true, OfNat.ofNat_ne_zero, Nat.reduceEqDiff, or_self]

/-- A terminal goes from LOST to OPERATION. -/
structure Dev.Found (d e : Dev) (g : Nat) : Prop where
  state : e.rd .termState g = 2
  hold : (e.term g).hold = none
  kept : d.rdKept e (.termState :: bufferRegs)

theorem Dev.fromLost_found (h : d.rd .termState g = 3) (hm : bitAt (d.rd .enableMask (treeOfTerm g)) 3 = false) :
    d.Found (d.fromLost n g) g := by
  unfold Dev.fromLost
  rw [if_pos (by rwa [Dev.inState_iff])]
  generalize ha : d.modTerm g (fun x => { x with lostAt := none, treeLos := false }) = a
  have rd : ∀ r i, a.rd r i = d.rd r i := fun r i => by rw [← ha, Dev.modTerm_rd]
  have returns : a.rd .termState g ≠ 2 := by rw [rd, h]; decide
  have mask : bitAt (((a.wr .termState g 2).resumeTerm n g).rd .enableMask (treeOfTerm g)) 3 = false := by
    rwa [Dev.rd_of_unbuffered (Dev.unbuffered_resumeTerm _ n g) _ (by decide), Dev.rd_wr_other _ _ _ _ (by decide), rd]
  refine ⟨?_, ?_, fun r i hr => (a.setTermState_kept returns r i hr).trans (rd r i)⟩
  · rw [Dev.setTermState_rd _ _ _ returns, Reg.modulus_termState]
  · rw [Dev.setTermState_operation _ returns, Dev.mirrorTerm, Dev.durable_term, Dev.judgeRdi,
      Dev.setTreeDefect_term _ _ mask, Dev.resumeTerm, Dev.term_modTerm, if_pos rfl]

/-- LOSi clears alone: the terminal is back from LOST where tree LOS is not the cause. -/
theorem Dev.setTermDefect_clears (h : d.rd .termDefects g = 1) (hl : (d.term g).treeLos = false) :
    d.setTermDefect n g 0 false = (d.writeTermDefect n g 0 false).fromLost n g := by
  have clear : (d.writeTermDefect n g 0 false).rd .termDefects g % 4 = 0 := by
    rw [Dev.writeTermDefect_defects, h]
    decide
  have cause : ((d.writeTermDefect n g 0 false).term g).treeLos = false := by rw [Dev.writeTermDefect_term, hl]
  rw [Dev.setTermDefect_changes _ (by decide) (by rw [h]; decide)]
  dsimp only
  rw [Dev.when_false, if_neg Bool.false_ne_true, if_pos ⟨clear, cause⟩]

theorem terminalDefectClear_losi (hg : g < 16384) (hm : s.dev.unmasked (treeOfTerm g) .losi = true)
    (he : bitAt (s.dev.rd .enableMask (treeOfTerm g)) 3 = false)
    (hr : s.dev.rd .losiBursts (treeOfTerm g) ≤ (s.dev.term g).lockRun) (h : s.dev.rd .termDefects g = 1)
    (hs : s.dev.rd .termState g = 3) (hl : (s.dev.term g).treeLos = false) :
    Completes (.terminalDefectClear n g .losi) s n fun e =>
      e.rd .termDefects g = 0 ∧ e.rd .termState g = 2 ∧ (e.term g).hold = none := by
  refine completes_onElement rfl hg ?_
  simp only [hm, Dev.burstLimit, Term.runs, hr, termDefectBit, decide_true, Bool.and_self, if_true]
  rw [Dev.setTermDefect_clears _ h hl]
  have rd : ∀ {r : Reg} (i : Nat), r ∉ .termDefects :: ospRegs →
      (s.dev.writeTermDefect (max s.now n) g 0 false).rd r i = s.dev.rd r i := s.dev.writeTermDefect_rd false
  obtain ⟨state, hold, kept⟩ := (s.dev.writeTermDefect (max s.now n) g 0 false).fromLost_found (n := max s.now n) (g := g)
    (by rw [rd g (by decide), hs]) (by rwa [rd _ (by decide)])
  refine ⟨?_, state, hold⟩
  rw [kept _ _ (by decide), Dev.writeTermDefect_defects, h]
  decide

/-! ### The defects of the mate link -/

variable {x : Defect}

/-- Bit `x` of the mate link's defects written. -/
def Dev.writeMateDefect (d : Dev) (x : Defect) (on : Bool) : Dev :=
  d.wr .mateDefects 0 (setBit (d.rd .mateDefects 0) (defectBit x) on)

/-- The running second of the mate link marked by a defect. -/
def Dev.markMate (d : Dev) (x : Defect) : Dev := d.modMate fun m => { m with pm := m.pm.mark (defectBit x) }

theorem defectBit_lt (x : Defect) : defectBit x < 32 := by cases x <;> decide

theorem defectBit_inj {x y : Defect} (h : defectBit x = defectBit y) : x = y := by
  cases x <;> cases y <;> simp [defectBit] at h ⊢

theorem Dev.writeMateDefect_bit (on : Bool) : (d.writeMateDefect x on).mateDefect x = on := by
  rw [Dev.mateDefect, Dev.writeMateDefect, Dev.rd_wr_same, Reg.modulus_mateDefects, bitAt_mod_two_pow (defectBit_lt x),
    bitAt_setBit]

theorem Dev.writeMateDefect_bit_ne (on : Bool) {y : Defect} (h : y ≠ x) :
    (d.writeMateDefect x on).mateDefect y = d.mateDefect y := by
  rw [Dev.mateDefect, Dev.writeMateDefect, Dev.rd_wr_same, Reg.modulus_mateDefects, bitAt_mod_two_pow (defectBit_lt y),
    bitAt_setBit_ne _ _ fun e => h (defectBit_inj e), Dev.mateDefect]

theorem Dev.writeMateDefect_rd (on : Bool) {r : Reg} {i : Nat} (h : (r, i) ≠ (.mateDefects, 0)) :
    (d.writeMateDefect x on).rd r i = d.rd r i := by
  rw [Dev.writeMateDefect, Dev.rd_wr, if_neg fun e => h (by rw [e.1, e.2])]

theorem Dev.mateDefect_of_rd {d e : Dev} (h : e.rd .mateDefects 0 = d.rd .mateDefects 0) (x : Defect) :
    e.mateDefect x = d.mateDefect x := by
  rw [Dev.mateDefect, h, Dev.mateDefect]

theorem Dev.setMateDefect_idle (on : Bool) (h : d.mateDefect x = on) : d.setMateDefect n x on = d := if_pos h

theorem Dev.setMateDefect_declares (h : d.mateDefect x = false) : d.setMateDefect n x true =
    ((d.writeMateDefect x true).markMate x).raiseLevel n { source := 388 + defectBit x } := by
  unfold Dev.setMateDefect
  rw [if_neg (by simp [h])]
  rfl

theorem Dev.setMateDefect_clears (h : d.mateDefect x = true) :
    d.setMateDefect n x false = (d.writeMateDefect x false).dropLevel (388 + defectBit x) := by
  unfold Dev.setMateDefect
  rw [if_neg (by simp [h])]
  rfl

/-- What a mate defect that is declared leaves behind. -/
structure Dev.MateDefectOn (d e : Dev) (x : Defect) : Prop where
  bit : e.mateDefect x = true
  level : (e.source (388 + defectBit x)).level = true
  kept : ∀ r i, r ≠ .occurrences → r ≠ .mateDefects → e.rd r i = d.rd r i

theorem Dev.setMateDefect_on (h : d.mateDefect x = false) : d.MateDefectOn (d.setMateDefect n x true) x := by
  rw [Dev.setMateDefect_declares _ h]
  refine ⟨?_, Dev.raiseLevel_level _ n { source := 388 + defectBit x } (Dev.unevaluated_of_le _ (by simp; omega)),
    fun r i ho hr => ?_⟩
  · rw [Dev.mateDefect_of_rd (Dev.raiseLevel_rd _ _ _ _ (by decide)), Dev.markMate,
      Dev.mateDefect_of_rd (Dev.modMate_rd _ _ _ _), Dev.writeMateDefect_bit]
  · rw [Dev.raiseLevel_rd _ _ _ _ ho, Dev.markMate, Dev.modMate_rd, Dev.writeMateDefect_rd _ _ (by simp [hr])]

/-- What a mate defect that is not declared, or clears, leaves behind. -/
structure Dev.MateDefectOff (d e : Dev) (x : Defect) : Prop where
  bit : e.mateDefect x = false
  bits : ∀ y, y ≠ x → e.mateDefect y = d.mateDefect y
  source : ∀ k, k ≠ 388 + defectBit x → e.source k = d.source k
  kept : d.regsKept e [(.mateDefects, 0)]

theorem Dev.setMateDefect_off (n : Nat) (x : Defect) : d.MateDefectOff (d.setMateDefect n x false) x := by
  cases h : d.mateDefect x with
  | false =>
    rw [Dev.setMateDefect_idle _ _ h]
    exact ⟨h, fun _ _ => rfl, fun _ _ => rfl, fun _ _ _ => rfl⟩
  | true =>
    rw [Dev.setMateDefect_clears _ h]
    refine ⟨?_, fun y hy => ?_, fun k hk => ?_, fun r i hr => ?_⟩
    · rw [Dev.mateDefect_of_rd (Dev.dropLevel_rd _ _ _), Dev.writeMateDefect_bit]
    · rw [Dev.mateDefect_of_rd (Dev.dropLevel_rd _ _ _), Dev.writeMateDefect_bit_ne _ _ hy]
    · rw [Dev.dropLevel_source _ _ hk, Dev.writeMateDefect, Dev.wr_source]
    · rw [Dev.dropLevel_rd, Dev.writeMateDefect_rd _ _ fun e => hr (by simp [e])]

theorem Dev.setMateDefect_released (h : d.mateDefect x = true) :
    d.released (d.setMateDefect n x false) (388 + defectBit x) := by
  rw [Dev.setMateDefect_clears _ h]
  exact Dev.dropLevel_released (d.writeMateDefect x false) _

theorem mateDefectDeclare_ais (hl : s.dev.mateDefect .los = false) (hr : 2 ≤ s.dev.mate.aisRun)
    (h : s.dev.mateDefect .ais = false) : Completes (.mateDefectDeclare n .ais) s n fun e =>
      e.mateDefect .ais = true ∧ (e.source 390).level = true ∧
      ∀ r i, r ≠ .occurrences → r ≠ .mateDefects → e.rd r i = s.dev.rd r i := by
  refine completes_at rfl ?_
  simp only [hl, hr, Bool.not_false, decide_true, Bool.and_self, if_true]
  obtain ⟨bit, level, kept⟩ := s.dev.setMateDefect_on (n := max s.now n) h
  exact ⟨bit, level, kept⟩

theorem mateDefectClear_ais (hr : 2 ≤ s.dev.mate.noAisRun) (h : s.dev.mateDefect .ais = true) :
    Completes (.mateDefectClear n .ais) s n fun e =>
      e.mateDefect .ais = false ∧ s.dev.released e 390 ∧ s.dev.regsKept e [(.mateDefects, 0)] := by
  refine completes_at rfl ?_
  simp only [hr, if_true]
  have off := s.dev.setMateDefect_off (max s.now n) .ais
  exact ⟨off.bit, s.dev.setMateDefect_released h, off.kept⟩

theorem mateDefectDeclare_los (hr : Timed.ripe s.dev.mate.losSet (max s.now n) = true)
    (h : s.dev.mateDefect .los = false) : Completes (.mateDefectDeclare n .los) s n fun e =>
      e.mateDefect .los = true ∧ e.mateDefect .lof = false ∧ e.mateDefect .ais = false ∧ e.mateDefect .rdi = false ∧
      (e.source 388).level = true := by
  refine completes_at rfl ?_
  simp only [hr, if_true]
  have los := s.dev.setMateDefect_on (n := max s.now n) h
  generalize s.dev.setMateDefect (max s.now n) .los true = a at los
  have lof := a.setMateDefect_off (max s.now n) .lof
  generalize a.setMateDefect (max s.now n) .lof false = b at lof
  have ais := b.setMateDefect_off (max s.now n) .ais
  generalize b.setMateDefect (max s.now n) .ais false = c at ais
  have rdi := c.setMateDefect_off (max s.now n) .rdi
  generalize c.setMateDefect (max s.now n) .rdi false = e at rdi
  refine ⟨?_, ?_, ?_, rdi.bit, ?_⟩
  · exact (rdi.bits .los (by decide)).trans ((ais.bits .los (by decide)).trans ((lof.bits .los (by decide)).trans los.bit))
  · exact (rdi.bits .lof (by decide)).trans ((ais.bits .lof (by decide)).trans lof.bit)
  · exact (rdi.bits .ais (by decide)).trans ais.bit
  · change (e.source 388).level = true
    rw [rdi.source 388 (by decide), ais.source 388 (by decide), lof.source 388 (by decide)]
    exact los.level

theorem mateDefectClear_los (hr : Timed.ripe s.dev.mate.losClr (max s.now n) = true)
    (h : s.dev.mateDefect .los = true) : Completes (.mateDefectClear n .los) s n fun e =>
      e.mateDefect .los = false ∧ s.dev.released e 388 := by
  refine completes_at rfl ?_
  simp only [hr, if_true]
  have off := s.dev.setMateDefect_off (max s.now n) .los
  have released := s.dev.setMateDefect_released (n := max s.now n) h
  generalize s.dev.setMateDefect (max s.now n) .los false = a at off released
  exact ⟨off.bit, released⟩

/-- Settles O16: what a defect's bit, its event and its source become follows from the two states the bit may take; the masks and
the terminals' states follow from them. -/
theorem defectsDeclareAndClear : Obligations.DefectsDeclareAndClear := by
  unfold Obligations.DefectsDeclareAndClear
  exact ⟨fun s n t ht hm hs => ⟨treeDefectDeclare_ais ht hm hs, treeDefectClear_ais ht hm,
      fun hr h hg => treeDefectDeclare_los ht hm hs hr h hg, treeDefectClear_los ht hm⟩,
    fun s n g hg hm he _ => ⟨terminalDefectDeclare_losi hg hm, terminalDefectClear_losi hg hm he⟩,
    fun s n => ⟨mateDefectDeclare_ais, mateDefectClear_ais, mateDefectDeclare_los, mateDefectClear_los⟩⟩

end Sys2Proof.Machine
end

section
/-!
PROOFS. A frame that the device makes and queues changes its buffers, its registers, its faults and the holds of its
destination, and nothing else of the device (R178-R195).
-/
namespace Sys2Proof.Machine
open Sys2Proof

variable (d : Dev)

/-- The device but for its registers, faults, buffers, schedulers, holds, samples, older versions and open values. -/
def Dev.butBuffers (d : Dev) : Dev :=
  { d with
    regs := [], faults := {}, buf := {}, sched := {}, sampler := {}, older := [], terms := [], ports := [], free := 0
    mgmt := { d.mgmt with commitReady := none } }

theorem Dev.wire_of_butBuffers {d e : Dev} (h : e.butBuffers = d.butBuffers) : e.wire = d.wire := by
  change e.butBuffers.wire = d.butBuffers.wire
  rw [h]

@[simp] theorem Dev.wr_butBuffers (r : Reg) (i v : Nat) : (d.wr r i v).butBuffers = d.butBuffers := rfl
@[simp] theorem Dev.add_butBuffers (r : Reg) (i k : Nat) : (d.add r i k).butBuffers = d.butBuffers := rfl
@[simp] theorem Dev.bump_butBuffers (r : Reg) (i : Nat) : (d.bump r i).butBuffers = d.butBuffers := rfl
@[simp] theorem Dev.modTerm_butBuffers (g : Nat) (f : Term → Term) : (d.modTerm g f).butBuffers = d.butBuffers := rfl
@[simp] theorem Dev.modPort_butBuffers (p : Nat) (f : Port → Port) : (d.modPort p f).butBuffers = d.butBuffers := rfl
@[simp] theorem Dev.setRing_butBuffers (b : Nat) (r : Ring) : (d.setRing b r).butBuffers = d.butBuffers := rfl
@[simp] theorem Dev.setDesc_butBuffers (k : Nat) (x : Desc) : (d.setDesc k x).butBuffers = d.butBuffers := rfl
@[simp] theorem Dev.withBuf_butBuffers (b : Buffer) : ({ d with buf := b } : Dev).butBuffers = d.butBuffers := rfl
@[simp] theorem Dev.drawNoise_butBuffers : d.drawNoise.2.butBuffers = d.butBuffers := rfl
@[simp] theorem Dev.updateAvg_butBuffers (q r : Nat) : (d.updateAvg q r).butBuffers = d.butBuffers := rfl

@[simp] theorem Dev.event_butBuffers (n s index : Nat) : (d.event n s index).butBuffers = d.butBuffers := by
  change (d.event n s index).butFaults.butBuffers = d.butFaults.butBuffers
  rw [Dev.event_butFaults]

/-! ### Cells and frames -/

@[simp] theorem Dev.freeCell_butBuffers (n c : Nat) : (d.freeCell n c).butBuffers = d.butBuffers := by
  unfold Dev.freeCell
  dsimp only
  split
  · simp
  · split <;> simp

@[simp] theorem Dev.uncharge_butBuffers (pool k : Nat) : (d.uncharge pool k).butBuffers = d.butBuffers :=
  d.wr_butBuffers _ _ _

@[simp] theorem Dev.charge_butBuffers (pool : Nat) : (d.charge pool).butBuffers = d.butBuffers := by
  unfold Dev.charge
  simp

section
variable {d} {e : Dev} {b c tries : Nat}

theorem Dev.takeFromBank_butBuffers (h : d.takeFromBank b = some (c, e)) : e.butBuffers = d.butBuffers := by
  unfold Dev.takeFromBank at h
  dsimp only at h
  split at h
  · split at h
    · cases h
      simp
    · split at h <;> cases h
      simp
  · split at h <;> cases h
    simp

theorem Dev.takeInTurn_butBuffers (h : d.takeInTurn tries b = some (c, e)) : e.butBuffers = d.butBuffers := by
  induction tries generalizing b with
  | zero => cases h
  | succ tries ih =>
    unfold Dev.takeInTurn at h
    split at h
    · next f hf =>
      cases h
      simpa using Dev.takeFromBank_butBuffers hf
    · exact ih h

end

theorem Dev.takeCells_butBuffers (pool k : Nat) (got : List Nat) :
    (d.takeCells pool k got).2.2.butBuffers = d.butBuffers := by
  induction k generalizing d got with
  | zero => rfl
  | succ k ih =>
    unfold Dev.takeCells
    split
    · rfl
    · split
      · rfl
      · next e he => rw [ih, Dev.charge_butBuffers, Dev.takeInTurn_butBuffers he]

theorem Dev.badRead_butBuffers : d.badRead.butBuffers = d.butBuffers := by
  unfold Dev.badRead
  dsimp only
  split
  · rfl
  · next e he => rw [Dev.takeInTurn_butBuffers he, Dev.withBuf_butBuffers]

/-- Both devices that storing a frame yields, the one with the frame and the one without. -/
theorem Dev.storeFrame_butBuffers (n pool length : Nat) (bytes : Bytes) :
    (d.storeFrame n pool length bytes).2.butBuffers = d.butBuffers ∧
      ∀ c e, (d.storeFrame n pool length bytes).1 = some (c, e) → e.butBuffers = d.butBuffers := by
  have taken := d.takeCells_butBuffers pool (cellsOf length) []
  unfold Dev.storeFrame
  split
  · exact ⟨d.badRead_butBuffers, fun c e h => absurd h.symm (Option.some_ne_none _)⟩
  · split
    · next e he =>
      rw [he] at taken
      refine ⟨rfl, fun c f h => ?_⟩
      cases h
      exact taken
    · next e he =>
      rw [he] at taken
      refine ⟨?_, fun c e h => absurd h.symm (Option.some_ne_none _)⟩
      rw [Dev.bump_butBuffers, Dev.uncharge_butBuffers,
        Dev.each_keeps _ Dev.butBuffers fun d c _ => d.freeCell_butBuffers n c]
      exact taken

/-! ### Descriptors and queues -/

@[simp] theorem Dev.addDesc_butBuffers (x : Desc) : (d.addDesc x).2.butBuffers = d.butBuffers :=
  Dev.wr_butBuffers _ .descFree _ _

@[simp] theorem Dev.setQueue_butBuffers (q : Nat) (l : List Nat) : (d.setQueue q l).butBuffers = d.butBuffers := by
  unfold Dev.setQueue
  dsimp only
  split
  · split <;> rfl
  · rfl

@[simp] theorem Dev.pushQueue_butBuffers (q k : Nat) : (d.pushQueue q k).butBuffers = d.butBuffers :=
  d.setQueue_butBuffers q _

@[simp] theorem Dev.settleCommit_butBuffers (n : Nat) : (d.settleCommit n).butBuffers = d.butBuffers := by
  unfold Dev.settleCommit
  split <;> rfl

@[simp] theorem Dev.leaveVersion_butBuffers (n w : Nat) : (d.leaveVersion n w).butBuffers = d.butBuffers := by
  have left := d.wr_butBuffers .verInflight w (d.rd .verInflight w - 1)
  unfold Dev.leaveVersion
  dsimp only
  split
  · exact (Dev.settleCommit_butBuffers _ n).trans left
  · exact left

@[simp] theorem Dev.releaseChain_butBuffers (n chain : Nat) : (d.releaseChain n chain).butBuffers = d.butBuffers := by
  unfold Dev.releaseChain
  split
  · rfl
  · split
    · exact (Dev.uncharge_butBuffers _ _ _).trans (Dev.each_keeps _ Dev.butBuffers fun d c _ => d.freeCell_butBuffers n c)
    · rfl

@[simp] theorem Dev.freeDesc_butBuffers (n k : Nat) : (d.freeDesc n k).butBuffers = d.butBuffers := by
  unfold Dev.freeDesc
  split
  · rfl
  · dsimp only
    split <;> simp

@[simp] theorem Dev.follow_butBuffers (id : Option Nat) (f : Followed → Followed) :
    (d.follow id f).butBuffers = d.butBuffers := by
  unfold Dev.follow
  split <;> rfl

@[simp] theorem Dev.sampleDone_butBuffers (id : Option Nat) (outcome : Nat) :
    (d.sampleDone id outcome).butBuffers = d.butBuffers := by
  unfold Dev.sampleDone
  split
  · rfl
  · split
    · rfl
    · exact Dev.wr_butBuffers _ .sampleNext _ _

@[simp] theorem Dev.dropDesc_butBuffers (n k outcome : Nat) : (d.dropDesc n k outcome).butBuffers = d.butBuffers := by
  unfold Dev.dropDesc
  split
  · rfl
  · dsimp only
    split <;> simp

/-- A queue flushed, each frame counted in a register. -/
theorem Dev.flushQueue_butBuffers (n q : Nat) (r : Reg) (i : Nat) :
    (d.flushQueue n q fun d => d.bump r i).butBuffers = d.butBuffers :=
  (Dev.each_keeps _ Dev.butBuffers fun d k _ => (Dev.bump_butBuffers _ r i).trans (d.dropDesc_butBuffers n k 6)).trans
    (d.setQueue_butBuffers q [])

theorem Dev.flushTerm_butBuffers (n g : Nat) : (d.flushTerm n g).butBuffers = d.butBuffers :=
  d.each_keeps Dev.butBuffers fun d q _ => d.flushQueue_butBuffers n (downQueue g q) .termFlushed g

theorem Dev.flushPort_butBuffers (n p : Nat) : (d.flushPort n p).butBuffers = d.butBuffers :=
  d.each_keeps Dev.butBuffers fun d q _ => d.flushQueue_butBuffers n (upQueue p q) .flushedFrames p

theorem Dev.settleHold_butBuffers (n : Nat) (x : Desc) : (d.settleHold n x).butBuffers = d.butBuffers := by
  unfold Dev.settleHold Dev.settlePortHold Dev.settleTermHold Dev.endPortHold Dev.endTermHold
  split
  · split
    · split
      · rw [Dev.flushPort_butBuffers, Dev.modPort_butBuffers, Dev.wr_butBuffers]
      · rfl
    · rfl
  · split
    · split
      · rw [Dev.flushTerm_butBuffers, Dev.modTerm_butBuffers]
      · rfl
    · rfl
  · rfl

theorem Dev.enqueue_butBuffers (n k : Nat) : (d.enqueue n k).2.butBuffers = d.butBuffers := by
  unfold Dev.enqueue
  split
  · rfl
  · next x _ =>
    have settled := d.settleHold_butBuffers n x
    have metered : (if x.meterEn then (d.settleHold n x).metered n x.meter x.length x.colour
        else (x.colour, false, d.settleHold n x)).2.2.butBuffers = d.butBuffers := by
      split <;> exact settled
    dsimp only
    split
    · rw [Dev.dropDesc_butBuffers]
      split
      · split
        · exact settled
        · exact (Dev.bump_butBuffers _ _ _).trans settled
      · exact settled
    · generalize (if x.meterEn then (d.settleHold n x).metered n x.meter x.length x.colour
        else (x.colour, false, d.settleHold n x)) = m at metered
      obtain ⟨colour, drop, e⟩ := m
      replace metered : e.butBuffers = d.butBuffers := metered
      dsimp only
      rw [← metered]
      split
      · simp
      · split
        · simp
        · split <;> simp

/-- A frame that the device makes, stored and queued or dropped. -/
theorem Dev.queueDevice_butBuffers (n pool kind dest queue domain : Nat) (bytes : Bytes) (oneStep : Bool)
    (ring : Option Nat) :
    (d.queueDevice n pool kind dest queue domain bytes oneStep ring).2.butBuffers = d.butBuffers := by
  unfold Dev.queueDevice
  dsimp only
  obtain ⟨left, stored⟩ := d.storeFrame_butBuffers n pool (max 64 (bytes.length + 4)) bytes
  split
  · next e he =>
    rw [he] at left
    exact left
  · next c e f he =>
    rw [he] at stored
    rw [Dev.enqueue_butBuffers, Dev.addDesc_butBuffers, stored c e rfl]

end Sys2Proof.Machine
end

section
/-!
PROOFS. Performance seconds ended and committed (R57, R58), indications repeated (R59, R60), and what the host sends and is told
on the Overhead Serial Ports (R61-R65, R350).
-/
namespace Sys2Proof.Machine
open Sys2Proof

variable (d : Dev)

/-! ### Performance seconds -/

/-- The end of a terminal's second with a new burst profile entry `k` (R80). -/
theorem Dev.steered_pmEnds (n g k : Nat) (f : Term → Term) :
    (((d.wr .bpEntry g k).modTerm g f).mirrorTerm n g).pmEnds = d.pmEnds := by
  rw [Dev.mirrorTerm, Dev.durable_pmEnds, Dev.modTerm_pmEnds, Dev.wr_pmEnds]

theorem Dev.steer_pmEnds (n g : Nat) : (d.steer n g).pmEnds = d.pmEnds := by
  unfold Dev.steer
  dsimp only
  generalize hm : (if (d.term g).secBits = 0 then d.draw else (0, d)) = m
  have drawn : m.2.pmEnds = d.pmEnds := by
    rw [← hm]
    split <;> rfl
  rw [← drawn]
  generalize (if (d.term g).secBits = 0 then m.1 else (d.term g).secErr * 1000000) = errs
  generalize (if (!(d.term g).secBad && decide (errs ≤ _)) = true then (d.term g).goodSeconds + 1 else 0) = run
  split
  · split
    · exact m.2.steered_pmEnds ..
    · rfl
  · split
    · split
      · exact m.2.steered_pmEnds ..
      · rfl
    · rfl

theorem Dev.endTermSecond_pmEnds (n waiting g : Nat) : (d.endTermSecond n waiting g).pmEnds = d.pmEnds := by
  unfold Dev.endTermSecond
  dsimp only
  split
  · exact d.steer_pmEnds n g
  · rfl

/-- Every tree's second ends, then every terminal's that has anything to account for. -/
def Dev.endSeconds (d : Dev) (n k : Nat) : Dev :=
  let e := d.each allTrees fun d t => d.endTreeSecond k t
  e.each e.busyTerms fun d g => d.endTermSecond n k g

theorem Dev.endSeconds_pmEnds (n k : Nat) : (d.endSeconds n k).pmEnds = d.pmEnds :=
  (Dev.each_keeps _ Dev.pmEnds fun d g _ => d.endTermSecond_pmEnds n k g).trans
    (d.each_keeps Dev.pmEnds fun _ _ _ => rfl)

variable {s : State} {n : Nat}

theorem pmSecondEnd_completes (h : s.dev.rd .superframe 0 / 8000 ≠ s.dev.pmSecond) :
    Completes (.pmSecondEnd n) s n fun e =>
      e.pmSecond = s.dev.rd .superframe 0 / 8000 ∧
      e.pmEnds = s.dev.pmEnds ++ [s.dev.rd .superframe 0 / 8000 * 8000] := by
  refine completes_at rfl ?_
  dsimp only
  rw [if_neg h]
  exact ⟨rfl, congrArg (· ++ _) (s.dev.endSeconds_pmEnds (max s.now n) s.dev.pmEnds.length)⟩

/-- The counters that a second's commit may advance (R58). -/
def secondRegs : List Reg :=
  [.treePmEs, .treePmSes, .treePmUas, .termPmEs, .termPmSes, .termPmUas, .mateLineEs, .mateLineSes, .mateLineUas]

variable (es ses uas : Reg) (i : Nat) (r : Bool × Bool × Bool)

theorem Dev.when_bump_pmEnds (c : Bool) (r : Reg) (i : Nat) : (d.when c (·.bump r i)).pmEnds = d.pmEnds := by
  cases c
  · rfl
  · exact d.wr_pmEnds r i _

theorem Dev.when_bump_rd (c : Bool) {r q : Reg} (i j : Nat) (h : q ≠ r) : (d.when c (·.bump r i)).rd q j = d.rd q j := by
  cases c
  · rfl
  · exact d.bump_rd_other i j h

theorem Dev.countSecond_pmEnds : (d.countSecond es ses uas i r).pmEnds = d.pmEnds := by
  unfold Dev.countSecond
  rw [Dev.when_bump_pmEnds, Dev.when_bump_pmEnds, Dev.when_bump_pmEnds]

theorem Dev.countSecond_rd {q : Reg} (j : Nat) (h : q ∉ [es, ses, uas]) :
    (d.countSecond es ses uas i r).rd q j = d.rd q j := by
  simp only [List.mem_cons, List.not_mem_nil, or_false, not_or] at h
  unfold Dev.countSecond
  rw [Dev.when_bump_rd _ _ _ _ h.2.2, Dev.when_bump_rd _ _ _ _ h.2.1, Dev.when_bump_rd _ _ _ _ h.1]

/-- The oldest second of a tree committed, and of a terminal (R58). -/
def Dev.commitTree (d : Dev) (t : Nat) : Dev :=
  (d.modTree t fun x => { x with pm := (d.tree t).pm.commitSecond.2 }).countSecond .treePmEs .treePmSes .treePmUas t
    (d.tree t).pm.commitSecond.1
def Dev.commitTerm (d : Dev) (g : Nat) : Dev :=
  (d.modTerm g fun x => { x with pm := (d.term g).pm.commitSecond.2 }).countSecond .termPmEs .termPmSes .termPmUas g
    (d.term g).pm.commitSecond.1

/-- The oldest second of every tree and of every terminal committed. -/
def Dev.commitSeconds (d : Dev) : Dev :=
  (d.each allTrees Dev.commitTree).each (Tab.keys (d.each allTrees Dev.commitTree).terms) Dev.commitTerm

theorem Dev.commitSeconds_rd {q : Reg} (j : Nat) (h : q ∉ secondRegs) : d.commitSeconds.rd q j = d.rd q j := by
  simp only [secondRegs, List.mem_cons, List.not_mem_nil, or_false, not_or] at h
  have trees : ∀ (d : Dev) (t : Nat), (d.commitTree t).rd q j = d.rd q j := fun d t => by
    rw [Dev.commitTree, Dev.countSecond_rd _ _ _ _ _ _ _ (by simp [h]), Dev.modTree_rd]
  have terms : ∀ (d : Dev) (g : Nat), (d.commitTerm g).rd q j = d.rd q j := fun d g => by
    rw [Dev.commitTerm, Dev.countSecond_rd _ _ _ _ _ _ _ (by simp [h]), Dev.modTerm_rd]
  exact (Dev.each_keeps _ (·.rd q j) fun d g _ => terms d g).trans (d.each_keeps (·.rd q j) fun d t _ => trees d t)

theorem Dev.rd_withSecond (m : Mate) (l : List Nat) (q : Reg) (j : Nat) :
    ({ d with mate := m, pmEnds := l } : Dev).rd q j = d.rd q j := rfl

theorem pmSecondCommit_completes {k : Nat} {rest : List Nat} (hk : s.dev.pmEnds = k :: rest)
    (h : k + 80000 ≤ s.dev.rd .superframe 0) : Completes (.pmSecondCommit n) s n fun e =>
      e.pmEnds = rest ∧ s.dev.rdKept e secondRegs := by
  have kept : ∀ r i, r ∉ secondRegs → s.dev.commitSeconds.rd r i = s.dev.rd r i := fun r i => s.dev.commitSeconds_rd i
  unfold Dev.commitSeconds Dev.commitTree Dev.commitTerm at kept
  refine completes_at rfl ?_
  simp only [hk, Nat.not_lt.2 h, if_false]
  refine ⟨Dev.countSecond_pmEnds .., fun r i hr => ?_⟩
  have mates : r ∉ [.mateLineEs, .mateLineSes, .mateLineUas] := fun hm => hr (List.mem_of_mem_drop (i := 6) hm)
  rw [Dev.countSecond_rd _ _ _ _ _ _ _ mates, Dev.rd_withSecond]
  exact kept r i hr

/-! ### Indications -/

/-- What an indication makes of its tree, but for the keystream. -/
def Tree.indicated (n event : Nat) (x : Tree) : Tree :=
  { x with indSeq := (x.indSeq + 1) % 256, indAt := n, indEvent := event }

theorem Dev.seen_indicate_same (v : Sight) (n t event : Nat) :
    (d.indicate n t event).seen v = (d.modTree t (Tree.indicated n event)).seen v := by
  unfold Dev.indicate
  dsimp only
  generalize hm : (if 14 ≤ d.rd .indicationOffset t ∧ d.rd .indicationOffset t + 4 ≤ d.rd .indLength t then _ else _) = m
  have drawn : (m.2.modTree t (Tree.indicated n event)).seen v = (d.modTree t (Tree.indicated n event)).seen v := by
    rw [← hm]
    split <;> rfl
  rw [← drawn]
  split <;> rw [Dev.seen_bump v _ t (by decide), Dev.seen_when v _ _ (Dev.seen_orderIndication v _ n t _),
    Dev.seen_queueDevice] <;> rfl

theorem indicationRepeat_completes {t b : Nat} (ht : t < 32) (hb : b < 4) (hr : s.dev.rd .repeatMs t ≠ 0)
    (hd : bitAt (s.dev.rd .treeDefects t) b = true) (hm : bitAt (s.dev.rd .enableMask t) b = true)
    (hn : (s.dev.tree t).indAt + msTicks (s.dev.rd .repeatMs t) ≤ max s.now n) :
    Completes (.indicationRepeat n t) s n fun e =>
      (e.tree t).indSeq = ((s.dev.tree t).indSeq + 1) % 256 ∧ (e.tree t).indAt = max s.now n ∧
      (e.tree t).indEvent = (s.dev.tree t).indEvent := by
  have declared : ((List.range 4).any fun b => bitAt (s.dev.rd .treeDefects t) b && bitAt (s.dev.rd .enableMask t) b) = true :=
    List.any_eq_true.2 ⟨b, List.mem_range.2 hb, by rw [hd, hm]; rfl⟩
  refine completes_onElement rfl ht ?_
  simp only [declared, hn, hr, ne_eq, not_false_eq_true, decide_true, Bool.and_self, if_true]
  rw [Dev.tree_of_seen (s.dev.seen_indicate_same (treeSight t) (max s.now n) t _), Dev.tree_modTree_same]
  exact ⟨rfl, rfl, rfl⟩

/-! ### Messages from the host (R65) -/

theorem Dev.bump_wire (r : Reg) (i : Nat) : (d.bump r i).wire = d.wire := d.wr_wire r i _

theorem Reg.modulus_rxDiscarded : Reg.modulus .rxDiscarded = 2 ^ 64 := by decide +kernel
theorem Reg.modulus_rxMessages : Reg.modulus .rxMessages = 2 ^ 64 := by decide +kernel

variable {p g : Nat} {wire : Bytes} {broadcast : Bool} {payload : Bytes}

theorem Dev.ospHost_bad (n : Nat) (h : d.hostMessage wire = none) : d.ospHost n p wire = d.bump .rxDiscarded p := by
  unfold Dev.ospHost
  rw [h]

theorem Dev.ospHost_full (n : Nat) (h : d.hostMessage wire = some (1, broadcast, g, payload))
    (hf : 64 ≤ (d.tree (treeOfTerm g)).hostMsgs.length) : d.ospHost n p wire = d.bump .rxDiscarded p := by
  unfold Dev.ospHost
  rw [h]
  exact (if_pos rfl).trans (if_pos hf)

/-- A PLOAM message joins its tree's queue, whose free slots change. -/
def Tree.queueHost (m : Ploam) (x : Tree) : Tree := { x with hostMsgs := x.hostMsgs ++ [m], creditDue := true }

theorem Dev.ospHost_ploam (n : Nat) (h : d.hostMessage wire = some (1, broadcast, g, payload))
    (hf : (d.tree (treeOfTerm g)).hostMsgs.length < 64) : d.ospHost n p wire =
      (d.bump .rxMessages p).modTree (treeOfTerm g) (Tree.queueHost (.host broadcast g payload)) := by
  unfold Dev.ospHost
  rw [h]
  exact (if_pos rfl).trans (if_neg (Nat.not_le.2 hf))

/-- An OMCI message goes as a frame toward its terminal, on a port that the manual leaves open. -/
theorem Dev.ospHost_omci (n : Nat) (h : d.hostMessage wire = some (2, broadcast, g, payload)) :
    ∃ dest queue domain, d.ospHost n p wire =
      ((d.bump .rxMessages p).draw.2.queueDevice n 32 1 dest queue domain payload false none).2 := by
  unfold Dev.ospHost
  rw [h]
  exact ⟨_, _, _, if_neg (by decide)⟩

section
variable (hu : s.dev.chip.phase = .up) (hp : p < 2)
include hu hp

theorem ospHostMessage_up {q : Dev → Prop} (h : q (s.dev.ospHost (max s.now n) p wire)) :
    Completes (.ospHostMessage n p wire) s n q :=
  completes_onElement rfl hp (by rw [if_pos hu]; exact h)

/-- A message that is counted as discarded, and no more. -/
theorem ospHostMessage_discarded (h : s.dev.ospHost (max s.now n) p wire = s.dev.bump .rxDiscarded p) :
    Completes (.ospHostMessage n p wire) s n fun e =>
      e.rd .rxDiscarded p = (s.dev.rd .rxDiscarded p + 1) % 2 ^ 64 ∧ s.dev.onlyRegs e [(.rxDiscarded, p)] :=
  ospHostMessage_up hu hp (h ▸ ⟨s.dev.rd_bump_counter p Reg.modulus_rxDiscarded, s.dev.onlyRegs_bump _ _⟩)

theorem ospHostMessage_ploam (h : s.dev.hostMessage wire = some (1, broadcast, g, payload))
    (hf : (s.dev.tree (treeOfTerm g)).hostMsgs.length < 64) : Completes (.ospHostMessage n p wire) s n fun e =>
      (e.tree (treeOfTerm g)).hostMsgs = (s.dev.tree (treeOfTerm g)).hostMsgs ++ [.host broadcast g payload] ∧
      e.rd .rxMessages p = (s.dev.rd .rxMessages p + 1) % 2 ^ 64 ∧ s.dev.regsKept e [(.rxMessages, p)] := by
  refine ospHostMessage_up hu hp ?_
  rw [Dev.ospHost_ploam _ _ h hf]
  refine ⟨?_, ?_, fun r i hr => ?_⟩
  · rw [Dev.tree_modTree_same, Dev.bump_eq, Dev.wr_tree]
    rfl
  · rw [Dev.modTree_rd, Dev.rd_bump_counter _ _ Reg.modulus_rxMessages]
  · rw [Dev.modTree_rd, (s.dev.onlyRegs_bump .rxMessages p).1 r i hr]

theorem ospHostMessage_omci (h : s.dev.hostMessage wire = some (2, broadcast, g, payload)) :
    Completes (.ospHostMessage n p wire) s n fun e =>
      e.rd .rxMessages p = (s.dev.rd .rxMessages p + 1) % 2 ^ 64 ∧ e.wire = s.dev.wire := by
  refine ospHostMessage_up hu hp ?_
  obtain ⟨dest, queue, domain, he⟩ := Dev.ospHost_omci (p := p) s.dev (max s.now n) h
  rw [he]
  constructor
  · rw [Dev.rd_of_unbuffered (Dev.unbuffered_queueDevice ..) _ (by decide), Dev.draw_snd]
    exact s.dev.rd_bump_counter p Reg.modulus_rxMessages
  · rw [Dev.wire_of_butBuffers (Dev.queueDevice_butBuffers ..), Dev.draw_snd]
    exact s.dev.bump_wire .rxMessages p

end

theorem ospHostMessage_down (hu : s.dev.chip.phase ≠ .up) (hp : p < 2) :
    Completes (.ospHostMessage n p wire) s n fun e => e = s.dev :=
  completes_onElement rfl hp (if_neg hu)

/-! ### Credits toward the host (R65) -/

theorem Dev.Told.ospSend (d : Dev) (n p terminal : Nat) (m : Bytes) : d.Told (d.ospSend n p terminal m) := by
  unfold Dev.ospSend
  exact Dev.Told.ospTransmit ..

/-- A credit has gone in the frame of count `sfc`. -/
def Tree.credited (sfc : Nat) (x : Tree) : Tree := { x with creditDue := false, creditSent := some sfc }

theorem Dev.modTree_ospHeld (t : Nat) (f : Tree → Tree) (n p : Nat) : (d.modTree t f).ospHeld n p = d.ospHeld n p := rfl

/-- The message of a tree's credit of count `sfc`: its free slots. -/
def Dev.creditMessage (d : Dev) (t sfc : Nat) : Bytes := ospFrame 3 0 (t * 512) sfc [64 - (d.tree t).hostMsgs.length]

/-- A tree's credit goes on its serial port. -/
def Dev.sendCredit (d : Dev) (n t sfc : Nat) : Dev :=
  let e := d.modTree t (Tree.credited sfc)
  e.ospSend n (e.rd .ospPort t) (t * 512) (e.creditMessage t sfc)

theorem Dev.sendCredit_tree (n t sfc : Nat) : (d.sendCredit n t sfc).tree t = (d.tree t).credited sfc := by
  rw [Dev.sendCredit, (Dev.Told.ospSend ..).tree, Dev.tree_modTree_same]

theorem Dev.sendCredit_wire {n t sfc : Nat}
    (h : d.ospHeld n (d.rd .ospPort t) + ospUnits (ospWire (d.creditMessage t sfc) none).length ≤ ospStore) :
    (d.sendCredit n t sfc).wire = d.wire ++ [.ospMessage (d.rd .ospPort t) (ospWire (d.creditMessage t sfc) none)] := by
  have slots : (d.modTree t (Tree.credited sfc)).creditMessage t sfc = d.creditMessage t sfc := by
    rw [Dev.creditMessage, Dev.tree_modTree_same]
    rfl
  rw [Dev.sendCredit, Dev.modTree_rd, slots, Dev.ospSend_wire _ _ _ (by rwa [Dev.modTree_ospHeld]), Dev.modTree_wire]

theorem ospCredit_goes (hu : s.dev.chip.phase = .up) (ht : t < 32) (hd : (s.dev.tree t).creditDue = true)
    (hs : (s.dev.tree t).creditSent ≠ some (s.dev.rd .superframe 0)) :
    let p := s.dev.rd .ospPort t
    let wire := ospWire (ospFrame 3 0 (t * 512) (s.dev.rd .superframe 0) [64 - (s.dev.tree t).hostMsgs.length]) none
    Completes (.ospCredit n t) s n fun e =>
      (e.tree t).creditDue = false ∧ (e.tree t).creditSent = some (s.dev.rd .superframe 0) ∧
      (s.dev.ospHeld (max s.now n) p + ospUnits wire.length ≤ ospStore → e.wire = s.dev.wire ++ [.ospMessage p wire]) := by
  refine completes_onElement rfl ht ?_
  have goes : (decide (s.dev.chip.phase = .up) && (s.dev.tree t).creditDue
      && decide ((s.dev.tree t).creditSent ≠ some (s.dev.rd .superframe 0))) = true := by simp [hu, hd, hs]
  dsimp only
  rw [if_pos goes]
  have tree := s.dev.sendCredit_tree (max s.now n) t (s.dev.rd .superframe 0)
  exact ⟨congrArg Tree.creditDue tree, congrArg Tree.creditSent tree, s.dev.sendCredit_wire⟩

theorem ospCredit_down (hu : s.dev.chip.phase ≠ .up) (ht : t < 32) :
    Completes (.ospCredit n t) s n fun e => e = s.dev := by
  refine completes_onElement rfl ht ?_
  simp only [hu, decide_false, Bool.false_and, Bool.false_eq_true, if_false]

/-- Settles O17: the ends of seconds wait in their order; an indication is told again; and a message of the host is judged by its
own bytes and by the room of its tree's queue. -/
theorem secondsAndSerialPorts : Obligations.SecondsAndSerialPorts := by
  unfold Obligations.SecondsAndSerialPorts
  refine ⟨fun s n => ⟨pmSecondEnd_completes, fun k rest => pmSecondCommit_completes⟩,
    fun s n t b ht hb hr hd hm hn => indicationRepeat_completes ht hb hr hd hm hn,
    fun s n hu => ⟨fun p wire hp => ⟨?_, ?_, ?_, ?_⟩, fun t ht hd hs => ospCredit_goes hu ht hd hs⟩,
    fun s n hu => ⟨fun p wire hp => ospHostMessage_down hu hp, fun t ht => ospCredit_down hu ht⟩⟩
  · exact fun h => ospHostMessage_discarded hu hp (s.dev.ospHost_bad _ h)
  · exact fun broadcast g payload h hf => ospHostMessage_discarded hu hp (s.dev.ospHost_full _ h hf)
  · exact fun broadcast g payload h => ospHostMessage_omci hu hp h
  · exact fun broadcast g payload h hf => ospHostMessage_ploam hu hp h hf

end Sys2Proof.Machine
end

section
/-!
PROOFS. Discovery windows and the discovery list (R70, R73), the rogue watch (R82), ranging and lost timers (R68, R77), and
reports that are missed (R91).
-/
namespace Sys2Proof.Machine
open Sys2Proof

variable (d : Dev) {s : State} {n t g : Nat}

/-! ### Discovery (R70, R73) -/

/-- A tree has announced its entries again in the frame of count `c`, and has opened its window in it. -/
def Tree.announcedAgain (c : Nat) (x : Tree) : Tree := { x with announcedIn := some c }
def Tree.windowOpened (c : Nat) (x : Tree) : Tree := { x with windowFrame := some c, captures := 0 }

/-- Messages that join a tree's queue one after another, and nothing else of the tree. -/
theorem Dev.each_seqMsg_tree (t : Nat) (f : Nat → Ploam) (l : List Nat) :
    (d.each l fun d k => d.seqMsg t (f k)).tree t =
      { d.tree t with sequencer := (d.tree t).sequencer ++ l.map f } := by
  induction l generalizing d with
  | nil => simp
  | cons k l ih =>
    rw [Dev.each_cons, ih, Dev.seqMsg, Dev.tree_modTree_same]
    simp

theorem Dev.each_seqMsg_tree_ne (t : Nat) (f : Nat → Ploam) (l : List Nat) {x : Nat} (h : x ≠ t) :
    (d.each l fun d k => d.seqMsg t (f k)).tree x = d.tree x :=
  d.each_keeps (Dev.tree · x) fun d _ _ => (d.tree_modTree t x _).trans (if_neg h)

theorem Dev.each_seqMsg_regs (t : Nat) (f : Nat → Ploam) (l : List Nat) :
    (d.each l fun d k => d.seqMsg t (f k)).regs = d.regs :=
  d.each_keeps Dev.regs fun _ _ _ => rfl

/-- Tree `t` notes the frame of its phase, and with DISC_ENABLE 1 begins capturing. -/
def Dev.openWindow (d : Dev) (t c : Nat) : Dev :=
  let d := d.modTree t (Tree.announcedAgain c)
  d.when (d.windowIn t c) fun d => d.modTree t (Tree.windowOpened c)

/-- Tree `t` announces its valid entries. -/
def Dev.announceEntries (d : Dev) (t : Nat) : Dev :=
  d.each ((List.range 4).filter fun k => d.on .bpValid (4 * t + k)) fun d k => d.seqMsg t (.profileAnnounce k)

theorem Dev.openWindow_capturing {c : Nat} (h : d.windowIn t c = true) :
    d.openWindow t c = (d.modTree t (Tree.announcedAgain c)).modTree t (Tree.windowOpened c) := by
  have same : (d.modTree t (Tree.announcedAgain c)).windowIn t c = true := h
  unfold Dev.openWindow
  dsimp only
  rw [same]
  rfl

theorem Dev.openWindow_closed {c : Nat} (h : d.windowIn t c = false) :
    d.openWindow t c = d.modTree t (Tree.announcedAgain c) := by
  have same : (d.modTree t (Tree.announcedAgain c)).windowIn t c = false := h
  unfold Dev.openWindow
  dsimp only
  rw [same]
  rfl

theorem Dev.openWindow_keeps (t c : Nat) :
    (∀ x, x ≠ t → (d.openWindow t c).tree x = d.tree x) ∧ (d.openWindow t c).regs = d.regs := by
  have announced : ∀ x, x ≠ t → (d.modTree t (Tree.announcedAgain c)).tree x = d.tree x := fun x hx =>
    (d.tree_modTree t x _).trans (if_neg hx)
  cases h : d.windowIn t c
  · rw [d.openWindow_closed h]
    exact ⟨announced, rfl⟩
  · rw [d.openWindow_capturing h]
    exact ⟨fun x hx => (Dev.tree_modTree ..).trans ((if_neg hx).trans (announced x hx)), rfl⟩

theorem Dev.openWindow_tree (c : Nat) : (d.openWindow t c).tree t =
    if d.windowIn t c then ((d.tree t).announcedAgain c).windowOpened c else (d.tree t).announcedAgain c := by
  cases h : d.windowIn t c
  · rw [d.openWindow_closed h, Dev.tree_modTree_same, if_neg Bool.false_ne_true]
  · rw [d.openWindow_capturing h, Dev.tree_modTree_same, Dev.tree_modTree_same, if_pos rfl]

theorem Dev.on_of_regs {d e : Dev} (h : e.regs = d.regs) (r : Reg) (i : Nat) : e.on r i = d.on r i := by
  rw [Dev.on, Dev.rd, h, Dev.on, Dev.rd]

/-- What a frame of a tree's phase leaves behind. -/
structure Dev.WindowAnnounced (d e : Dev) (t c : Nat) : Prop where
  announcedIn : (e.tree t).announcedIn = some c
  sequencer : (e.tree t).sequencer =
    (d.tree t).sequencer ++ (((List.range 4).filter fun k => d.on .bpValid (4 * t + k)).map .profileAnnounce)
  capturing : d.windowIn t c = true → (e.tree t).windowFrame = some c ∧ (e.tree t).captures = 0
  closed : d.windowIn t c = false →
    (e.tree t).windowFrame = (d.tree t).windowFrame ∧ (e.tree t).captures = (d.tree t).captures
  trees : ∀ x, x ≠ t → e.tree x = d.tree x
  regs : e.regs = d.regs

theorem Dev.openWindow_announced (t c : Nat) : d.WindowAnnounced ((d.openWindow t c).announceEntries t) t c := by
  obtain ⟨trees, regs⟩ := d.openWindow_keeps t c
  have valid : ((d.openWindow t c).announceEntries t).tree t = { (d.openWindow t c).tree t with
      sequencer := ((d.openWindow t c).tree t).sequencer ++
        ((List.range 4).filter fun k => d.on .bpValid (4 * t + k)).map .profileAnnounce } := by
    rw [Dev.announceEntries, Dev.each_seqMsg_tree]
    simp only [Dev.on_of_regs regs]
  rw [d.openWindow_tree] at valid
  refine ⟨?_, ?_, fun h => ?_, fun h => ?_, fun x hx => ?_, ?_⟩
  · rw [valid]
    split <;> rfl
  · rw [valid]
    split <;> rfl
  · rw [valid, if_pos h]
    exact ⟨rfl, rfl⟩
  · rw [valid, if_neg (by simp [h])]
    exact ⟨rfl, rfl⟩
  · rw [Dev.announceEntries, Dev.each_seqMsg_tree_ne _ _ _ _ hx, trees x hx]
  · rw [Dev.announceEntries, Dev.each_seqMsg_regs, regs]

theorem discoveryWindowOpen_completes (ht : t < 32) (hl : (s.dev.tree t).lit = true)
    (hw : s.dev.framesToWindow t (s.dev.rd .superframe 0) = 0)
    (ha : (s.dev.tree t).announcedIn ≠ some (s.dev.rd .superframe 0)) :
    Completes (.discoveryWindowOpen n t) s n fun e =>
      (e.tree t).announcedIn = some (s.dev.rd .superframe 0) ∧
      (e.tree t).sequencer = (s.dev.tree t).sequencer ++
        (((List.range 4).filter fun k => s.dev.on .bpValid (4 * t + k)).map .profileAnnounce) ∧
      (s.dev.on .discEnable t = true →
        (e.tree t).windowFrame = some (s.dev.rd .superframe 0) ∧ (e.tree t).captures = 0) ∧
      (s.dev.on .discEnable t = false →
        (e.tree t).windowFrame = (s.dev.tree t).windowFrame ∧ (e.tree t).captures = (s.dev.tree t).captures) ∧
      (∀ x, x ≠ t → e.tree x = s.dev.tree x) ∧ e.regs = s.dev.regs := by
  have due : ((s.dev.tree t).lit && s.dev.framesToWindow t (s.dev.rd .superframe 0) == 0 &&
      decide ((s.dev.tree t).announcedIn ≠ some (s.dev.rd .superframe 0))) = true := by simp [hl, hw, ha]
  have opens : s.dev.windowIn t (s.dev.rd .superframe 0) = s.dev.on .discEnable t := by
    rw [Dev.windowIn, hw, beq_self_eq_true, Bool.and_true]
  obtain ⟨announcedIn, sequencer, capturing, closed, trees, regs⟩ :=
    s.dev.openWindow_announced t (s.dev.rd .superframe 0)
  rw [opens] at capturing closed
  refine completes_onElement rfl ht ?_
  dsimp only
  rw [if_pos due]
  exact ⟨announcedIn, sequencer, capturing, closed, trees, regs⟩

/-- Entry `i` of a tree's list cleared, and its refresh forgotten. -/
def Dev.clearEntry (d : Dev) (i : Nat) : Dev :=
  (((d.wr .listSn i 0).wr .coarseRtd i 0).wr .listValid i 0).modTree (i / 32) fun x =>
    { x with listRefresh := x.listRefresh.filter fun p => p.1 != i }

theorem Dev.clearEntry_rd (i : Nat) (r : Reg) (j : Nat) : (d.clearEntry i).rd r j =
    if (r = .listValid ∨ r = .coarseRtd ∨ r = .listSn) ∧ j = i then 0 else d.rd r j := by
  simp only [Dev.clearEntry, Dev.modTree_rd, Dev.rd_wr, Nat.zero_mod]
  grind

theorem Dev.clearEntry_refresh (i : Nat) {p : Nat × Nat} (h : p ∈ ((d.clearEntry i).tree (i / 32)).listRefresh) :
    p.1 ≠ i := by
  rw [Dev.clearEntry, Dev.tree_modTree_same] at h
  simpa using (List.mem_filter.1 h).2

/-- An entry has left its tree's list, whose count may be another. -/
theorem Dev.clearEntry_counted (i k : Nat) :
    let e := (d.clearEntry i).wr .discListCount (i / 32) k
    e.rd .listValid i = 0 ∧ e.rd .listSn i = 0 ∧ e.rd .coarseRtd i = 0 ∧
    (∀ p ∈ (e.tree (i / 32)).listRefresh, p.1 ≠ i) ∧
    d.regsKept e [(.listValid, i), (.listSn, i), (.coarseRtd, i), (.discListCount, i / 32)] := by
  have rd : ∀ {r : Reg} {j : Nat}, (r, j) ≠ (.discListCount, i / 32) →
      ((d.clearEntry i).wr .discListCount (i / 32) k).rd r j = (d.clearEntry i).rd r j := fun h => by
    rw [Dev.rd_wr, if_neg fun e => h (by rw [e.1, e.2])]
  refine ⟨?_, ?_, ?_, fun p hp => d.clearEntry_refresh i hp, fun r j hr => ?_⟩
  · rw [rd (by simp), Dev.clearEntry_rd, if_pos (by simp)]
  · rw [rd (by simp), Dev.clearEntry_rd, if_pos (by simp)]
  · rw [rd (by simp), Dev.clearEntry_rd, if_pos (by simp)]
  · rw [rd fun h => hr (by simp [h]), Dev.clearEntry_rd, if_neg]
    rintro ⟨rfl | rfl | rfl, rfl⟩ <;> simp at hr

theorem discListAgeOut_completes {i at_ : Nat} (hi : i < 1024)
    (hf : ((s.dev.tree (i / 32)).listRefresh.find? fun p => p.1 == i) = some (i, at_))
    (h : at_ + msTicks 60000 ≤ max s.now n) : Completes (.discListAgeOut n i) s n fun e =>
      e.rd .listValid i = 0 ∧ e.rd .listSn i = 0 ∧ e.rd .coarseRtd i = 0 ∧
      (∀ p ∈ (e.tree (i / 32)).listRefresh, p.1 ≠ i) ∧
      s.dev.regsKept e [(.listValid, i), (.listSn, i), (.coarseRtd, i), (.discListCount, i / 32)] := by
  refine completes_onElement rfl hi ?_
  simp only [hf, Nat.not_lt.2 h, if_false]
  exact s.dev.clearEntry_counted i _

/-! ### The rogue watch (R82) -/

theorem Reg.modulus_idleLit : Reg.modulus .idleLit = 2 ^ 64 := by decide +kernel
theorem Reg.modulus_rogueSuspect : Reg.modulus .rogueSuspect = 65536 := by decide +kernel

/-- The pulse at the start of a watched slot. -/
def Dev.watchPulse (d : Dev) (t : Nat) (x : (BurstRef × Nat × Nat) × RogueSlot) : Emission :=
  .rxrst t (d.byteTick t x.1.1 x.1.2.1) (d.rd .rxrstWidth t)

theorem Dev.watchSlot_pulses (x : (BurstRef × Nat × Nat) × RogueSlot) (h : d.on .rssiEnable t = false) :
    d.watchSlot t x = d.emit (d.watchPulse t x) := by
  unfold Dev.watchSlot
  exact (congrArg (Dev.when _ · _) h).trans rfl

/-- With its RSSI trigger off a tree's watch pulses at each slot's start and does no more. -/
theorem Dev.each_watchSlot (l : List ((BurstRef × Nat × Nat) × RogueSlot)) (h : d.on .rssiEnable t = false) :
    (d.each l fun d x => d.watchSlot t x) = { d with wire := d.wire ++ l.map (d.watchPulse t) } := by
  induction l generalizing d with
  | nil => simp
  | cons x l ih =>
    rw [Dev.each_cons, d.watchSlot_pulses x h, ih (d.emit _) h, List.map_cons, List.append_cons]
    rfl

/-- The slots of a frame watched and the tree's state judged from what the last frames showed. -/
def Dev.watchFrame (d : Dev) (n t sfc : Nat) (seen : List ((BurstRef × Nat × Nat) × RogueSlot)) (hist : List (Bool × Bool)) :
    Dev :=
  let d := (d.each seen fun d x => d.watchSlot t x).modTree t fun x => { x with rogueHist := hist, watchedTo := sfc + 1 }
  let st := rogueNext (d.rd .rogueCount t) hist (d.rd .rogueState t)
  let d := d.wr .rogueState t st
  if st = 0 then d.dropLevel (8 * t + 6) else d.raiseLevel n { source := 8 * t + 6, index := t }

/-- Light counted, and the terminal that framed named as its source. -/
def Dev.nameRogue (d : Dev) (n t : Nat) (named : Option Nat) : Dev :=
  let d := d.bump .idleLit t
  match named with
  | some i =>
    if i < 512 ∧ d.inState (t * 512 + i) 0 = false then
      let d := d.wr .rogueSuspect t (t * 512 + i)
      if d.on .rogueAuto t && !d.inState (t * 512 + i) 4 then d.toQuarantine n (t * 512 + i) else d
    else d.wr .rogueSuspect t 0xFFFF
  | none => d.wr .rogueSuspect t 0xFFFF

/-- What the watch of a frame leaves behind, but for the light it saw. -/
structure Dev.FrameWatched (d e : Dev) (t sfc : Nat) (pulses : List Emission) : Prop where
  wire : e.wire = d.wire ++ pulses
  watchedTo : (e.tree t).watchedTo = sfc + 1
  kept : ∀ r i, r ≠ .occurrences → (r, i) ≠ (.rogueState, t) → e.rd r i = d.rd r i

theorem Dev.wire_of_butFaults {d e : Dev} (h : e.butFaults = d.butFaults) : e.wire = d.wire := by
  change e.butFaults.wire = d.butFaults.wire
  rw [h]

theorem Dev.watchFrame_watched (n sfc : Nat) (seen : List ((BurstRef × Nat × Nat) × RogueSlot)) (hist : List (Bool × Bool))
    (h : d.on .rssiEnable t = false) :
    d.FrameWatched (d.watchFrame n t sfc seen hist) t sfc (seen.map (d.watchPulse t)) := by
  unfold Dev.watchFrame
  rw [d.each_watchSlot seen h]
  dsimp only
  generalize hw : Dev.modTree { d with wire := d.wire ++ seen.map (d.watchPulse t) } t _ = w
  have wire : w.wire = d.wire ++ seen.map (d.watchPulse t) := by rw [← hw, Dev.modTree_wire]
  have tree : (w.tree t).watchedTo = sfc + 1 := by rw [← hw, Dev.tree_modTree_same]
  have rd : ∀ r i, w.rd r i = d.rd r i := fun r i => by
    rw [← hw, Dev.modTree_rd]
    rfl
  generalize rogueNext (w.rd .rogueCount t) hist (w.rd .rogueState t) = st
  have written : ∀ r i, (r, i) ≠ (.rogueState, t) → (w.wr .rogueState t st).rd r i = d.rd r i := fun r i hr => by
    rw [Dev.rd_wr, if_neg fun e => hr (by rw [e.1, e.2]), rd]
  split
  · refine ⟨?_, ?_, fun r i _ hr => ?_⟩
    · rw [Dev.wire_of_butFaults (Dev.dropLevel_butFaults ..), Dev.wr_wire, wire]
    · rw [Dev.tree_of_butFaults (Dev.dropLevel_butFaults ..), Dev.wr_tree, tree]
    · rw [Dev.dropLevel_rd, written r i hr]
  · refine ⟨?_, ?_, fun r i ho hr => ?_⟩
    · rw [Dev.wire_of_butFaults (Dev.raiseLevel_butFaults ..), Dev.wr_wire, wire]
    · rw [Dev.tree_of_butFaults (Dev.raiseLevel_butFaults ..), Dev.wr_tree, tree]
    · rw [Dev.raiseLevel_rd _ _ _ _ ho, written r i hr]

/-- Light that nothing is done about by itself is counted and names a suspect, and no more. -/
theorem Dev.nameRogue_suspects (n : Nat) (named : Option Nat) (h : d.on .rogueAuto t = false) :
    ∃ v, d.nameRogue n t named = (d.bump .idleLit t).wr .rogueSuspect t v ∧
      (named = none → v = 0xFFFF) ∧
      ∀ i < 512, named = some i → d.rd .termState (t * 512 + i) ≠ 0 → v = t * 512 + i := by
  unfold Dev.nameRogue
  cases named with
  | none => exact ⟨0xFFFF, rfl, fun _ => rfl, nofun⟩
  | some i =>
    have auto : ∀ v, ((d.bump .idleLit t).wr .rogueSuspect t v).on .rogueAuto t = false := fun v => by
      rwa [Dev.on, Dev.rd_wr_other _ _ _ _ (by decide), Dev.bump_rd_other _ _ _ (by decide)]
    have state : (d.bump .idleLit t).inState (t * 512 + i) 0 = false ↔ d.rd .termState (t * 512 + i) ≠ 0 := by
      rw [Bool.eq_false_iff, ne_eq, Dev.inState_iff, Dev.bump_rd_other _ _ _ (by decide)]
    dsimp only
    by_cases served : i < 512 ∧ (d.bump .idleLit t).inState (t * 512 + i) 0 = false
    · rw [if_pos served, auto, Bool.false_and, if_neg Bool.false_ne_true]
      refine ⟨_, rfl, nofun, fun j _ hj _ => ?_⟩
      cases hj
      rfl
    · rw [if_neg served]
      refine ⟨_, rfl, nofun, fun j hj he hs => ?_⟩
      cases he
      exact absurd ⟨hj, state.2 hs⟩ served

section
variable {o : RogueObs}

/-- What the last eight watched frames showed, this one the newest. -/
def Dev.rogueHistory (d : Dev) (t : Nat) (seen : List ((BurstRef × Nat × Nat) × RogueSlot)) : List (Bool × Bool) :=
  let hist := (d.tree t).rogueHist ++ [(seen.any fun x => x.2.lock || x.2.signal, seen.all fun x => x.2.holds)]
  hist.drop (hist.length - 8)

theorem rogueWatch_idle (ht : t < 32) (h : s.dev.watched t o = [] ∨ o.sfc < (s.dev.tree t).watchedTo) :
    Completes (.rogueWatch n t o) s n fun e => e = s.dev := by
  refine completes_onElement rfl ht (if_pos ?_)
  rcases h with h | h <;> simp [h]

variable (ht : t < 32) (hs : s.dev.watched t o ≠ []) (hl : (s.dev.tree t).lit = true) (hr : s.dev.receives t = true)
  (hw : (s.dev.tree t).watchedTo ≤ o.sfc) (hb : s.dev.rd .sbState (quadOf t) ≠ 2)
include ht hs hl hr hw hb

/-- A frame that is watched, with light in its idle slots or without. -/
theorem rogueWatch_watches {p : Dev → Prop}
    (hp : p (let e := s.dev.watchFrame (max s.now n) t o.sfc (s.dev.watched t o) (s.dev.rogueHistory t (s.dev.watched t o))
      if ((s.dev.watched t o).any fun x => x.2.lock || x.2.signal) then e.nameRogue (max s.now n) t o.named else e)) :
    Completes (.rogueWatch n t o) s n p := by
  refine completes_onElement rfl ht ?_
  have watches : ¬((s.dev.watched t o).isEmpty || !(s.dev.tree t).lit || !s.dev.receives t ||
      decide (o.sfc < (s.dev.tree t).watchedTo) || s.dev.rd .sbState (quadOf t) == 2) = true := by
    simp [hs, hl, hr, hw, hb]
  dsimp only
  rw [if_neg watches]
  exact hp

variable (hi : s.dev.on .rssiEnable t = false)
include hi

theorem rogueWatch_dark (h : ∀ x ∈ s.dev.watched t o, x.2.lock = false ∧ x.2.signal = false) :
    Completes (.rogueWatch n t o) s n fun e =>
      e.wire = s.dev.wire ++ (s.dev.watched t o).map (s.dev.watchPulse t) ∧ (e.tree t).watchedTo = o.sfc + 1 ∧
      ∀ r i, r ≠ .occurrences → (r, i) ≠ (.rogueState, t) → e.rd r i = s.dev.rd r i := by
  have dark : ((s.dev.watched t o).any fun x => x.2.lock || x.2.signal) = false :=
    List.any_eq_false.2 fun x hx => by simp [h x hx]
  refine rogueWatch_watches ht hs hl hr hw hb ?_
  dsimp only
  rw [dark, if_neg Bool.false_ne_true]
  obtain ⟨wire, watchedTo, kept⟩ := s.dev.watchFrame_watched (max s.now n) o.sfc (s.dev.watched t o)
    (s.dev.rogueHistory t (s.dev.watched t o)) hi
  exact ⟨wire, watchedTo, kept⟩

theorem rogueWatch_lit (ha : s.dev.on .rogueAuto t = false)
    (h : ∃ x ∈ s.dev.watched t o, x.2.lock = true ∨ x.2.signal = true) :
    Completes (.rogueWatch n t o) s n fun e =>
      e.rd .idleLit t = (s.dev.rd .idleLit t + 1) % 2 ^ 64 ∧
      e.wire = s.dev.wire ++ (s.dev.watched t o).map (s.dev.watchPulse t) ∧
      (e.tree t).watchedTo = o.sfc + 1 ∧ (o.named = none → e.rd .rogueSuspect t = 0xFFFF) ∧
      (∀ i < 512, o.named = some i → s.dev.rd .termState (t * 512 + i) ≠ 0 → e.rd .rogueSuspect t = t * 512 + i) := by
  have lit : ((s.dev.watched t o).any fun x => x.2.lock || x.2.signal) = true := by
    obtain ⟨x, hx, h⟩ := h
    exact List.any_eq_true.2 ⟨x, hx, by simpa using h⟩
  refine rogueWatch_watches ht hs hl hr hw hb ?_
  dsimp only
  rw [lit, if_pos rfl]
  obtain ⟨wire, watchedTo, kept⟩ := s.dev.watchFrame_watched (max s.now n) o.sfc (s.dev.watched t o)
    (s.dev.rogueHistory t (s.dev.watched t o)) hi
  generalize s.dev.watchFrame (max s.now n) t o.sfc _ _ = w at wire watchedTo kept
  obtain ⟨v, named, none, some⟩ := w.nameRogue_suspects (t := t) (max s.now n) o.named
    (by rwa [Dev.on, kept _ _ (by decide) (by simp)])
  rw [named]
  refine ⟨?_, wire, watchedTo, fun h => ?_, fun i hi' h hterm => ?_⟩
  · rw [Dev.rd_wr_other _ _ _ _ (by decide), Dev.rd_bump_counter _ _ Reg.modulus_idleLit, kept _ _ (by decide) (by simp)]
  · rw [Dev.rd_wr_same, none h, Reg.modulus_rogueSuspect]
  · rw [Dev.rd_wr_same, some i hi' h (by rwa [kept _ _ (by decide) (by simp)]), Reg.modulus_rogueSuspect]
    omega

end

/-! ### Terminals that fail (R68) -/

theorem Reg.modulus_rangeFail : Reg.modulus .rangeFail = 2 ^ 64 := by decide +kernel
theorem Reg.modulus_lostEvents : Reg.modulus .lostEvents = 2 ^ 64 := by decide +kernel

/-- A failure of a terminal is counted in a register; the terminal is in EMPTY and is told so. -/
def Dev.Failed (d e : Dev) (g : Nat) (r : Reg) (i : Nat) : Prop :=
  e.rd r i = (d.rd r i + 1) % 2 ^ 64 ∧ e.rd .termState g = 0 ∧ e.rd .eqdBits g = 0 ∧ e.rd .bpEntry g = 0 ∧
  .deactivate (d.rd .onuId g) ∈ (e.tree (treeOfTerm g)).sequencer

theorem Dev.toEmpty_failed {r : Reg} (n i : Nat) (hs : d.rd .termState g ≠ 0) (hm : r.modulus = 2 ^ 64)
    (hr : r ∉ .onuId :: emptyRegs ++ bufferRegs) : d.Failed ((d.bump r i).toEmpty n g true) g r i := by
  simp only [List.cons_append, List.mem_cons, List.mem_append, not_or] at hr
  obtain ⟨onu, empty, buffer⟩ := hr
  have kept : ∀ {q : Reg} (j : Nat), q ≠ r → (d.bump r i).rd q j = d.rd q j := fun j => d.bump_rd_other i j
  have state : r ≠ .termState := fun h => empty (h ▸ by decide)
  have emptied := ((d.bump r i).seqMsg (treeOfTerm g) (.deactivate ((d.bump r i).rd .onuId g))).toEmpty_emptied n g
    (by rwa [Dev.seqMsg, Dev.modTree_rd, kept g state.symm])
  change Dev.Emptied _ ((d.bump r i).toEmpty n g true) g at emptied
  refine ⟨?_, emptied.cleared _ (by decide), emptied.cleared _ (by decide), emptied.cleared _ (by decide), ?_⟩
  · rw [emptied.regs r i buffer empty, Dev.seqMsg, Dev.modTree_rd, Dev.rd_bump_counter _ _ hm]
  · rw [emptied.sequencer, kept g (Ne.symm onu)]
    exact Dev.mem_seqMsg _ _ _

section
variable (hg : g < 16384)
include hg

theorem rangeTimeout_fails {at_ : Nat} (hs : s.dev.rd .termState g = 1) (ha : (s.dev.term g).rangeAt = some at_)
    (h : at_ + (s.dev.term g).lostTicks ≤ max s.now n) :
    Completes (.rangeTimeout n g) s n fun e => s.dev.Failed e g .rangeFail (treeOfTerm g) := by
  refine completes_onElement rfl hg ?_
  simp only [ha, s.dev.inState_iff.2 hs, h, decide_true, Bool.and_self, if_true]
  exact s.dev.toEmpty_failed _ _ (by rw [hs]; decide) Reg.modulus_rangeFail (by decide)

theorem lostTimeout_fails {at_ : Nat} (hs : s.dev.rd .termState g = 3) (ha : (s.dev.term g).lostAt = some at_)
    (h : at_ + (s.dev.term g).lostTicks ≤ max s.now n) :
    Completes (.lostTimeout n g) s n fun e => s.dev.Failed e g .lostEvents g := by
  refine completes_onElement rfl hg ?_
  simp only [ha, s.dev.inState_iff.2 hs, h, decide_true, Bool.and_self, if_true]
  exact s.dev.toEmpty_failed _ _ (by rw [hs]; decide) Reg.modulus_lostEvents (by decide)

section
variable (hs : s.dev.rd .termState g = 1) (hw : g ∉ (s.dev.tree (treeOfTerm g)).rangeWanted)
  (hf : (s.dev.term g).tryFrame + 16 ≤ s.dev.rd .superframe 0)
include hs hw hf

/-- A try that is over: the terminal fails, or has another. -/
theorem rangeRetry_due {p : Dev → Prop} (hp : p (if (s.dev.term g).triesLeft ≤ 1
    then (s.dev.bump .rangeFail (treeOfTerm g)).toEmpty (max s.now n) g true
    else (s.dev.modTerm g fun x => { x with
        triesLeft := x.triesLeft - 1, eqdSent := none, tryFrame := s.dev.rd .superframe 0 }).modTree (treeOfTerm g)
      fun x => { x with rangeWanted := x.rangeWanted ++ [g] })) : Completes (.rangeRetry n g) s n p := by
  refine completes_onElement rfl hg ?_
  have due : (s.dev.inState g 1 && !(s.dev.tree (treeOfTerm g)).rangeWanted.contains g &&
      decide ((s.dev.term g).tryFrame + 16 ≤ s.dev.rd .superframe 0)) = true := by
    simp [s.dev.inState_iff.2 hs, hw, hf]
  dsimp only
  rw [if_pos due]
  exact hp

theorem rangeRetry_tries (ht : 1 < (s.dev.term g).triesLeft) : Completes (.rangeRetry n g) s n fun e =>
    (e.term g).triesLeft = (s.dev.term g).triesLeft - 1 ∧ (e.term g).eqdSent = none ∧
    (e.tree (treeOfTerm g)).rangeWanted = (s.dev.tree (treeOfTerm g)).rangeWanted ++ [g] ∧ e.regs = s.dev.regs := by
  refine rangeRetry_due hg hs hw hf ?_
  rw [if_neg (Nat.not_le.2 ht), Dev.modTree_term, Dev.term_modTerm, if_pos rfl, Dev.tree_modTree_same]
  exact ⟨rfl, rfl, rfl, rfl⟩

theorem rangeRetry_fails (ht : (s.dev.term g).triesLeft ≤ 1) :
    Completes (.rangeRetry n g) s n fun e => s.dev.Failed e g .rangeFail (treeOfTerm g) := by
  refine rangeRetry_due hg hs hw hf ?_
  rw [if_pos ht]
  exact s.dev.toEmpty_failed _ _ (by rw [hs]; decide) Reg.modulus_rangeFail (by decide)

end
end

/-! ### Ranging again (R77) -/

theorem Dev.dropUpdate_rd (g : Nat) (r : Reg) (i : Nat) : (d.dropUpdate g).rd r i = d.rd r i := by
  unfold Dev.dropUpdate
  split <;> rfl

/-- A tree defect whose indication is off leaves alone which terminals want a ranging grant. -/
theorem Dev.setTreeDefect_rangeWanted {b : Nat} (on : Bool) (x : Nat) (hm : bitAt (d.rd .enableMask t) b = false) :
    ((d.setTreeDefect n t b on).tree x).rangeWanted = (d.tree x).rangeWanted := by
  cases h : bitAt (d.rd .treeDefects t) b <;> cases on
  case false.false => rw [Dev.setTreeDefect_clear_idle _ h]
  case true.true =>
    rw [Dev.setTreeDefect_declared _ _ h, Dev.tree_of_butFaults (Dev.raiseLevel_butFaults ..)]
  case false.true =>
    rw [Dev.setTreeDefect_declares _ h hm, Dev.tree_of_butFaults (Dev.raiseLevel_butFaults ..), Dev.declareDefect,
      Dev.bump_eq, Dev.wr_tree, Dev.tree_modTree, Dev.writeDefect, Dev.wr_tree, Dev.wr_tree]
    split
    · next hx => rw [hx]
    · rfl
  case true.false =>
    rw [Dev.setTreeDefect_clears _ h hm, Dev.tree_of_butFaults (Dev.dropLevel_butFaults ..), Dev.writeDefect, Dev.wr_tree]

theorem Dev.startTermHold_holds (n : Nat) (h : d.rd .termHoldMs (treeOfTerm g) ≠ 0) :
    d.startTermHold n g = d.modTerm g fun x => { x with hold := some (n, d.rd .termHoldMs (treeOfTerm g)) } := if_neg h

/-- A terminal that leaves OPERATION to be ranged: its hold begins, tree RDI is judged, and the change is mirrored. -/
theorem Dev.setTermState_ranging (n : Nat) (h : d.rd .termState g = 2) : d.setTermState n g 1 =
    (((d.wr .termState g 1).startTermHold n g).judgeRdi n (treeOfTerm g)).mirrorTerm n g := by
  unfold Dev.setTermState
  simp [h]

/-- A terminal in RANGING, with `tries` tries and no jumped sample, that wants a grant. -/
structure Dev.Ranging (e : Dev) (g tries : Nat) : Prop where
  state : e.rd .termState g = 1
  tries : (e.term g).triesLeft = tries
  jumps : (e.term g).jumpRun = 0
  wanted : g ∈ (e.tree (treeOfTerm g)).rangeWanted

theorem Dev.setTermState_keepsRanging {tries : Nat} (n : Nat) (h : d.rd .termState g = 2)
    (hh : d.rd .termHoldMs (treeOfTerm g) ≠ 0) (hm : bitAt (d.rd .enableMask (treeOfTerm g)) 3 = false)
    (ht : (d.term g).triesLeft = tries) (hj : (d.term g).jumpRun = 0) (hw : g ∈ (d.tree (treeOfTerm g)).rangeWanted) :
    (d.setTermState n g 1).Ranging g tries := by
  have state : (d.setTermState n g 1).rd .termState g = 1 := by
    rw [Dev.setTermState_rd _ _ _ (by rw [h]; decide), Reg.modulus_termState]
  have rd : ∀ {r : Reg} (i : Nat), r ≠ .termState → (d.wr .termState g 1).rd r i = d.rd r i := fun i =>
    d.rd_wr_other g i 1
  have held := (d.wr .termState g 1).startTermHold_holds n (g := g) (by rwa [rd _ (by decide)])
  have mask : bitAt (((d.wr .termState g 1).startTermHold n g).rd .enableMask (treeOfTerm g)) 3 = false := by
    rwa [held, Dev.modTerm_rd, rd _ (by decide)]
  have term : ((d.setTermState n g 1).term g) = { d.term g with
      hold := some (n, (d.wr .termState g 1).rd .termHoldMs (treeOfTerm g)) } := by
    rw [d.setTermState_ranging n h, Dev.mirrorTerm, Dev.durable_term, Dev.judgeRdi, Dev.setTreeDefect_term _ _ mask, held,
      Dev.term_modTerm, if_pos rfl, Dev.wr_term]
  refine ⟨state, term ▸ ht, term ▸ hj, ?_⟩
  rw [d.setTermState_ranging n h, Dev.mirrorTerm, Dev.durable_tree, Dev.judgeRdi,
    Dev.setTreeDefect_rangeWanted _ _ _ mask, held, Dev.modTerm_tree, Dev.wr_tree]
  exact hw

theorem Dev.toRanging_ranging (n : Nat) (windowPs : Int) (h : d.rd .termState g = 2)
    (hh : d.rd .termHoldMs (treeOfTerm g) ≠ 0) (hm : bitAt (d.rd .enableMask (treeOfTerm g)) 3 = false) :
    (d.toRanging n g windowPs).Ranging g (d.rd .rangeTries (treeOfTerm g)) := by
  have rd := d.dropUpdate_rd g
  unfold Dev.toRanging
  refine Dev.setTermState_keepsRanging _ n ((rd _ _).trans h) ((rd _ _).trans_ne hh)
    ((congrArg (bitAt · 3) (rd _ _)).trans hm) ?_ ?_ ?_
  · rw [Dev.modTree_term, Dev.term_modTerm, if_pos rfl]
  · rw [Dev.modTree_term, Dev.term_modTerm, if_pos rfl]
  · rw [Dev.tree_modTree_same]
    exact List.mem_append_right _ (List.mem_singleton_self g)

theorem jumpRerange_completes (hg : g < 16384) (hs : s.dev.rd .termState g = 2) (hj : 8 ≤ (s.dev.term g).jumpRun)
    (hh : s.dev.rd .termHoldMs (treeOfTerm g) ≠ 0) (hm : bitAt (s.dev.rd .enableMask (treeOfTerm g)) 3 = false) :
    Completes (.jumpRerange n g) s n fun e =>
      e.rd .termState g = 1 ∧ (e.term g).triesLeft = s.dev.rd .rangeTries (treeOfTerm g) ∧ (e.term g).jumpRun = 0 ∧
      g ∈ (e.tree (treeOfTerm g)).rangeWanted := by
  refine completes_onElement rfl hg ?_
  simp only [s.dev.inState_iff.2 hs, hj, decide_true, Bool.and_self, if_true]
  obtain ⟨state, tries, jumps, wanted⟩ := s.dev.toRanging_ranging (max s.now n) (s.dev.centredWindow (treeOfTerm g)) hs hh hm
  exact ⟨state, tries, jumps, wanted⟩

/-! ### Reports that are missed (R91) -/

theorem reportMissLimit_completes {a : Nat} (ha : a < 65536)
    (h : s.dev.rd .reportMissMax (treeOfAlloc a) ≤ (s.dev.alloc a).missRun) :
    Completes (.reportMissLimit n a) s n fun e =>
      e.rd .allocDemand a = 0 ∧ e.alloc a = { s.dev.alloc a with lastReport := none } ∧
      s.dev.regsKept e [(.allocDemand, a)] ∧ ∀ b, b ≠ a → e.alloc b = s.dev.alloc b := by
  refine completes_onElement rfl ha ?_
  simp only [h, if_true]
  refine ⟨?_, ?_, fun r i hr => ?_, fun b hb => ?_⟩
  · rw [Dev.modAlloc_rd, Dev.rd_wr_same, Nat.zero_mod]
  · rw [Dev.alloc_modAlloc, if_pos rfl, Dev.wr_alloc]
  · rw [Dev.modAlloc_rd, Dev.rd_wr, if_neg fun e => hr (by simp [e])]
  · rw [Dev.alloc_modAlloc, if_neg hb, Dev.wr_alloc]

/-- Settles O36: each of these commands looks once at whether it is due, and what it does then touches one tree, one terminal or
one allocation. -/
theorem rangingAndReports : Obligations.RangingAndReports := by
  unfold Obligations.RangingAndReports
  exact ⟨fun s n => ⟨fun t => discoveryWindowOpen_completes, fun i hi at_ => discListAgeOut_completes hi,
      fun t ht o => ⟨fun hs hl hr hw hb hi ha =>
        ⟨rogueWatch_lit ht hs hl hr hw hb hi ha, rogueWatch_dark ht hs hl hr hw hb hi⟩, rogueWatch_idle ht⟩⟩,
    fun s n g hg => ⟨fun hs hw hf => ⟨rangeRetry_tries hg hs hw hf, rangeRetry_fails hg hs hw hf⟩,
      fun at_ => rangeTimeout_fails hg, fun at_ => lostTimeout_fails hg, jumpRerange_completes hg⟩,
    fun s n a => reportMissLimit_completes⟩

end Sys2Proof.Machine
end

section
/-!
PROOFS. The drain estimates of the credit snapshot (R105): what a port's estimate is, that sends which end by then do not change
it, and that each port's estimate is written once.
-/
namespace Sys2Proof.Machine
open Sys2Proof

/-! ### The estimate of one port -/

/-- 3,125,000 bytes for each lane of the width (R14, R105). -/
theorem Dev.lanesPerPort_drain (d : Dev) : 3125000 * d.lanesPerPort =
    if d.rd .portWidth 0 = 0 then 3125000 else if d.rd .portWidth 0 = 1 then 6250000 else 12500000 := by
  unfold Dev.lanesPerPort
  split
  · next h => simp [h]
  · next h => simp [h]
  · next h0 h1 => rw [if_neg h0, if_neg h1]

theorem Dev.drainEst_eq (d : Dev) (n p : Nat) : d.drainEst n p =
    if d.portUp p = false ∨ (d.port p).hold ≠ none ∨ d.paused n p = true then 0 else 3125000 * d.lanesPerPort := by
  have drains : (d.portUp p && (d.port p).hold.isNone && !d.paused n p) = true ↔
      ¬(d.portUp p = false ∨ (d.port p).hold ≠ none ∨ d.paused n p = true) := by
    simp [and_assoc]
  exact (if_congr drains rfl rfl).trans (ite_not _ _ _)

theorem Dev.drainEst_le (d : Dev) (n p : Nat) : d.drainEst n p ≤ 12500000 := by
  rw [Dev.drainEst_eq, Dev.lanesPerPort_drain]
  split_ifs <;> decide

/-- The working state of a port but for what it sends. -/
def Port.unsent (x : Port) : Port := { x with sending := none }

/-- Two registers and the port decide an estimate; the frame being sent has no part in it. -/
theorem Dev.drainEst_congr {d e : Dev} (n : Nat) {p : Nat} (state : e.rd .portState p = d.rd .portState p)
    (width : e.rd .portWidth 0 = d.rd .portWidth 0) (port : (e.port p).unsent = (d.port p).unsent) :
    e.drainEst n p = d.drainEst n p := by
  have hold : (e.port p).hold = (d.port p).hold := (congrArg Port.hold port :)
  have pausedAt : (e.port p).pausedAt = (d.port p).pausedAt := (congrArg Port.pausedAt port :)
  have pauseUntil : (e.port p).pauseUntil = (d.port p).pauseUntil := (congrArg Port.pauseUntil port :)
  unfold Dev.drainEst Dev.portUp Dev.lanesPerPort
  rw [hold, pausedAt, pauseUntil, state, width]

theorem Dev.drainEst_wr_drainEst (d : Dev) (n p q v : Nat) : (d.wr .drainEst q v).drainEst n p = d.drainEst n p :=
  Dev.drainEst_congr n (d.rd_wr_other q p v (by decide)) (d.rd_wr_other q 0 v (by decide)) rfl

/-! ### Sends that have ended -/

section
variable (d : Dev) (n : Nat)

@[simp] theorem Dev.event_ports (s index : Nat) : (d.event n s index).ports = d.ports :=
  (congrArg Dev.ports (d.event_butFaults n s index) :)

@[simp] theorem Dev.freeCell_ports (c : Nat) : (d.freeCell n c).ports = d.ports := by
  unfold Dev.freeCell
  dsimp only
  split
  · rfl
  · split
    · rfl
    · exact Dev.event_ports _ n _ _

@[simp] theorem Dev.releaseChain_ports (chain : Nat) : (d.releaseChain n chain).ports = d.ports := by
  unfold Dev.releaseChain
  split
  · rfl
  · split
    · exact Dev.each_keeps _ Dev.ports fun d c _ => d.freeCell_ports n c
    · rfl

@[simp] theorem Dev.settleCommit_ports : (d.settleCommit n).ports = d.ports := by
  unfold Dev.settleCommit
  split <;> rfl

@[simp] theorem Dev.leaveVersion_ports (v : Nat) : (d.leaveVersion n v).ports = d.ports := by
  unfold Dev.leaveVersion
  dsimp only
  split
  · exact Dev.settleCommit_ports _ n
  · rfl

@[simp] theorem Dev.freeDesc_ports (k : Nat) : (d.freeDesc n k).ports = d.ports := by
  unfold Dev.freeDesc
  split
  · rfl
  · dsimp only
    split <;> simp

@[simp] theorem Dev.sampleDone_ports (id : Option Nat) (outcome : Nat) : (d.sampleDone id outcome).ports = d.ports := by
  unfold Dev.sampleDone
  split
  · rfl
  · split <;> rfl

theorem Dev.unsent_modPort_sending (q p : Nat) (x : Option Sending) :
    ((d.modPort q fun y => { y with sending := x }).port p).unsent = (d.port p).unsent := by
  rw [Dev.port_modPort]
  split
  · next hp => rw [hp]; rfl
  · rfl

theorem Dev.unbuffered_settleSend (p : Nat) : (d.settleSend n p).unbuffered = d.unbuffered := by
  unfold Dev.settleSend
  split
  · rfl
  · split
    · rw [Dev.unbuffered_freeDesc, Dev.unbuffered_sampleDone, Dev.unbuffered_modPort]
    · rfl

theorem Dev.unsent_settleSend (q p : Nat) : ((d.settleSend n q).port p).unsent = (d.port p).unsent := by
  unfold Dev.settleSend
  split
  · rfl
  · split
    · have sent := d.unsent_modPort_sending q p none
      unfold Dev.port at sent ⊢
      rw [Dev.freeDesc_ports, Dev.sampleDone_ports, sent]
    · rfl

/-- A send that has ended leaves every estimate as it is. -/
theorem Dev.drainEst_settleSends (m p : Nat) : (d.settleSends n).drainEst m p = d.drainEst m p := by
  have kept : (d.settleSends n).unbuffered = d.unbuffered :=
    d.each_keeps Dev.unbuffered fun d q _ => d.unbuffered_settleSend n q
  exact Dev.drainEst_congr m (Dev.rd_of_unbuffered kept p (by decide)) (Dev.rd_of_unbuffered kept 0 (by decide))
    (d.each_keeps (fun e => (e.port p).unsent) fun d q _ => d.unsent_settleSend n q p)

end

/-! ### The snapshot -/

theorem Reg.modulus_drainEst : Reg.modulus .drainEst = 2 ^ 32 := by decide +kernel

/-- The ports' estimates written one after the other: writing one changes no other, and each fits its register. -/
theorem Dev.rd_drainEst_each (d : Dev) (n : Nat) {p : Nat} (hp : p < 16) :
    (d.each allPorts fun d q => d.wr .drainEst q (d.drainEst n q)).rd .drainEst p = d.drainEst n p := by
  obtain ⟨a, ha, hw⟩ := d.each_at (l := allPorts) (f := fun d q => d.wr .drainEst q (d.drainEst n q))
    (fun e => (e.rd .drainEst p, e.drainEst n p)) List.nodup_range (List.mem_range.2 hp) fun d q _ hq =>
      Prod.ext (d.rd_wr_elsewhere _ hq.symm) (d.drainEst_wr_drainEst n p q _)
  have fits : d.drainEst n p < 2 ^ 32 := (d.drainEst_le n p).trans_lt (by decide)
  obtain ⟨-, estimate⟩ := Prod.mk.inj ha
  obtain ⟨written, -⟩ := Prod.mk.inj hw
  rw [written, Dev.rd_wr_same, estimate, Reg.modulus_drainEst, Nat.mod_eq_of_lt fits]

/-- Credits computed and handed to the trees leave the estimates as they are. -/
theorem Dev.rd_drainEst_credits (d : Dev) (l : List Nat) (k : Dev → Nat → Int) (f : Dev → Nat → Tree → Tree) (p : Nat) :
    (d.each l fun d t => (d.wrS .creditLast t (k d t)).modTree t (f d t)).rd .drainEst p = d.rd .drainEst p :=
  d.each_keeps (fun e => e.rd .drainEst p) fun d t _ => d.rd_wr_other (r := .creditLast) t p _ (by decide)

/-- Settles O12: neither the sends that end before the estimates are taken nor the credits computed after them change what
DRAIN_EST reads. -/
theorem drainEstimates : Obligations.DrainEstimates := by
  unfold Obligations.DrainEstimates
  refine fun s x hx => completes_atPoint rfl hx fun p hp => ?_
  refine (Dev.rd_drainEst_credits _ _ _ _ p).trans ?_
  rw [Dev.rd_drainEst_each _ _ hp, Dev.drainEst_settleSends, Dev.drainEst_eq, Dev.lanesPerPort_drain]

end Sys2Proof.Machine
end

section
/-!
PROOFS. Keys that retire, the noise source, and bulk loads (R121, R124, R126, R129, R133).
-/
namespace Sys2Proof.Machine
open Sys2Proof

variable {s : State} {n : Nat} {d : Dev}

/-! ### Keys that retire -/

/-- KEY_RETIRE of a key whose time has come (R121); the standby is told by a durable record (R126). -/
theorem keyRetire_retires {k : Nat} (hk : k < 32838) (hr : (s.dev.slot k).retiring = true)
    (ha : (s.dev.slot k).retireAt ≤ s.dev.rd .superframe 0) : Completes (.keyRetire n k) s n fun e =>
      e.slot k = { s.dev.slot k with next := none, retiring := false } ∧ (∀ j, j ≠ k → e.slot j = s.dev.slot j) ∧
      ∀ r i, r ≠ .dseqSent → e.rd r i = s.dev.rd r i := by
  refine completes_onElement rfl hk ?_
  simp only [hr, ha, decide_true, Bool.and_self, if_true]
  refine ⟨?_, fun j hj => ?_, fun r i h => (Dev.durable_rd _ _ _ i h).trans (Dev.modSlot_rd ..)⟩
  · rw [Dev.durable_slot, Dev.slot_modSlot, if_pos rfl]
  · rw [Dev.durable_slot, Dev.slot_modSlot, if_neg hj]

/-! ### The noise source -/

theorem Reg.modulus_entropyState : Reg.modulus .entropyState = 256 := by decide +kernel

/-- ENTROPY_FAIL (R129): source 421 is the fault of the whole device, so it is always evaluated. -/
theorem entropyFail_raises : Completes (.entropyFail n) s n fun e =>
    e.rd .entropyState 0 = 1 ∧ (e.source 421).level = true ∧
    ∀ r i, r ≠ .occurrences → (r, i) ≠ (.entropyState, 0) → e.rd r i = s.dev.rd r i := by
  refine completes_at rfl ⟨?_, Dev.raiseLevel_level _ _ _ (Dev.unevaluated_of_le _ (by decide)), fun r i ho hr => ?_⟩
  · rw [Dev.raiseLevel_rd _ _ _ _ (by decide), Dev.rd_wr_same, Reg.modulus_entropyState]
  · rw [Dev.raiseLevel_rd _ _ _ _ ho]
    exact (s.dev.onlyRegs_wr _ _ _).1 r i (by simpa using hr)

theorem entropyRecovery_releases : Completes (.entropyRecovery n) s n fun e =>
    e.rd .entropyState 0 = 0 ∧ s.dev.released e 421 ∧ s.dev.regsKept e [(.entropyState, 0)] := by
  refine completes_at rfl ⟨?_, Dev.dropLevel_released (s.dev.wr .entropyState 0 0) 421, fun r i hr => ?_⟩
  · rw [Dev.dropLevel_rd, Dev.rd_wr_same, Nat.zero_mod]
  · rw [Dev.dropLevel_rd]
    exact (s.dev.onlyRegs_wr _ _ _).1 r i hr

/-! ### The long operation of a load -/

theorem Dev.opRuns_iff {code : Nat} : d.opRuns code = true ↔ ∃ o, d.mgmt.longOp = some o ∧ o.code = code := by
  unfold Dev.opRuns
  split
  · next o ho => simp [ho]
  · next ho => simp [ho]

/-- The long operations: the one that runs, and those that wait for its end (R314). -/
def Dev.longOps (d : Dev) : Option LongOp × List LongOp := (d.mgmt.longOp, d.mgmt.waitingOps)

theorem Dev.takeKey_mgmt (k : Nat) : (d.takeKey k).mgmt = d.mgmt := by
  unfold Dev.takeKey
  split <;> rfl

theorem Dev.takeKey_slot_other {k j : Nat} (h : j ≠ k) : (d.takeKey k).slot j = d.slot j := by
  unfold Dev.takeKey
  split
  · rfl
  · rw [Dev.bump_eq, Dev.wr_slot, Dev.slot_modSlot, if_neg h]

theorem Dev.drawSalt_longOps : d.drawSalt.longOps = d.longOps := by
  unfold Dev.drawSalt
  split <;> rfl

theorem Dev.applyKeyNext_longOps (k data : Nat) : (d.applyKeyNext k data).longOps = d.longOps := by
  unfold Dev.applyKeyNext
  dsimp only
  split
  · rfl
  · exact Dev.drawSalt_longOps
  · exact Dev.drawSalt_longOps
  · rfl

theorem Dev.endOp_counted {o : LongOp} (ho : d.mgmt.longOp = some o) (hw : d.mgmt.waitingOps = []) (n : Nat) :
    d.endOp n = { ((d.bump .longOps 0).wr .lastLongOp 0 o.code).wr .lastLongMs 0 (ceilDiv (n - o.start) 1244160) with
      mgmt := { d.mgmt with longOp := none } } := by
  have mgmt : ∀ ms, (((d.bump .longOps 0).wr .lastLongOp 0 o.code).wr .lastLongMs 0 ms).mgmt = d.mgmt := fun ms => by
    rw [Dev.wr_mgmt, Dev.wr_mgmt, Dev.bump_eq, Dev.wr_mgmt]
  unfold Dev.endOp
  rw [ho]
  dsimp only
  rw [mgmt, hw]

theorem Dev.endOp_slots (n : Nat) (h : d.mgmt.waitingOps = []) : (d.endOp n).slots = d.slots := by
  cases ho : d.mgmt.longOp with
  | none => rw [Dev.endOp, ho]
  | some o => rw [Dev.endOp_counted ho h, Dev.wr_slots, Dev.wr_slots, Dev.bump_eq, Dev.wr_slots]

/-- The records of a load are used up, and the load counter advances (R133). -/
def Dev.useRecords (d : Dev) : Dev :=
  { d with mgmt := { d.mgmt with loadRecords := [], loadNext := d.mgmt.loadNext + 32838 } }

theorem Dev.useRecords_rd (r : Reg) (i : Nat) : d.useRecords.rd r i = d.rd r i := rfl

/-- `e` is `d` at the end of its load, as far as the load, the slots and LOAD_STATUS go. -/
structure Dev.LoadEnded (d e : Dev) : Prop where
  longOp : e.mgmt.longOp = none
  records : e.mgmt.loadRecords = []
  counter : e.mgmt.loadNext = d.mgmt.loadNext + 32838
  slot : ∀ j, e.slot j = d.slot j
  status : e.rd .loadStatus 0 = d.rd .loadStatus 0

theorem Dev.endLoad_ended (n : Nat) {o : LongOp} (h : d.longOps = (some o, [])) :
    d.LoadEnded (d.useRecords.endOp n) := by
  obtain ⟨runs, alone⟩ := Prod.mk.inj h
  change d.useRecords.mgmt.waitingOps = [] at alone
  have mgmt : (d.useRecords.endOp n).mgmt = { d.useRecords.mgmt with longOp := none } := by
    rw [Dev.endOp_counted (d := d.useRecords) runs alone]
  refine ⟨?_, ?_, ?_, fun j => ?_, ?_⟩
  · rw [mgmt]
  · rw [mgmt, Dev.useRecords]
  · rw [mgmt, Dev.useRecords]
  · rw [Dev.slot, Dev.endOp_slots _ alone, Dev.useRecords, Dev.slot]
  · rw [(Dev.endOp_ended _ n alone).regs .loadStatus 0 (by decide), Dev.useRecords_rd]

/-! ### The slots that a load writes -/

theorem Dev.checkRecord_passes {seen bodies : List (Nat × Nat)} {i rec : Nat}
    (h : d.checkRecord seen i rec = .passes bodies) :
    ∃ slot body, bodies = seen ++ [(slot, body)] ∧ slot ∉ seen.map Prod.fst := by
  unfold Dev.checkRecord at h
  dsimp only at h
  generalize field rec 496 16 = slot at h
  split at h
  · cases h
  · next p _ =>
    split_ifs at h with _ repeated
    refine ⟨slot, ofBytes p, (LoadResult.passes.inj h).symm, fun hs => repeated ?_⟩
    obtain ⟨x, hx, rfl⟩ := List.mem_map.1 hs
    exact List.any_eq_true.2 ⟨x, hx, beq_self_eq_true _⟩

/-- Records that all pass name each slot once, since a repeat fails (R133). -/
theorem Dev.checkLoad_nodup {records : Tab Nat} {seen bodies : List (Nat × Nat)} (hs : (seen.map Prod.fst).Nodup)
    (h : d.checkLoad records seen = .passes bodies) : (bodies.map Prod.fst).Nodup := by
  induction records generalizing seen with
  | nil => exact LoadResult.passes.inj h ▸ hs
  | cons record rest ih =>
    obtain ⟨i, rec⟩ := record
    unfold Dev.checkLoad at h
    split at h
    · next passedSoFar passed =>
      obtain ⟨slot, body, rfl, fresh⟩ := Dev.checkRecord_passes passed
      refine ih ?_ h
      rw [List.map_append]
      exact hs.append (List.nodup_singleton slot) (List.disjoint_singleton.2 fresh)
    · next failed => exact absurd h (failed bodies)

/-- One record of a load applied: the KEY_NEXT value of its slot, with the durable record of the write (R133). -/
def Dev.applyLoaded (d : Dev) (n : Nat) (b : Nat × Nat) : Dev :=
  (d.applyKeyNext b.1 b.2).durable n fun k => .objectWrite k 0x2401 b.1 1 n (toBytes 40 b.2)

theorem Dev.applyLoaded_written (n : Nat) (b : Nat × Nat) : d.NextWritten (d.applyLoaded n b) b.1 b.2 :=
  (d.applyKeyNext_written b.1 b.2).durable n _

theorem Dev.applyLoaded_longOps (n : Nat) (b : Nat × Nat) : (d.applyLoaded n b).longOps = d.longOps := by
  rw [← d.applyKeyNext_longOps b.1 b.2, Dev.longOps, Dev.applyLoaded, Dev.durable_mgmt]
  rfl

theorem Dev.each_applyLoaded_next (n : Nat) {bodies : List (Nat × Nat)} (hb : (bodies.map Prod.fst).Nodup) :
    ∀ b ∈ bodies, ((d.each bodies fun d b => d.applyLoaded n b).slot b.1).next = some (keyOf b.2) := by
  intro b hm
  obtain ⟨a, -, written⟩ := d.each_at (f := fun d b => d.applyLoaded n b) (fun e => e.slot b.1) hb.of_map hm
    fun e c hc other => ((e.applyLoaded_written n c).slot b.1).trans
      (if_neg fun same => other (List.inj_on_of_nodup_map hb hc hm same.symm))
  rw [written, (a.applyLoaded_written n b).slot, if_pos rfl]
  rfl

/-! ### LOAD_COMPLETE -/

theorem Reg.modulus_loadStatus : Reg.modulus .loadStatus = 2 ^ 32 := by decide +kernel

section
variable (hr : s.dev.opRuns 2 = true) (hw : s.dev.mgmt.waitingOps = [])
include hr

theorem loadComplete_of_fails {p : Dev → Prop} {code i : Nat}
    (h : (s.dev.takeKey 32837).checkLoad s.dev.mgmt.loadRecords [] = .fails code i)
    (hp : p (((s.dev.takeKey 32837).wr .loadStatus 0 (code * 65536 + i)).useRecords.endOp (max s.now n))) :
    Completes (.loadComplete n) s n p := by
  refine completes_at rfl ?_
  dsimp only
  rw [if_pos hr, Dev.takeKey_mgmt, h]
  exact hp

theorem loadComplete_of_passes {p : Dev → Prop} {bodies : List (Nat × Nat)}
    (h : (s.dev.takeKey 32837).checkLoad s.dev.mgmt.loadRecords [] = .passes bodies)
    (hp : p ((((s.dev.takeKey 32837).each bodies fun d b => d.applyLoaded (max s.now n) b).wr .loadStatus 0 65536).useRecords.endOp
      (max s.now n))) :
    Completes (.loadComplete n) s n p := by
  refine completes_at rfl ?_
  dsimp only
  rw [if_pos hr, Dev.takeKey_mgmt, h]
  exact hp

include hw

/-- The load that runs, with nothing waiting behind it, is still the only operation once the load key is in use. -/
theorem takeKey_longOps_of_load (k : Nat) : ∃ o, (s.dev.takeKey k).longOps = (some o, []) := by
  obtain ⟨o, ho, -⟩ := Dev.opRuns_iff.1 hr
  exact ⟨o, by rw [Dev.longOps, Dev.takeKey_mgmt, ho, hw]⟩

/-- A record fails: nothing but the load key has changed a slot. -/
theorem loadComplete_fails {code i : Nat} (hc : code < 65536) (hi : i < 65536)
    (h : (s.dev.takeKey 32837).checkLoad s.dev.mgmt.loadRecords [] = .fails code i) :
    Completes (.loadComplete n) s n fun e =>
      e.rd .loadStatus 0 = code * 65536 + i ∧ e.mgmt.longOp = none ∧ e.mgmt.loadRecords = [] ∧
      e.mgmt.loadNext = s.dev.mgmt.loadNext + 32838 ∧ ∀ j, j ≠ 32837 → e.slot j = s.dev.slot j := by
  obtain ⟨o, ops⟩ := takeKey_longOps_of_load hr hw 32837
  have ended := Dev.endLoad_ended (d := (s.dev.takeKey 32837).wr .loadStatus 0 (code * 65536 + i)) (max s.now n) ops
  have fits : code * 65536 + i < 2 ^ 32 := by omega
  refine loadComplete_of_fails hr h ⟨?_, ended.longOp, ended.records, ?_, fun j hj => ?_⟩
  · rw [ended.status, Dev.rd_wr_same, Reg.modulus_loadStatus, Nat.mod_eq_of_lt fits]
  · rw [ended.counter, Dev.wr_mgmt, Dev.takeKey_mgmt]
  · rw [ended.slot, Dev.wr_slot, Dev.takeKey_slot_other hj]

/-- Every record passes and is applied to its slot. -/
theorem loadComplete_passes {bodies : List (Nat × Nat)}
    (h : (s.dev.takeKey 32837).checkLoad s.dev.mgmt.loadRecords [] = .passes bodies) :
    Completes (.loadComplete n) s n fun e =>
      e.rd .loadStatus 0 = 65536 ∧ e.mgmt.longOp = none ∧ e.mgmt.loadRecords = [] ∧
      ∀ b ∈ bodies, (e.slot b.1).next = some (keyOf b.2) := by
  obtain ⟨o, ops⟩ := takeKey_longOps_of_load hr hw 32837
  have applied := (s.dev.takeKey 32837).each_keeps Dev.longOps (l := bodies)
    fun d b _ => d.applyLoaded_longOps (max s.now n) b
  have ended := Dev.endLoad_ended
    (d := ((s.dev.takeKey 32837).each bodies fun d b => d.applyLoaded (max s.now n) b).wr .loadStatus 0 65536)
    (max s.now n) (applied.trans ops)
  refine loadComplete_of_passes hr h ⟨?_, ended.longOp, ended.records, fun b hb => ?_⟩
  · rw [ended.status, Dev.rd_wr_same, Reg.modulus_loadStatus, Nat.mod_eq_of_lt (by decide)]
  · rw [ended.slot, Dev.wr_slot]
    exact Dev.each_applyLoaded_next _ (Dev.checkLoad_nodup (seen := []) List.nodup_nil h) b hb

end

/-- Settles O37: a load checks every record before it applies one, no two of the records it applies are of one slot, and with
nothing waiting its end starts no other operation. -/
theorem keysRetireAndLoad : Obligations.KeysRetireAndLoad := by
  unfold Obligations.KeysRetireAndLoad
  exact fun s n => ⟨fun k hk => keyRetire_retires hk, entropyFail_raises, entropyRecovery_releases,
    fun hr hw => ⟨fun code i hc hi h => loadComplete_fails hr hw hc hi h, fun bodies h => loadComplete_passes hr hw h⟩⟩

end Sys2Proof.Machine
end

section
/-!
PROOFS. The jobs of a Quarry bank (R113-R116, R118): the cutters' order of ends, the bank once the jobs that have ended have
left it, and a job that joins it.
-/
namespace Sys2Proof.Machine
open Sys2Proof

variable {d : Dev} {n q : Nat}

/-! ### Choices among the jobs of a list -/

/-- The end of a running job whose blocks take `block` ticks each. -/
def Job.endAt (j : Job) (block : Nat) : Nat := j.since + j.blocks * block

/-- A fold that keeps what it had or takes the next member finds a member of the list. -/
theorem mem_of_foldl_choice {α : Type} {f : Option α → α → Option α} (hf : ∀ acc x, f acc x = acc ∨ f acc x = some x)
    {l : List α} {x : α} (h : l.foldl f none = some x) : x ∈ l := by
  induction l using List.reverseRecOn with
  | nil => cases h
  | append_singleton l y ih =>
    rw [List.foldl_concat] at h
    rcases hf (l.foldl f none) y with kept | taken
    · exact List.mem_append_left _ (ih (kept.symm.trans h))
    · exact List.mem_append_right _ (List.mem_singleton.2 (Option.some.inj (h.symm.trans taken)))

/-- The most urgent job of a list, the first of its class: what `nextJob` takes of each of its lists. -/
def mostUrgent (l : List Job) : Option Job :=
  l.foldl (fun acc j => match acc with
    | none => some j
    | some x => if j.cls < x.cls then some j else some x) none

theorem mem_of_mostUrgent {l : List Job} {j : Job} (h : mostUrgent l = some j) : j ∈ l := by
  refine mem_of_foldl_choice (fun acc x => ?_) h
  cases acc with
  | none => exact .inr rfl
  | some y =>
    dsimp only
    split
    · exact .inr rfl
    · exact .inl rfl

theorem nextJob_eq (b : Bank) : nextJob b =
    match mostUrgent b.suspended, mostUrgent b.queue with
    | none, none => none
    | some s, none => some (true, s)
    | none, some q => some (false, q)
    | some s, some q => if s.cls ≤ q.cls then some (true, s) else some (false, q) := rfl

/-- The job that takes a freed cutter is a suspended one or a queued one, as it is marked. -/
theorem mem_of_nextJob {b : Bank} {fromSuspended : Bool} {j : Job} (h : nextJob b = some (fromSuspended, j)) :
    j ∈ if fromSuspended then b.suspended else b.queue := by
  rw [nextJob_eq] at h
  split at h
  · cases h
  · next hs _ => cases h; exact mem_of_mostUrgent hs
  · next _ hq => cases h; exact mem_of_mostUrgent hq
  · next hs hq =>
    split at h
    · cases h; exact mem_of_mostUrgent hs
    · cases h; exact mem_of_mostUrgent hq

/-! ### The end that comes first -/

/-- `first` is the earliest end among the jobs of a list, with its job. -/
def IsFirstEnd (block : Nat) (l : List Job) (first : Option (Nat × Job)) : Prop :=
  match first with
  | none => l = []
  | some (e, j) => j ∈ l ∧ e = j.endAt block ∧ ∀ k ∈ l, e ≤ k.endAt block

/-- The earlier of an end and the end of job `j`. -/
def earlierEnd (block : Nat) (acc : Option (Nat × Job)) (j : Job) : Option (Nat × Job) :=
  match acc with
  | none => some (j.endAt block, j)
  | some x => if j.endAt block < x.1 then some (j.endAt block, j) else some x

theorem earlierEnd_isFirst {block : Nat} {l : List Job} {first : Option (Nat × Job)} (h : IsFirstEnd block l first)
    (j : Job) : IsFirstEnd block (l ++ [j]) (earlierEnd block first j) := by
  match first, h with
  | none, h =>
    obtain rfl : l = [] := h
    exact ⟨List.mem_singleton_self j, rfl, fun k hk => (congrArg (Job.endAt · block) (List.mem_singleton.1 hk)).ge⟩
  | some (e, i), ⟨hi, he, least⟩ =>
    unfold earlierEnd
    dsimp only
    split
    · next earlier =>
      refine ⟨by simp, rfl, fun k hk => ?_⟩
      rcases List.mem_append.1 hk with hk | hk
      · exact (earlier.trans_le (least k hk)).le
      · rw [List.mem_singleton.1 hk]
    · next later =>
      refine ⟨List.mem_append_left _ hi, he, fun k hk => ?_⟩
      rcases List.mem_append.1 hk with hk | hk
      · exact least k hk
      · rw [List.mem_singleton.1 hk]
        exact not_lt.1 later

theorem Bank.nextEnd_isFirst (b : Bank) (block : Nat) : IsFirstEnd block b.running (b.nextEnd block) := by
  change IsFirstEnd block b.running (b.running.foldl (earlierEnd block) none)
  generalize b.running = l
  induction l using List.reverseRecOn with
  | nil => exact (rfl : ([] : List Job) = [])
  | append_singleton l j ih =>
    rw [List.foldl_concat]
    exact earlierEnd_isFirst ih j

/-! ### A job ends -/

theorem length_filter_bne_lt {l : List Job} {j : Job} (h : j ∈ l) : (l.filter (· != j)).length < l.length :=
  List.length_filter_lt_length_iff_exists.2 ⟨j, h, by simp⟩

/-- The end of a running job leaves the bank with fewer jobs. -/
theorem Bank.finish_length {b : Bank} {j : Job} (h : j ∈ b.running) (e : Nat) :
    (b.finish e j).jobs.length < b.jobs.length := by
  have ended := length_filter_bne_lt h
  unfold Bank.finish
  dsimp only
  split
  · simp only [Bank.jobs, List.length_append]
    omega
  · next k hk =>
    have resumed := length_filter_bne_lt (l := b.suspended) (mem_of_nextJob hk)
    simp only [Bank.jobs, List.length_append, List.length_singleton]
    omega
  · next k hk =>
    have begun := length_filter_bne_lt (l := b.queue) (mem_of_nextJob hk)
    simp only [Bank.jobs, List.length_append, List.length_singleton]
    omega

/-! ### What work of the banks leaves as it is -/

theorem Dev.bank_modBank_same (q : Nat) (f : Bank → Bank) : (d.modBank q f).bank q = f (d.bank q) := by
  rw [Dev.bank_modBank, if_pos rfl]

@[simp] theorem Dev.credit_banks (j : Job) (blocks : Nat) : (d.credit j blocks).banks = d.banks := by
  unfold Dev.credit
  split
  · split <;> rfl
  · rfl

@[simp] theorem Dev.credit_bank (j : Job) (blocks k : Nat) : (d.credit j blocks).bank k = d.bank k := by
  rw [Dev.bank, Dev.credit_banks, Dev.bank]

/-- Keystream made counts in KS_READY, and in no other register (R113). -/
theorem Dev.credit_rdKept (j : Job) (blocks : Nat) : d.rdKept (d.credit j blocks) [.ksReady] := by
  intro r i hr
  unfold Dev.credit
  split
  · split
    · exact Dev.rd_wr_other _ _ _ _ fun h => hr (h ▸ List.mem_singleton_self _)
    · rfl
  · rfl

theorem Dev.blockTicks_of_rates {e : Dev} (h : e.rates = d.rates) (k : Nat) : e.blockTicks k = d.blockTicks k := by
  rw [Dev.blockTicks, Dev.blockTicks, Dev.profile_of_rates h]

@[simp] theorem Dev.modBank_blockTicks (f : Bank → Bank) (k : Nat) : (d.modBank q f).blockTicks k = d.blockTicks k := rfl

theorem Dev.Ciphers.rates {e : Dev} (h : d.Ciphers e) : e.rates = d.rates := by
  have other : ∀ r ∈ [Reg.quadProfile, .lineMode, .ospRate], r ∉ cipherRegs := by decide
  refine Dev.rates_of_rd ?_ fun r hr i => h.regs r i (other r hr)
  change e.butCiphers.quads = d.butCiphers.quads
  rw [h.rest]

theorem Dev.Ciphers.blockTicks {e : Dev} (h : d.Ciphers e) (k : Nat) : e.blockTicks k = d.blockTicks k :=
  Dev.blockTicks_of_rates h.rates k

/-! ### A bank whose ended jobs have left it -/

/-- No running job of bank `q` has ended by tick `n`. -/
def Dev.BankSettled (d : Dev) (n q : Nat) : Prop := ∀ j ∈ (d.bank q).running, n < j.endAt (d.blockTicks q)

theorem Dev.BankSettled.congr {e : Dev} (h : d.BankSettled n q) (hb : (e.bank q).running = (d.bank q).running)
    (ht : e.blockTicks q = d.blockTicks q) : e.BankSettled n q := by
  intro j hj
  rw [ht]
  exact h j (hb ▸ hj)

/-- One end of a job by tick `n`, with the keystream the job made. -/
def Dev.endJob (d : Dev) (q e : Nat) (j : Job) : Dev := (d.modBank q fun b => b.finish e j).credit j j.blocks

theorem Dev.endJob_bank (e : Nat) (j : Job) : (d.endJob q e j).bank q = (d.bank q).finish e j := by
  rw [Dev.endJob, Dev.credit_bank, Dev.bank_modBank_same]

theorem Dev.endJob_bank_other {k : Nat} (e : Nat) (j : Job) (h : k ≠ q) : (d.endJob q e j).bank k = d.bank k := by
  rw [Dev.endJob, Dev.credit_bank, Dev.bank_modBank, if_neg h]

theorem Dev.runBank_succ (fuel : Nat) : Dev.runBank n q (fuel + 1) d =
    match (d.bank q).nextEnd (d.blockTicks q) with
    | none => d
    | some (e, j) => if e ≤ n then Dev.runBank n q fuel (d.endJob q e j) else d := rfl

theorem Dev.runBank_bank_other {k : Nat} (h : k ≠ q) (fuel : Nat) : (Dev.runBank n q fuel d).bank k = d.bank k := by
  induction fuel generalizing d with
  | zero => rfl
  | succ fuel ih =>
    rw [Dev.runBank_succ]
    split
    · rfl
    · split
      · rw [ih, Dev.endJob_bank_other _ _ h]
      · rfl

/-- The ends of as many jobs as the bank holds are all its ends, since each end leaves it with fewer jobs. -/
theorem Dev.runBank_settled {fuel : Nat} (h : (d.bank q).jobs.length ≤ fuel) : (Dev.runBank n q fuel d).BankSettled n q := by
  induction fuel generalizing d with
  | zero =>
    have empty : (d.bank q).jobs = [] := List.length_eq_zero_iff.1 (Nat.le_zero.1 h)
    simp only [Bank.jobs, List.append_eq_nil_iff] at empty
    intro j hj
    rw [Dev.runBank, empty.1.1] at hj
    cases hj
  | succ fuel ih =>
    have first := (d.bank q).nextEnd_isFirst (d.blockTicks q)
    rw [Dev.runBank_succ]
    split
    · next hn =>
      rw [hn] at first
      intro j hj
      rw [show (d.bank q).running = [] from first] at hj
      cases hj
    · next e j hn =>
      rw [hn] at first
      obtain ⟨hj, -, least⟩ := first
      split
      · refine ih ?_
        have fewer := Bank.finish_length hj e
        rw [Dev.endJob_bank]
        omega
      · next later => exact fun k hk => (not_le.1 later).trans_le (least k hk)

theorem Dev.runBank_of_settled (h : d.BankSettled n q) (fuel : Nat) : Dev.runBank n q fuel d = d := by
  cases fuel with
  | zero => rfl
  | succ fuel =>
    have first := (d.bank q).nextEnd_isFirst (d.blockTicks q)
    rw [Dev.runBank_succ]
    split
    · rfl
    · next e j hn =>
      rw [hn] at first
      obtain ⟨hj, rfl, -⟩ := first
      exact if_neg (h j hj).not_ge

theorem Dev.settleBank_settled (d : Dev) (n q : Nat) : (d.settleBank n q).BankSettled n q := Dev.runBank_settled le_rfl

theorem Dev.settleBank_of_settled (h : d.BankSettled n q) : d.settleBank n q = d := Dev.runBank_of_settled h _

theorem Dev.settleBanks_settled (d : Dev) (n : Nat) {q : Nat} (hq : q < 8) : (d.settleBanks n).BankSettled n q := by
  obtain ⟨a, -, last⟩ := d.each_at (f := fun d q => d.settleBank n q) (fun e => (e.bank q, e.blockTicks q))
    List.nodup_range (List.mem_range.2 hq) fun e k _ hk =>
      Prod.ext (Dev.runBank_bank_other hk.symm _) ((Dev.Ciphers.settleBank e n k).blockTicks q)
  obtain ⟨bank, ticks⟩ := Prod.mk.inj last
  exact (a.settleBank_settled n q).congr (congrArg Bank.running bank) ticks

/-! ### A job joins a bank -/

/-- A bank that has given out one more job number. -/
def Bank.numbered (b : Bank) : Bank := { b with nextId := b.nextId + 1 }

@[simp] theorem Bank.numbered_running (b : Bank) : b.numbered.running = b.running := rfl
@[simp] theorem Bank.numbered_suspended (b : Bank) : b.numbered.suspended = b.suspended := rfl

/-- A new job of a request, as it is queued at tick `n` with class `cls`. -/
def Job.fresh (id cls n : Nat) (j : JobReq) : Job :=
  { id, src := j.src, base := cls, cls, slot := none, ctr := 0, pos := 0, blocks := j.blocks, mac := 0, waited := 0,
    since := n }

/-- A job that has not waited yet begins as it is. -/
theorem Job.begin_fresh (id cls n : Nat) (j : JobReq) : (Job.fresh id cls n j).begin n = Job.fresh id cls n j := by
  simp [Job.begin, Job.fresh]

/-- Bank `q` gives out a job number and takes job `j`. -/
def Dev.joinBank (d : Dev) (n q : Nat) (j : Job) : Dev := (d.modBank q Bank.numbered).addJob n q j

theorem Dev.queueJob_eq (d : Dev) (n q : Nat) (j : JobReq) : d.queueJob n q j.src none 0 0 j.blocks =
    (d.settleBank n q).joinBank n q (Job.fresh ((d.settleBank n q).bank q).nextId (d.jobClass j.src) n j) := rfl

section
variable {j : Job}

/-- An idle cutter takes the job (R116). -/
theorem Dev.joinBank_idle (h : (d.bank q).running.length < 640) : d.joinBank n q j =
    (d.modBank q Bank.numbered).modBank q fun b => { b with running := b.running ++ [j.begin n] } := by
  simp only [Dev.joinBank, Dev.addJob, Dev.bank_modBank_same, Bank.numbered_running, h, if_true]

variable (hf : 640 ≤ (d.bank q).running.length)
include hf

/-- No running job is less urgent: the job waits (R116). -/
theorem Dev.joinBank_waits (hv : victim j.cls (d.bank q).running = none) : d.joinBank n q j =
    (d.modBank q Bank.numbered).modBank q fun b => { b with queue := b.queue ++ [j] } := by
  simp only [Dev.joinBank, Dev.addJob, Dev.bank_modBank_same, Bank.numbered_running, not_lt.2 hf, hv, if_false]

variable {v : Job} (hv : victim j.cls (d.bank q).running = some v)
include hv

/-- Every suspension slot is taken: the job waits, and is counted (R116). -/
theorem Dev.joinBank_suspFull (hs : 64 ≤ (d.bank q).suspended.length) : d.joinBank n q j =
    ((d.modBank q Bank.numbered).bump .suspFull q).modBank q fun b => { b with queue := b.queue ++ [j] } := by
  simp only [Dev.joinBank, Dev.addJob, Dev.bank_modBank_same, Bank.numbered_running, Bank.numbered_suspended,
    not_lt.2 hf, hv, not_lt.2 hs, if_false]

/-- A less urgent job completes its block, saves its state, and leaves its cutter to the job (R116). -/
theorem Dev.joinBank_suspends (hs : (d.bank q).suspended.length < 64) {k e : Nat}
    (hk : k = v.madeBy n (d.blockTicks q) + 1) (hb : k < v.blocks) (he : e = v.since + k * d.blockTicks q) :
    d.joinBank n q j = (((d.modBank q Bank.numbered).bump .suspensions q).credit v k).modBank q fun b => { b with
      running := b.running.filter (· != v) ++ [j.begin e], suspended := b.suspended ++ [{ v.after k with since := e }] } := by
  have made : min v.blocks k = k := Nat.min_eq_right hb.le
  have left : (v.after k).blocks ≠ 0 := (Nat.sub_pos_of_lt hb).ne'
  simp only [Dev.joinBank, Dev.addJob, Dev.bank_modBank_same, Bank.numbered_running, Bank.numbered_suspended,
    Dev.modBank_blockTicks, not_lt.2 hf, hv, hs, ← hk, made, ← he, left, if_false, if_true]

end

/-! ### What a job that joins a bank leaves -/

theorem Reg.modulus_suspFull : Reg.modulus .suspFull = 2 ^ 64 := by decide +kernel
theorem Reg.modulus_suspensions : Reg.modulus .suspensions = 2 ^ 64 := by decide +kernel
theorem Reg.modulus_mgmtJobs : Reg.modulus .mgmtJobs = 2 ^ 64 := by decide +kernel
theorem Reg.modulus_ksReady : Reg.modulus .ksReady = 2 ^ 32 := by decide +kernel

section
variable {j : Job}

theorem Dev.joinBank_idle_left (hj : j.begin n = j) (h : (d.bank q).running.length < 640) :
    (d.joinBank n q j).bank q = { d.bank q with nextId := (d.bank q).nextId + 1, running := (d.bank q).running ++ [j] } ∧
    (d.joinBank n q j).regs = d.regs := by
  rw [Dev.joinBank_idle h, Dev.bank_modBank_same, Dev.bank_modBank_same, hj]
  exact ⟨rfl, rfl⟩

theorem Dev.joinBank_idle_mgmt (h : (d.bank q).running.length < 640) : (d.joinBank n q j).mgmt = d.mgmt := by
  rw [Dev.joinBank_idle h]
  rfl

variable (hf : 640 ≤ (d.bank q).running.length)
include hf

theorem Dev.joinBank_waits_left (hv : victim j.cls (d.bank q).running = none) :
    (d.joinBank n q j).bank q = { d.bank q with nextId := (d.bank q).nextId + 1, queue := (d.bank q).queue ++ [j] } ∧
    (d.joinBank n q j).regs = d.regs := by
  rw [Dev.joinBank_waits hf hv, Dev.bank_modBank_same, Dev.bank_modBank_same]
  exact ⟨rfl, rfl⟩

variable {v : Job} (hv : victim j.cls (d.bank q).running = some v)
include hv

theorem Dev.joinBank_suspFull_left (hs : 64 ≤ (d.bank q).suspended.length) :
    ((d.joinBank n q j).bank q).queue = (d.bank q).queue ++ [j] ∧
    ((d.joinBank n q j).bank q).running = (d.bank q).running ∧
    (d.joinBank n q j).rd .suspFull q = (d.rd .suspFull q + 1) % 2 ^ 64 ∧ d.regsKept (d.joinBank n q j) [(.suspFull, q)] := by
  rw [Dev.joinBank_suspFull hf hv hs, Dev.bank_modBank_same, Dev.bump_eq, Dev.wr_bank, Dev.bank_modBank_same, ← Dev.bump_eq]
  exact ⟨rfl, rfl, Dev.rd_bump_counter _ q Reg.modulus_suspFull, ((d.modBank q Bank.numbered).onlyRegs_bump .suspFull q).1⟩

theorem Dev.joinBank_suspends_left (hs : (d.bank q).suspended.length < 64) {k e : Nat}
    (hk : k = v.madeBy n (d.blockTicks q) + 1) (hb : k < v.blocks) (he : e = v.since + k * d.blockTicks q) :
    ((d.joinBank n q j).bank q).running = (d.bank q).running.filter (· != v) ++ [j.begin e] ∧
    (∃ r, ((d.joinBank n q j).bank q).suspended = (d.bank q).suspended ++ [r] ∧ r.id = v.id ∧ r.blocks = v.blocks - k ∧
      r.ctr = v.ctr + k ∧ r.pos = v.pos + 16 * k ∧ r.since = e) ∧
    (d.joinBank n q j).rd .suspensions q = (d.rd .suspensions q + 1) % 2 ^ 64 ∧
    d.rdKept (d.joinBank n q j) [.suspensions, .ksReady] := by
  rw [Dev.joinBank_suspends hf hv hs hk hb he, Dev.bank_modBank_same, Dev.credit_bank, Dev.bump_eq, Dev.wr_bank,
    Dev.bank_modBank_same, ← Dev.bump_eq]
  have credited := ((d.modBank q Bank.numbered).bump .suspensions q).credit_rdKept v k
  refine ⟨rfl, ⟨_, rfl, rfl, rfl, rfl, rfl, rfl⟩, ?_, fun r i hr => ?_⟩
  · rw [Dev.modBank_rd, credited _ _ (by decide), Dev.rd_bump_counter _ q Reg.modulus_suspensions, Dev.modBank_rd]
  · simp only [List.mem_cons, List.not_mem_nil, or_false, not_or] at hr
    rw [Dev.modBank_rd, credited r i (by simpa using hr.2), Dev.bump_rd_other _ _ _ hr.1, Dev.modBank_rd]

end

variable {s : State}

/-- JOB_QUEUED of a job that is no management job: it joins its source's bank once the jobs that have ended have left it. -/
theorem jobQueued_joins {j : JobReq} {p : Dev → Prop} (hq : q < 8) (hs : sourceBank j.src = some q)
    (ho : s.dev.bankOn q = true)
    (hp : p ((s.dev.settleBank (max s.now n) q).joinBank (max s.now n) q
      (Job.fresh ((s.dev.settleBank (max s.now n) q).bank q).nextId (s.dev.jobClass j.src) (max s.now n) j))) :
    Completes (.jobQueued n q j) s n p := by
  refine completes_onElement rfl hq ?_
  simp only [hs, ho, and_self, if_true]
  exact hp

/-! ### Management jobs (R114) -/

theorem Dev.mem_gcmBanks {b : Nat} (h : b ∈ d.gcmBanks) : b < 8 := by
  unfold Dev.gcmBanks at h
  dsimp only at h
  split at h
  · exact List.mem_range.1 (List.mem_of_mem_filter h)
  · exact List.mem_range.1 (List.mem_of_mem_filter (List.mem_of_mem_filter h))

theorem Dev.nextGcmBank_lt {b : Nat} (h : d.nextGcmBank = some b) : b < 8 := by
  have found := List.mem_of_find?_eq_some h
  rcases List.mem_append.1 found with after | before
  · exact Dev.mem_gcmBanks (List.mem_of_mem_filter after)
  · exact Dev.mem_gcmBanks (List.mem_of_mem_filter before)

theorem Dev.rd_of_regs {e : Dev} (h : e.regs = d.regs) (r : Reg) (i : Nat) : e.rd r i = d.rd r i := by
  rw [Dev.rd, h, Dev.rd]

/-- The device with the blocks of the management jobs that wait for an open bank. -/
def Dev.withGcmWaiting (d : Dev) (l : List Nat) : Dev := { d with mgmt := { d.mgmt with gcmWaiting := l } }

@[simp] theorem Dev.withGcmWaiting_bank (l : List Nat) (k : Nat) : (d.withGcmWaiting l).bank k = d.bank k := rfl
@[simp] theorem Dev.withGcmWaiting_rd (l : List Nat) (r : Reg) (i : Nat) : (d.withGcmWaiting l).rd r i = d.rd r i := rfl
@[simp] theorem Dev.withGcmWaiting_blockTicks (l : List Nat) (k : Nat) :
    (d.withGcmWaiting l).blockTicks k = d.blockTicks k := rfl
@[simp] theorem Dev.withGcmWaiting_nextGcmBank (l : List Nat) : (d.withGcmWaiting l).nextGcmBank = d.nextGcmBank := rfl

theorem Dev.withGcmWaiting_left (l : List Nat) : (d.withGcmWaiting l).mgmt.gcmWaiting = l ∧
    (d.withGcmWaiting l).banks = d.banks ∧ (d.withGcmWaiting l).regs = d.regs := ⟨rfl, rfl, rfl⟩

/-- Bank `b` has its turn, and no management job waits any longer. -/
def Dev.turnTaken (d : Dev) (b : Nat) : Dev :=
  { d with mgmt := { d.mgmt with gcmWaiting := [], gcmBank := (b + 1) % 8 } }

@[simp] theorem Dev.turnTaken_bank (b k : Nat) : (d.turnTaken b).bank k = d.bank k := rfl
@[simp] theorem Dev.turnTaken_rd (b : Nat) (r : Reg) (i : Nat) : (d.turnTaken b).rd r i = d.rd r i := rfl
theorem Dev.turnTaken_rates (b : Nat) : (d.turnTaken b).rates = d.rates := rfl

/-- The GHASH unit of a bank is taken up to tick `g`. -/
def Bank.hashing (g : Nat) (b : Bank) : Bank := { b with ghashUntil := g }

/-- The only management job that waits, of `blocks` blocks, is counted at bank `b`, whose GHASH unit is taken for it. -/
def Dev.takeTurn (d : Dev) (n b blocks : Nat) : Dev :=
  let e := (d.turnTaken b).bump .mgmtJobs b
  e.modBank b (Bank.hashing (max (e.bank b).ghashUntil n + (if e.profile b = 3 then 8 else 4) * blocks))

theorem Dev.takeTurn_bank (b blocks : Nat) : ∃ g, (d.takeTurn n b blocks).bank b = (d.bank b).hashing g :=
  ⟨_, by rw [Dev.takeTurn, Dev.bank_modBank_same, Dev.bump_eq, Dev.wr_bank, Dev.turnTaken_bank]⟩

theorem Dev.takeTurn_rd (b blocks : Nat) (r : Reg) (i : Nat) :
    (d.takeTurn n b blocks).rd r i = ((d.turnTaken b).bump .mgmtJobs b).rd r i := by
  rw [Dev.takeTurn, Dev.modBank_rd]

theorem Dev.takeTurn_mgmt (b blocks : Nat) : (d.takeTurn n b blocks).mgmt = (d.turnTaken b).mgmt := by
  rw [Dev.takeTurn, Dev.modBank_mgmt, Dev.bump_eq, Dev.wr_mgmt]

theorem Dev.takeTurn_blockTicks (b blocks k : Nat) : (d.takeTurn n b blocks).blockTicks k = d.blockTicks k := by
  rw [Dev.takeTurn, Dev.modBank_blockTicks]
  exact Dev.blockTicks_of_rates (((d.turnTaken b).rates_wr (r := .mgmtJobs) b _ (by decide)).trans (Dev.turnTaken_rates b)) k

theorem Dev.takeTurn_settled {b : Nat} (blocks : Nat) (h : d.BankSettled n b) : (d.takeTurn n b blocks).BankSettled n b := by
  obtain ⟨g, hg⟩ := d.takeTurn_bank (n := n) b blocks
  exact h.congr (by rw [hg, Bank.hashing]) (d.takeTurn_blockTicks b blocks b)

section
variable {blocks : Nat} (hw : d.mgmt.gcmWaiting = [blocks])
include hw

theorem Dev.placeGcm_waits (hn : d.nextGcmBank = none) : Dev.placeGcm n 1 d = d := by
  simp only [Dev.placeGcm, hw, hn]

theorem Dev.placeGcm_placed {b : Nat} (hn : d.nextGcmBank = some b) :
    Dev.placeGcm n 1 d = (d.takeTurn n b blocks).queueJob n b .gcm none 0 0 blocks := by
  simp only [Dev.placeGcm, hw, hn]
  rfl

/-- A bank that has no job left that has ended is joined as it stands. -/
theorem Dev.placeGcm_joins {b : Nat} (hn : d.nextGcmBank = some b) (hs : d.BankSettled n b) :
    Dev.placeGcm n 1 d = (d.takeTurn n b blocks).joinBank n b
      (Job.fresh ((d.takeTurn n b blocks).bank b).nextId 4 n ⟨.gcm, blocks⟩) := by
  rw [Dev.placeGcm_placed hw hn, Dev.queueJob_eq _ n b ⟨.gcm, blocks⟩,
    Dev.settleBank_of_settled (Dev.takeTurn_settled blocks hs), Dev.jobClass]

end

/-- A message of `blocks` blocks, its length block among them, is one job (R114). -/
theorem Dev.gcmJob_eq {blocks : Nat} (hb : 1 ≤ blocks) (hw : (d.settleBanks n).mgmt.gcmWaiting = []) :
    d.gcmJob n (16 * (blocks - 1)) = Dev.placeGcm n 1 ((d.settleBanks n).withGcmWaiting [blocks]) := by
  have counted : ceilDiv (16 * (blocks - 1)) 16 + 1 = blocks := by
    unfold ceilDiv
    omega
  rw [Dev.gcmJob, counted, hw, List.nil_append, List.length_singleton, Dev.withGcmWaiting]

/-- A management job more on the cutters counts among those the bank holds. -/
theorem Bank.gcmHeld_of_running {b c : Bank} {j : Job} (hj : j.src = .gcm) (hr : c.running = b.running ++ [j])
    (hs : c.suspended = b.suspended) (hq : c.queue = b.queue) : c.gcmHeld = b.gcmHeld + 1 := by
  have one : ([j].filter fun k => k.src == .gcm).length = 1 := by simp [hj]
  simp only [Bank.gcmHeld, Bank.jobs, hr, hs, hq, List.filter_append, List.length_append, one]
  omega

/-- The device after a management job of `blocks` blocks took a cutter of bank `b`. -/
structure Dev.GcmRuns (d e : Dev) (b : Nat) : Prop where
  counted : e.rd .mgmtJobs b = (d.rd .mgmtJobs b + 1) % 2 ^ 64
  turn : e.mgmt.gcmBank = (b + 1) % 8
  waiting : e.mgmt.gcmWaiting = []
  held : (e.bank b).gcmHeld = (d.bank b).gcmHeld + 1
  regs : d.rdKept e [.mgmtJobs]

theorem Dev.placeGcm_runs {b blocks : Nat} (hw : d.mgmt.gcmWaiting = [blocks]) (hn : d.nextGcmBank = some b)
    (hs : d.BankSettled n b) (hr : (d.bank b).running.length < 640) : d.GcmRuns (Dev.placeGcm n 1 d) b := by
  rw [Dev.placeGcm_joins hw hn hs]
  obtain ⟨g, taken⟩ := d.takeTurn_bank (n := n) b blocks
  generalize hj : Job.fresh ((d.takeTurn n b blocks).bank b).nextId 4 n ⟨.gcm, blocks⟩ = j
  have begun : j.begin n = j := by rw [← hj, Job.begin_fresh]
  have gcm : j.src = .gcm := by rw [← hj, Job.fresh]
  have idle : ((d.takeTurn n b blocks).bank b).running.length < 640 := by
    rw [taken]
    exact hr
  obtain ⟨bank, regs⟩ := Dev.joinBank_idle_left begun idle
  have mgmt := (Dev.joinBank_idle_mgmt (n := n) (j := j) idle).trans (d.takeTurn_mgmt b blocks)
  have rd : ∀ r i, ((d.takeTurn n b blocks).joinBank n b j).rd r i = ((d.turnTaken b).bump .mgmtJobs b).rd r i :=
    fun r i => (Dev.rd_of_regs regs r i).trans (d.takeTurn_rd b blocks r i)
  refine ⟨?_, ?_, ?_, ?_, fun r i hr => ?_⟩
  · rw [rd, Dev.rd_bump_counter _ b Reg.modulus_mgmtJobs, Dev.turnTaken_rd]
  · rw [mgmt, Dev.turnTaken]
  · rw [mgmt, Dev.turnTaken]
  · refine Bank.gcmHeld_of_running gcm ?_ ?_ ?_
    all_goals rw [bank, taken, Bank.hashing]
  · rw [rd, Dev.bump_rd_other _ _ _ (by simpa using hr), Dev.turnTaken_rd]

/-- The same of a job that no other waited before. -/
theorem Dev.placeGcm_only_runs {b blocks : Nat} (hn : d.nextGcmBank = some b) (hs : d.BankSettled n b)
    (hr : (d.bank b).running.length < 640) : d.GcmRuns (Dev.placeGcm n 1 (d.withGcmWaiting [blocks])) b := by
  have runs := Dev.placeGcm_runs (d := d.withGcmWaiting [blocks]) rfl hn hs hr
  exact ⟨runs.counted, runs.turn, runs.waiting, runs.held, runs.regs⟩

theorem Dev.placeGcm_only_waits {blocks : Nat} (hn : d.nextGcmBank = none) :
    Dev.placeGcm n 1 (d.withGcmWaiting [blocks]) = d.withGcmWaiting [blocks] :=
  Dev.placeGcm_waits rfl hn

section
variable {blocks : Nat} (hq : q < 8) (hb : 1 ≤ blocks) (hw : (s.dev.settleBanks (max s.now n)).mgmt.gcmWaiting = [])
include hq hb hw

/-- JOB_QUEUED of a management job, whose blocks are those of its message and a length block. -/
theorem jobQueued_places {p : Dev → Prop}
    (hp : p (Dev.placeGcm (max s.now n) 1 ((s.dev.settleBanks (max s.now n)).withGcmWaiting [blocks]))) :
    Completes (.jobQueued n q ⟨.gcm, blocks⟩) s n p := by
  refine completes_onElement (f := fun n d => d.gcmJob n (16 * (blocks - 1))) rfl hq ?_
  rw [Dev.gcmJob_eq hb hw]
  exact hp

theorem jobQueued_gcm_runs {b : Nat} (hn : (s.dev.settleBanks (max s.now n)).nextGcmBank = some b)
    (hr : ((s.dev.settleBanks (max s.now n)).bank b).running.length < 640) :
    Completes (.jobQueued n q ⟨.gcm, blocks⟩) s n fun e => (s.dev.settleBanks (max s.now n)).GcmRuns e b :=
  jobQueued_places hq hb hw
    (Dev.placeGcm_only_runs hn (s.dev.settleBanks_settled (max s.now n) (Dev.nextGcmBank_lt hn)) hr)

theorem jobQueued_gcm_waits (hn : (s.dev.settleBanks (max s.now n)).nextGcmBank = none) :
    Completes (.jobQueued n q ⟨.gcm, blocks⟩) s n fun e => e = (s.dev.settleBanks (max s.now n)).withGcmWaiting [blocks] :=
  jobQueued_places hq hb hw (Dev.placeGcm_only_waits hn)

end

/-! ### Jobs that end (R116) -/

theorem Dev.credit_mgmt (j : Job) (blocks : Nat) : (d.credit j blocks).mgmt = d.mgmt := by
  unfold Dev.credit
  split
  · split <;> rfl
  · rfl

theorem Dev.runBank_mgmt (fuel : Nat) : (Dev.runBank n q fuel d).mgmt = d.mgmt := by
  induction fuel generalizing d with
  | zero => rfl
  | succ fuel ih =>
    rw [Dev.runBank_succ]
    split
    · rfl
    · split
      · rw [ih, Dev.endJob, Dev.credit_mgmt, Dev.modBank_mgmt]
      · rfl

/-- JOB_RESUME of a job whose blocks are all made, with no management job that waits: its bank is brought to the tick. -/
theorem jobResume_settles {id : Nat} {j : Job} {p : Dev → Prop} (hq : q < 8) (hj : j ∈ (s.dev.bank q).running)
    (hi : j.id = id) (he : j.endAt (s.dev.blockTicks q) ≤ max s.now n) (hw : s.dev.mgmt.gcmWaiting = [])
    (hp : p (s.dev.settleBank (max s.now n) q)) : Completes (.jobResume n q id) s n p := by
  refine completes_onElement rfl hq ?_
  have ended : ((s.dev.bank q).running.any fun k =>
      k.id == id && decide (k.since + k.blocks * s.dev.blockTicks q ≤ max s.now n)) = true :=
    List.any_eq_true.2 ⟨j, hj, by simpa [hi, Job.endAt] using he⟩
  have waiting : (s.dev.settleBank (max s.now n) q).mgmt.gcmWaiting = [] := by
    rw [Dev.settleBank, Dev.runBank_mgmt, hw]
  dsimp only
  rw [if_pos ended, waiting]
  exact hp

/-- A bank whose only job has ended is left without jobs. -/
theorem Dev.settleBank_only {j : Job} (hr : (d.bank q).running = [j]) (hs : (d.bank q).suspended = [])
    (hq : (d.bank q).queue = []) (he : j.endAt (d.blockTicks q) ≤ n) :
    d.settleBank n q = d.endJob q (j.endAt (d.blockTicks q)) j := by
  have one : (d.bank q).jobs.length = 1 := by simp [Bank.jobs, hr, hs, hq]
  have first : (d.bank q).nextEnd (d.blockTicks q) = some (j.endAt (d.blockTicks q), j) := by
    rw [Bank.nextEnd, hr]
    rfl
  rw [Dev.settleBank, one, Dev.runBank_succ, first]
  exact if_pos he

theorem Bank.finish_only {b : Bank} {j : Job} (hr : b.running = [j]) (hs : b.suspended = []) (hq : b.queue = []) (e : Nat) :
    (b.finish e j).running = [] := by
  simp [Bank.finish, nextJob, hr, hs, hq]

/-- The blocks of a grant whose burst still has its keystream structure count as ready keystream (R113, R118). -/
theorem Dev.credit_ksReady {j : Job} {t a blocks : Nat} {b : BurstRef} (hj : j.src = .grant t a b) (hb : blocks ≠ 0)
    (hk : ((d.tree t).keystream.any fun k => k.burst == b && k.alloc == a) = true) :
    (d.credit j blocks).rd .ksReady (quadOf t) = (d.rd .ksReady (quadOf t) + 16 * blocks) % 2 ^ 32 := by
  have held : (blocks ≠ 0 && (d.tree t).keystream.any fun k => k.burst == b && k.alloc == a) = true := by
    simp only [hb, hk, ne_eq, not_false_eq_true, decide_true, Bool.and_self]
  unfold Dev.credit
  rw [hj]
  dsimp only
  rw [if_pos held, Dev.add_eq, Dev.rd_wr_same, Reg.modulus_ksReady, Dev.modTree_rd]

/-- JOB_RESUME of the only job of its bank. -/
theorem Dev.settleBank_only_ksReady {j : Job} {t a : Nat} {b : BurstRef} (hr : (d.bank q).running = [j])
    (hs : (d.bank q).suspended = []) (hq : (d.bank q).queue = []) (he : j.endAt (d.blockTicks q) ≤ n)
    (hj : j.src = .grant t a b) (ht : quadOf t = q) (hb : j.blocks ≠ 0)
    (hk : ((d.tree t).keystream.any fun k => k.burst == b && k.alloc == a) = true) :
    (d.settleBank n q).rd .ksReady q = (d.rd .ksReady q + 16 * j.blocks) % 2 ^ 32 := by
  subst ht
  rw [Dev.settleBank_only hr hs hq he, Dev.endJob, Dev.credit_ksReady hj hb (by rwa [Dev.modBank_tree]), Dev.modBank_rd]

/-! ### The commands -/

/-- Settles O38: a bank that has been brought to a tick holds no running job that has ended by it, so a job that joins it meets
the cutters, the suspension slots and the victim of that bank. -/
theorem jobsRunAndResume : Obligations.JobsRunAndResume := by
  unfold Obligations.JobsRunAndResume
  refine ⟨fun s n q j hq hs ho => ⟨fun hr => ?_, fun hf hv => ?_, fun hf v hv => ⟨fun hx => ?_, fun hx hb => ?_⟩⟩,
    fun s n q blocks hq hb hw => ⟨fun b hn hr => ?_, fun hn => ?_⟩,
    fun s n q id j hq hj hi he hw => ⟨?_, fun hr hs hu => ?_⟩, fun s n q id hq => ?_⟩
  · exact jobQueued_joins hq hs ho (Dev.joinBank_idle_left (Job.begin_fresh ..) hr)
  · exact jobQueued_joins hq hs ho (Dev.joinBank_waits_left hf hv)
  · exact jobQueued_joins hq hs ho (Dev.joinBank_suspFull_left hf hv hx)
  · exact jobQueued_joins hq hs ho (Dev.joinBank_suspends_left hf hv hx rfl hb rfl)
  · exact (jobQueued_gcm_runs hq hb hw hn hr).imp fun e runs =>
      ⟨runs.counted, runs.turn, runs.waiting, runs.held, runs.regs⟩
  · exact (jobQueued_gcm_waits hq hb hw hn).imp fun e he => he ▸ Dev.withGcmWaiting_left _
  · refine jobResume_settles hq hj hi he hw ⟨fun k hk => ?_, fun r i hr => ?_⟩
    · have running := s.dev.settleBank_settled (max s.now n) q k hk
      rwa [(Dev.Ciphers.settleBank s.dev (max s.now n) q).blockTicks] at running
    · exact Dev.runBank_rd s.dev (max s.now n) q _ i fun h => hr (h ▸ List.mem_singleton_self _)
  · refine jobResume_settles hq hj hi he hw ⟨?_, fun t a b hg ht hb hk => ?_⟩
    · rw [Dev.settleBank_only hr hs hu he, Dev.endJob_bank, Bank.finish_only hr hs hu]
    · exact Dev.settleBank_only_ksReady hr hs hu he hg ht hb hk
  · refine completes_onElement rfl hq ?_
    rw [Dev.bank_modBank_same]
    exact ⟨rfl, rfl, rfl, rfl⟩

end Sys2Proof.Machine
end

section
/-!
PROOFS. Commits that swap or run out of time, and fragments that age out (R145, R154, R155).
-/
namespace Sys2Proof.Machine
open Sys2Proof

variable (d : Dev)

theorem Reg.modulus_activeVersion : Reg.modulus .activeVersion = 256 := by decide +kernel
theorem Reg.modulus_commitStatus : Reg.modulus .commitStatus = 256 := by decide +kernel
theorem Reg.modulus_fragEntries : Reg.modulus .fragEntries = 2 ^ 16 := by decide +kernel

/-! ### The end of an operation and the rules' versions -/

/-- The versions of the rules: those kept, the active one and staging. -/
structure Versions where
  older : List (Nat × Tables)
  active : Tables
  staging : Tables

def Dev.rules (d : Dev) : Versions := ⟨d.older, d.active, d.staging⟩

theorem Dev.counted_rules (code ms : Nat) (m : Mgmt) :
    ({ ((d.bump .longOps 0).wr .lastLongOp 0 code).wr .lastLongMs 0 ms with mgmt := m } : Dev).rules = d.rules := rfl

/-- The end of the only operation leaves the rules as they are, and none runs. -/
theorem Dev.endOp_rules (n : Nat) {o : LongOp} (ho : d.mgmt.longOp = some o) (hw : d.mgmt.waitingOps = []) :
    (d.endOp n).rules = d.rules ∧ (d.endOp n).mgmt.longOp = none := by
  rw [Dev.endOp_counted ho hw]
  exact ⟨Dev.counted_rules _ _ _ _, rfl⟩

/-- The end of the only operation writes the three registers that tell of it. -/
theorem Dev.endOp_regsKept (n : Nat) {o : LongOp} (ho : d.mgmt.longOp = some o) (hw : d.mgmt.waitingOps = []) :
    d.regsKept (d.endOp n) [(.longOps, 0), (.lastLongOp, 0), (.lastLongMs, 0)] := by
  intro r i hr
  simp only [List.mem_cons, Prod.mk.injEq, List.not_mem_nil, or_false, not_or] at hr
  obtain ⟨counted, last, lasted⟩ := hr
  rw [Dev.endOp_counted ho hw, Dev.rd_setMgmt, Dev.rd_wr, if_neg lasted, Dev.rd_wr, if_neg last, Dev.rd_bump, if_neg counted]

theorem Dev.durable_rules (n : Nat) (f : Nat → MirrorRecord) : (d.durable n f).rules = d.rules := by
  simp [Dev.rules]

/-! ### The swap -/

/-- The versions kept beside the active one after a swap (R155). -/
def Dev.olderAfterSwap (d : Dev) : List (Nat × Tables) :=
  if d.rd .verInflight (d.rd .activeVersion 0) = 0 then d.older else d.older ++ [(d.rd .activeVersion 0, d.active)]

theorem Dev.swapTables_rules : d.swapTables.rules = ⟨d.olderAfterSwap, d.staging, d.staging⟩ := rfl

theorem Dev.swapTables_activeVersion : d.swapTables.rd .activeVersion 0 = (d.rd .activeVersion 0 + 1) % 4 := by
  have fits : (d.rd .activeVersion 0 + 1) % 4 < 256 := by omega
  unfold Dev.swapTables
  dsimp only
  rw [Dev.rd_wr_other _ _ _ _ (by decide), Dev.rd_wr_same, Reg.modulus_activeVersion, Nat.mod_eq_of_lt fits]

theorem Dev.swapTables_commitStatus : d.swapTables.rd .commitStatus 0 = 1 := by
  unfold Dev.swapTables
  dsimp only
  rw [Dev.rd_wr_same, Reg.modulus_commitStatus]

/-! ### The commands -/

section
variable {s : State} {n : Nat} {o : LongOp} (ho : s.dev.mgmt.longOp = some o)
include ho

theorem commitSwap_swaps (hc : o.code = 1) (hi : s.dev.commitInTime o = true) (hw : s.dev.mgmt.waitingOps = []) :
    Completes (.commitSwap n) s n fun e =>
      e.rules = ⟨s.dev.olderAfterSwap, s.dev.staging, s.dev.staging⟩ ∧
      e.rd .activeVersion 0 = (s.dev.rd .activeVersion 0 + 1) % 4 ∧ e.rd .commitStatus 0 = 1 ∧ e.mgmt.longOp = none := by
  refine completes_at rfl ?_
  rw [ho]
  dsimp only
  rw [if_pos ⟨hc, hi⟩]
  generalize (fun k => MirrorRecord.commit k) = f
  have mgmt : (s.dev.swapTables.durable (max s.now n) f).mgmt = s.dev.mgmt := Dev.durable_mgmt _ _ _
  rw [← mgmt] at ho hw
  have ended := Dev.endOp_ended _ (max s.now n) hw
  obtain ⟨rules, idle⟩ := Dev.endOp_rules _ (max s.now n) ho hw
  refine ⟨?_, ?_, ?_, idle⟩
  · rw [rules, Dev.durable_rules, Dev.swapTables_rules]
  · rw [ended.regs _ _ (by decide), Dev.durable_rd _ _ _ _ (by decide), Dev.swapTables_activeVersion]
  · rw [ended.regs _ _ (by decide), Dev.durable_rd _ _ _ _ (by decide), Dev.swapTables_commitStatus]

theorem commitSwap_late (hi : s.dev.commitInTime o = false) : Completes (.commitSwap n) s n fun e => e = s.dev := by
  refine completes_at rfl ?_
  rw [ho]
  exact if_neg fun h => Bool.false_ne_true (hi.symm.trans h.2)

theorem commitTimeout_ends (hc : o.code = 1) (hi : s.dev.commitInTime o = false)
    (ht : o.start + o.maxTicks ≤ max s.now n) (hw : s.dev.mgmt.waitingOps = []) :
    Completes (.commitTimeout n) s n fun e =>
      e.rules = s.dev.rules ∧ e.mgmt.longOp = none ∧ e.rd .commitStatus 0 = 2 ∧
      s.dev.regsKept e [(.commitStatus, 0), (.longOps, 0), (.lastLongOp, 0), (.lastLongMs, 0)] := by
  refine completes_at rfl ?_
  rw [ho]
  dsimp only
  rw [if_pos ⟨hc, hi, ht⟩]
  have ended := (s.dev.wr .commitStatus 0 2).endOp_ended (max s.now n) hw
  obtain ⟨rules, idle⟩ := (s.dev.wr .commitStatus 0 2).endOp_rules (max s.now n) ho hw
  refine ⟨rules, idle, ?_, fun r i hr => ?_⟩
  · rw [ended.regs _ _ (by decide), Dev.rd_wr_same, Reg.modulus_commitStatus]
  · obtain ⟨status, others⟩ := not_or.1 fun h => hr (List.mem_cons.2 h)
    rw [Dev.endOp_regsKept (s.dev.wr .commitStatus 0 2) _ ho hw r i others, Dev.rd_wr, if_neg fun h => status (Prod.ext h.1 h.2)]

end

theorem fragAgeOut_frees {s : State} {n k : Nat} {f : Frag} (hk : k < 8192) (hf : s.dev.frags[k]? = some f)
    (ho : f.refreshed + msTicks (s.dev.rd .fragAge 0) ≤ max s.now n) :
    Completes (.fragAgeOut n k) s n fun e => e = s.dev.setFrags (s.dev.frags.eraseIdx k) := by
  refine completes_onElement rfl hk ?_
  rw [hf]
  exact if_pos (decide_eq_true ho)

/-- Settles O42: the swap, or the status of a commit that ran out of time, before the end of the only operation, which leaves
the rules as they are. -/
theorem commitsSwapOrEnd : Obligations.CommitsSwapOrEnd := by
  unfold Obligations.CommitsSwapOrEnd
  refine fun s n => ⟨fun o ho hc hi hw => ?_, fun o ho hc hi ht hw => ⟨commitSwap_late ho hi, ?_⟩, fun k hk f hf hr => ?_⟩
  · refine (commitSwap_swaps ho hc hi hw).imp fun e ⟨rules, version, status, idle⟩ => ?_
    obtain ⟨older, active, staging⟩ := Versions.mk.inj rules
    exact ⟨active, staging, version, status, idle, older⟩
  · refine (commitTimeout_ends ho hc hi ht hw).imp fun e ⟨rules, idle, status, kept⟩ => ?_
    obtain ⟨-, active, staging⟩ := Versions.mk.inj rules
    exact ⟨active, staging, status, idle, kept⟩
  · refine (fragAgeOut_frees hk hf hr).imp fun e he => ?_
    obtain ⟨inside, -⟩ := List.getElem?_eq_some_iff.1 hf
    subst he
    refine ⟨rfl, ?_, fun r i hr => ?_⟩
    · rw [Dev.setFrags, Dev.rd_wr_same, Reg.modulus_fragEntries, List.length_eraseIdx_of_lt inside]
    · exact ((Dev.onlyRegs_wr _ _ _ _).1 r i hr)

end Sys2Proof.Machine
end

section
/-!
PROOFS. Frames received by the MAC of an uplink port and of the management port (R137, R230, R249, R255-R259, R262).
-/
namespace Sys2Proof.Machine
open Sys2Proof

variable (d : Dev)

/-! ### The limits of a frame (R255) -/

section
variable {maxlen length : Nat} {fcs : Bool}

theorem frameLimit_runt (h : length < 64) : frameLimit maxlen length fcs = .runt := if_pos h

theorem frameLimit_oversize (h : 64 ≤ length) (hm : maxlen < length) : frameLimit maxlen length fcs = .oversize :=
  (if_neg h.not_gt).trans (if_pos hm)

theorem frameLimit_fcsBad (h : 64 ≤ length) (hm : length ≤ maxlen) : frameLimit maxlen length false = .fcsBad :=
  (if_neg h.not_gt).trans (if_neg hm.not_gt)

theorem frameLimit_good (h : 64 ≤ length) (hm : length ≤ maxlen) : frameLimit maxlen length true = .good :=
  (if_neg h.not_gt).trans (if_neg hm.not_gt)

end

/-! ### PAUSE received (R257, R259) -/

variable {d} in
theorem Dev.modPort_congr {p : Nat} {f g : Port → Port} (h : f (d.port p) = g (d.port p)) :
    d.modPort p f = d.modPort p g := by
  rw [Dev.modPort, h, Dev.modPort]

section
variable {d} {n p : Nat}

theorem Dev.settlePause_idle (h : (d.port p).pausedAt = none) : d.settlePause n p = d :=
  if_neg (by simp [h])

theorem Dev.countPause_idle (h : (d.port p).pausedAt = none) : d.countPause n p = d :=
  if_pos (by rw [h]; rfl)

/-- A port that is not paused has counted a PAUSE frame, and noted when it came. -/
def Dev.pauseHeard (d : Dev) (n p : Nat) : Dev := (d.bump .pauseRxFrames p).modPort p fun x => { x with lastPauseRx := n }

theorem Dev.pauseHeard_port : (d.pauseHeard n p).port p = { d.port p with lastPauseRx := n } := by
  rw [Dev.pauseHeard, Dev.port_modPort, if_pos rfl, Dev.bump_eq, Dev.wr_port]

theorem Reg.modulus_pauseRxFrames : Reg.modulus .pauseRxFrames = 2 ^ 64 := by decide +kernel

theorem Dev.pauseHeard_counted : (d.pauseHeard n p).rd .pauseRxFrames p = (d.rd .pauseRxFrames p + 1) % 2 ^ 64 := by
  rw [Dev.pauseHeard, Dev.modPort_rd, Dev.rd_bump_counter _ _ Reg.modulus_pauseRxFrames]

theorem Dev.pauseHeard_kept : d.regsKept (d.pauseHeard n p) [(.pauseRxFrames, p)] := fun r i hr => by
  rw [Dev.pauseHeard, Dev.modPort_rd, (d.onlyRegs_bump .pauseRxFrames p).1 r i hr]

theorem Dev.pauseHeard_rd {r : Reg} (i : Nat) (h : r ≠ .pauseRxFrames) : (d.pauseHeard n p).rd r i = d.rd r i :=
  Dev.pauseHeard_kept r i (by simp [h])

theorem Dev.pauseHeard_obeys : (d.pauseHeard n p).obeysPause p = d.obeysPause p := by
  rw [Dev.obeysPause, Dev.on, Dev.pauseHeard_rd _ (by decide), Dev.pauseHeard_port, Dev.obeysPause, Dev.on]

theorem Dev.pauseHeard_quantaTicks (q : Nat) : (d.pauseHeard n p).quantaTicks q = d.quantaTicks q := by
  rw [Dev.quantaTicks, Dev.lanesPerPort, Dev.pauseHeard_rd _ (by decide), Dev.quantaTicks, Dev.lanesPerPort]

/-- A pause of a port from tick `n` up to tick `till`. -/
def Port.pausedFrom (n till : Nat) (x : Port) : Port := { x with pausedAt := some n, pauseUntil := till, countedTo := n }

section
variable (hp : (d.port p).pausedAt = none)
include hp

theorem Dev.pauseHeard_idle : ((d.pauseHeard n p).port p).pausedAt = none := by rw [Dev.pauseHeard_port, hp]

theorem Dev.pauseReceived_ignored {q : Nat} (ho : d.obeysPause p = false) : d.pauseReceived n p q = d.pauseHeard n p := by
  unfold Dev.pauseReceived
  rw [← Dev.pauseHeard, Dev.settlePause_idle (Dev.pauseHeard_idle hp)]
  dsimp only
  rw [Dev.pauseHeard_obeys, ho]
  rfl

/-- A port that obeys is paused from now on, for the quanta's time. -/
theorem Dev.pauseReceived_obeyed {q : Nat} (ho : d.obeysPause p = true) (hq : q ≠ 0) :
    d.pauseReceived n p q = (d.pauseHeard n p).modPort p (Port.pausedFrom n (n + d.quantaTicks q)) := by
  have idle := Dev.pauseHeard_idle (n := n) hp
  unfold Dev.pauseReceived
  rw [← Dev.pauseHeard, Dev.settlePause_idle idle]
  dsimp only
  rw [Dev.pauseHeard_obeys, ho, Dev.countPause_idle idle, Dev.pauseHeard_quantaTicks, if_neg (by decide), if_neg hq]
  refine Dev.modPort_congr ?_
  rw [idle]
  rfl

end

end

/-! ### A frame on an uplink port -/

/-- The port takes frames: the dictionary answers, and the port is up. -/
structure Dev.Serves (d : Dev) (p : Nat) : Prop where
  phase : d.chip.phase = .up
  up : d.portUp p = true

section
variable {d} {n ps p : Nat} {b : Bytes} {fcs : Bool}

theorem Dev.Serves.taken (hs : d.Serves p) :
    ¬(decide (d.chip.phase ≠ .up) || !(d.portUp p || d.portInStage p 4)) = true := by
  simp [hs.phase, hs.up]

/-- A frame on a port that takes frames is told by its limits. -/
theorem Dev.uplinkReceive_bad (hs : d.Serves p) (r : Reg)
    (h : (frameLimit (d.rd .maxlen 0) (b.length + 4) fcs, r) ∈
      [(.runt, .portRunt), (.oversize, .portOversize), (.fcsBad, .portFcsErr)]) :
    d.uplinkReceive n ps p b fcs = d.bump r p := by
  simp only [List.mem_cons, Prod.mk.injEq, List.not_mem_nil, or_false] at h
  unfold Dev.uplinkReceive
  rw [if_neg hs.taken]
  obtain ⟨h, rfl⟩ | ⟨h, rfl⟩ | ⟨h, rfl⟩ := h <;> rw [h]

/-- A good frame that tells no capability. -/
structure Dev.GoodFrame (d : Dev) (b : Bytes) : Prop where
  limit : frameLimit (d.rd .maxlen 0) (b.length + 4) true = .good
  plain : isCapability b = false

theorem Dev.goodFrame (h : 60 ≤ b.length) (hm : b.length + 4 ≤ d.rd .maxlen 0) (hc : isCapability b = false) :
    d.GoodFrame b :=
  ⟨frameLimit_good (by omega) hm, hc⟩

theorem Dev.uplinkReceive_good (hs : d.Serves p) (hg : d.GoodFrame b) :
    d.uplinkReceive n ps p b true =
      if numAt b 12 2 = 0x8808 then
        if numAt b 14 2 = 1 then d.pauseReceived n p (numAt b 16 2) else d.bump .macctlOther p
      else d.storeArrived n ps p b := by
  unfold Dev.uplinkReceive
  rw [if_neg hs.taken, hg.limit]
  dsimp only
  rw [hg.plain, hs.up]
  rfl

/-! ### The receive store (R137) -/

/-- The frame as it waits in the receive store, stamped to 10 ps (R230). -/
def Dev.arrival (d : Dev) (n ps p : Nat) (b : Bytes) : Waiting where
  srcKind := 0
  srcNum := p
  encPort := 0
  bytes := b
  length := b.length + 4
  stamp := n
  rxTime := d.stampTime n (stampPs ps - d.rdS .portRxCorrPs p)
  at_ := n
  sub := stampPs ps

/-- A good frame has been counted, and its stamp where it is an event message (R231). -/
def Dev.arrivalCounted (d : Dev) (p : Nat) (b : Bytes) : Dev :=
  (d.bump .rxFrames p).when (ptpAt b).isSome fun d => d.bump .rxStamps 0

theorem Dev.arrivalCounted_port (x : Nat) : (d.arrivalCounted p b).port x = d.port x := by
  unfold Dev.arrivalCounted Dev.when
  split <;> simp [Dev.bump_eq]

theorem Dev.arrivalCounted_rd {r : Reg} {i : Nat} (hr : r ≠ .rxStamps) :
    (d.arrivalCounted p b).rd r i = (d.bump .rxFrames p).rd r i :=
  Dev.when_bump_rd _ _ 0 i hr

theorem Dev.storeArrived_eq : d.storeArrived n ps p b =
    if d.storeBytes p + (b.length + 4) ≤ 65536 then
      (d.arrivalCounted p b).modPort p fun x => { x with store := x.store ++ [d.arrival n ps p b] }
    else (d.arrivalCounted p b).bump .parseWaitDrop p := by
  have bytes : (d.arrivalCounted p b).storeBytes p = d.storeBytes p := by
    rw [Dev.storeBytes, Dev.arrivalCounted_port, Dev.storeBytes]
  rw [← bytes]
  rfl

theorem Reg.modulus_rxFrames : Reg.modulus .rxFrames = 2 ^ 64 := by decide +kernel
theorem Reg.modulus_parseWaitDrop : Reg.modulus .parseWaitDrop = 2 ^ 64 := by decide +kernel

/-- A frame has joined the store of its port. -/
structure Dev.Stored (d e : Dev) (p : Nat) (w : Waiting) : Prop where
  store : (e.port p).store = (d.port p).store ++ [w]
  counted : e.rd .rxFrames p = (d.rd .rxFrames p + 1) % 2 ^ 64
  kept : ∀ r i, r ≠ .rxStamps → (r, i) ≠ (.rxFrames, p) → e.rd r i = d.rd r i

theorem Dev.storeArrived_room (h : d.storeBytes p + (b.length + 4) ≤ 65536) :
    d.Stored (d.storeArrived n ps p b) p (d.arrival n ps p b) := by
  rw [Dev.storeArrived_eq, if_pos h]
  refine ⟨?_, ?_, fun r i hr hi => ?_⟩
  · rw [Dev.port_modPort, if_pos rfl, Dev.arrivalCounted_port]
  · rw [Dev.modPort_rd, Dev.arrivalCounted_rd (by decide), Dev.rd_bump_counter _ _ Reg.modulus_rxFrames]
  · rw [Dev.modPort_rd, Dev.arrivalCounted_rd hr, (d.onlyRegs_bump .rxFrames p).1 r i (by simpa using hi)]

theorem Dev.storeArrived_full (h : 65536 < d.storeBytes p + (b.length + 4)) :
    (d.storeArrived n ps p b).port p = d.port p ∧
      (d.storeArrived n ps p b).rd .parseWaitDrop p = (d.rd .parseWaitDrop p + 1) % 2 ^ 64 := by
  rw [Dev.storeArrived_eq, if_neg h.not_ge]
  refine ⟨?_, ?_⟩
  · rw [Dev.bump_eq, Dev.wr_port, Dev.arrivalCounted_port]
  · rw [Dev.rd_bump_counter _ _ Reg.modulus_parseWaitDrop, Dev.arrivalCounted_rd (by decide),
      Dev.bump_rd_other _ _ _ (by decide)]

end

theorem Reg.modulus_portRunt : Reg.modulus .portRunt = 2 ^ 64 := by decide +kernel
theorem Reg.modulus_portOversize : Reg.modulus .portOversize = 2 ^ 64 := by decide +kernel
theorem Reg.modulus_portFcsErr : Reg.modulus .portFcsErr = 2 ^ 64 := by decide +kernel
theorem Reg.modulus_macctlOther : Reg.modulus .macctlOther = 2 ^ 64 := by decide +kernel
theorem Reg.modulus_mgmtOther : Reg.modulus .mgmtOther = 2 ^ 64 := by decide +kernel

/-! ### The commands -/

/-- A good frame for no one in the device is counted (R262). -/
theorem Dev.mgmtReceive_other {b : Bytes} (hup : d.chip.phase = .up) (hm : d.rd .mgmtState 0 ≠ 0)
    (hl : frameLimit (d.rd .maxlen 0) (b.length + 4) true = .good) (hc : numAt b 12 2 ≠ 0x8808)
    (ho : numAt b 0 6 ≠ d.rd .mgmtMac 0) (hb : numAt b 0 6 ≠ 0xFFFFFFFFFFFF) :
    d.mgmtReceive b true = d.bump .mgmtOther 0 := by
  unfold Dev.mgmtReceive
  rw [if_neg (not_or.2 ⟨not_not.2 hup, hm⟩), hl]
  dsimp only
  rw [if_neg hc, if_neg fun h => h.2.elim ho hb]

theorem Dev.counts_bump {r : Reg} (i : Nat) (h : r.modulus = 2 ^ 64) :
    (d.bump r i).rd r i = (d.rd r i + 1) % 2 ^ 64 ∧ d.onlyRegs (d.bump r i) [(r, i)] :=
  ⟨d.rd_bump_counter i h, d.onlyRegs_bump r i⟩

theorem macFrame_completes {s : State} {n ps p : Nat} {b : Bytes} {fcs : Bool} {q : Dev → Prop} (hp : p < 16)
    (h : q (s.dev.uplinkReceive (max s.now n) ps p b fcs)) :
    Completes (.macFrameReceive ⟨n, ps⟩ (.uplink p) b fcs) s n q :=
  completes_onElement rfl hp h

/-- Settles O40: a frame is told by its limits, a good one by its type; a port that is not paused has no pause to settle or to
count before a new one. -/
theorem macFramesReceived : Obligations.MacFramesReceived := by
  unfold Obligations.MacFramesReceived
  intro s n ps p b fcs phase hp up
  have serves : s.dev.Serves p := ⟨phase, up⟩
  dsimp only
  refine ⟨fun hb => ?_, fun hb hm => ?_, fun hb hm hf => ?_, ?_, ?_, ?_, ?_, ?_⟩
  · refine macFrame_completes hp ?_
    rw [Dev.uplinkReceive_bad serves .portRunt (by simp [frameLimit_runt (show b.length + 4 < 64 by omega)])]
    exact s.dev.counts_bump p Reg.modulus_portRunt
  · refine macFrame_completes hp ?_
    rw [Dev.uplinkReceive_bad serves .portOversize (by simp [frameLimit_oversize (show 64 ≤ b.length + 4 by omega) hm])]
    exact s.dev.counts_bump p Reg.modulus_portOversize
  · subst hf
    refine macFrame_completes hp ?_
    rw [Dev.uplinkReceive_bad serves .portFcsErr (by simp [frameLimit_fcsBad (show 64 ≤ b.length + 4 by omega) hm])]
    exact s.dev.counts_bump p Reg.modulus_portFcsErr
  · rintro ⟨hb, hm, rfl, hc⟩ ht ho
    refine macFrame_completes hp ?_
    rw [Dev.uplinkReceive_good serves (Dev.goodFrame hb hm hc), if_pos ht, if_neg ho]
    exact s.dev.counts_bump p Reg.modulus_macctlOther
  · rintro ⟨hb, hm, rfl, hc⟩ ht ho hq obeys idle
    refine macFrame_completes hp ?_
    rw [Dev.uplinkReceive_good serves (Dev.goodFrame hb hm hc), if_pos ht, if_pos ho,
      Dev.pauseReceived_obeyed idle obeys hq, Dev.port_modPort, if_pos rfl]
    exact ⟨rfl, rfl, (Dev.modPort_rd _ _ _ _ _).trans Dev.pauseHeard_counted,
      fun r i hr => (Dev.modPort_rd _ _ _ _ _).trans (Dev.pauseHeard_kept r i hr)⟩
  · rintro ⟨hb, hm, rfl, hc⟩ ht ho obeys idle
    refine macFrame_completes hp ?_
    rw [Dev.uplinkReceive_good serves (Dev.goodFrame hb hm hc), if_pos ht, if_pos ho,
      Dev.pauseReceived_ignored idle obeys]
    exact ⟨Dev.pauseHeard_idle idle, Dev.pauseHeard_counted, Dev.pauseHeard_kept⟩
  · rintro ⟨hb, hm, rfl, hc⟩ ht
    have good := Dev.uplinkReceive_good (n := max s.now n) (ps := ps) serves (Dev.goodFrame hb hm hc)
    rw [if_neg ht] at good
    refine ⟨fun room => macFrame_completes hp ?_, fun full => macFrame_completes hp ?_⟩
    all_goals rw [good]
    · have stored := s.dev.storeArrived_room (n := max s.now n) (ps := ps) room
      exact ⟨⟨_, stored.store, rfl, rfl, rfl, rfl, rfl⟩, stored.counted, stored.kept⟩
    · exact s.dev.storeArrived_full full
  · rintro hs hb hm rfl hc ho hw
    refine completes_at (f := fun _ d => d.mgmtReceive b true) rfl ?_
    rw [s.dev.mgmtReceive_other phase hs (frameLimit_good (by omega) hm) hc ho hw]
    exact s.dev.counts_bump 0 Reg.modulus_mgmtOther

end Sys2Proof.Machine
end

section
/-!
PROOFS. Frames classified by rule or default: whose turn it is, and what a verdict to drop leaves (R137, R147-R149, R210).
-/
namespace Sys2Proof.Machine
open Sys2Proof

theorem Reg.modulus_lenConflictDrop : Reg.modulus .lenConflictDrop = 2 ^ 64 := by decide +kernel
theorem Reg.modulus_ruleHits : Reg.modulus .ruleHits = 2 ^ 64 := by decide +kernel
theorem Reg.modulus_defaultHitsTree : Reg.modulus .defaultHitsTree = 2 ^ 64 := by decide +kernel
theorem Reg.modulus_defaultHitsUplink : Reg.modulus .defaultHitsUplink = 2 ^ 64 := by decide +kernel

variable (d : Dev)

/-! ### A frame before its search -/

/-- The frame as the active version parses it (R137). -/
def Dev.parsed (d : Dev) (w : Waiting) : Parsed :=
  parseFrame d.active (d.rd (if w.srcKind = 1 then .startTree else .startUplink) 0) w.bytes

/-- The key of an unfragmented frame (R146, R147). -/
def Dev.searchKey (d : Dev) (w : Waiting) : Nat :=
  (d.parsed w).key w.srcKind w.srcNum w.encPort
    (if w.srcKind = 1 then d.rd .termClassSrcMeta w.srcNum else d.rd .portClassSrcMeta w.srcNum) ((d.parsed w).flags false)

/-- The default action of the frame's side (R148). -/
def Dev.defaultAction (d : Dev) (w : Waiting) : Nat := if w.srcKind = 1 then d.active.defTree else d.active.defUplink

/-- The counter of the default of a frame's side (R148). -/
def defaultHits (w : Waiting) : Reg := if w.srcKind = 1 then .defaultHitsTree else .defaultHitsUplink

/-- An action drops its frame, and learns and samples nothing. -/
structure Drops (v : Nat) : Prop where
  verdict : (actionOf v).verdict = 1
  learn : (actionOf v).learn = false
  sample : (actionOf v).sample = false

/-- The frame is parsed, and counted where the walk went deep. -/
def Dev.walked (d : Dev) (w : Waiting) : Dev := d.when (d.parsed w).deep fun d => d.bump .parseDeepSeen 0

theorem Dev.walked_rd (w : Waiting) {r : Reg} (i : Nat) (h : r ≠ .parseDeepSeen) : (d.walked w).rd r i = d.rd r i :=
  d.when_bump_rd _ 0 i h

/-- What no count changes. -/
theorem Dev.walked_keeps {β : Type} (p : Dev → β) (w : Waiting) (h : ∀ d : Dev, p (d.bump .parseDeepSeen 0) = p d) :
    p (d.walked w) = p d := by
  unfold Dev.walked
  cases (d.parsed w).deep
  · rfl
  · exact h d

/-- What no count changes, a frame counted after its walk does not. -/
theorem Dev.walked_bump_keeps {β : Type} (p : Dev → β) (w : Waiting) (r : Reg) (i : Nat)
    (h : ∀ (d : Dev) r i, p (d.bump r i) = p d) : p ((d.walked w).bump r i) = p d :=
  (h _ r i).trans (d.walked_keeps p w fun d => h d _ _)

theorem Dev.walked_active (w : Waiting) : (d.walked w).active = d.active := d.walked_keeps Dev.active w fun _ => rfl

/-- A whole frame has no part in the Fragment Table. -/
theorem Dev.fragment_whole {n : Nat} {x : Parsed} (h : x.frag = false) : d.fragment n x = (x, false, d) :=
  if_pos (by rw [h]; rfl)

/-! ### Verdict drop -/

/-- No frame is sampled whose action does not say so (R297). -/
theorem Dev.sampleSelect_unasked {a : Action} (h : a.sample = false) (n t0 cipher hash version entry : Nat) (w : Waiting) :
    d.sampleSelect n t0 cipher hash version entry w a = (none, d) :=
  if_pos (by rw [h]; rfl)

/-- A frame that is not sampled is dropped without a trace. -/
theorem Dev.applyVerdict_drop {c : Classed} (hv : (actionOf c.action).verdict = 1) (hs : c.sampled = none) (n : Nat)
    (w : Waiting) (x : Parsed) : d.applyVerdict n w c x = (false, d) := by
  unfold Dev.applyVerdict
  dsimp only
  rw [hv, hs]
  rfl

/-- The search of an unfragmented frame gives action `v`, and entry `i` of register `r` counts it (R147, R148). -/
inductive Dev.Selects (d : Dev) (w : Waiting) : Nat → Reg → Nat → Prop
  | rule {i v : Nat} (h : matchRule d.active.rules (d.searchKey w) = some (i, v)) : d.Selects w v .ruleHits i
  | byDefault (h : matchRule d.active.rules (d.searchKey w) = none) : d.Selects w (d.defaultAction w) (defaultHits w) 0

section
variable {d} {n : Nat} {w : Waiting} (hf : (d.parsed w).frag = false)
include hf

theorem Dev.classifyFrame_conflict (hc : (d.parsed w).conflict = true) (ha : d.rd .lenConflictAction 0 = 0) :
    d.classifyFrame n w = (d.walked w).bump .lenConflictDrop 0 := by
  have action : (d.walked w).rd .lenConflictAction 0 = 0 := (d.walked_rd w 0 (by decide)).trans ha
  unfold Dev.classifyFrame
  simp only [beq_iff_eq]
  rw [← Dev.parsed, Dev.fragment_whole _ hf]
  dsimp only
  rw [Dev.when_false, ← Dev.walked, hc, action]
  rfl

theorem Dev.classifyFrame_dropped {v i : Nat} {r : Reg}
    (hc : (d.parsed w).conflict = false ∨ d.rd .lenConflictAction 0 ≠ 0) (hs : d.Selects w v r i) (hv : Drops v) :
    d.classifyFrame n w = (d.walked w).bump r i := by
  have accepted : ¬((d.parsed w).conflict && (d.walked w).rd .lenConflictAction 0 == 0) = true := by
    rw [d.walked_rd w 0 (by decide)]
    simpa [imp_iff_not_or] using hc
  unfold Dev.classifyFrame
  simp only [beq_iff_eq]
  rw [← Dev.parsed, Dev.fragment_whole _ hf]
  dsimp only
  rw [Dev.when_false, ← Dev.walked, if_neg accepted]
  simp only [d.walked_active, d.walked_rd w _ (show Reg.termClassSrcMeta ≠ .parseDeepSeen by decide),
    d.walked_rd w _ (show Reg.portClassSrcMeta ≠ .parseDeepSeen by decide)]
  rw [← Dev.searchKey]
  cases hs with
  | rule h =>
    rw [h]
    dsimp only
    rw [Dev.sampleSelect_unasked _ hv.sample, hv.learn]
    exact congrArg Prod.snd (Dev.applyVerdict_drop _ hv.verdict rfl n w _)
  | byDefault h =>
    rw [h]
    unfold Dev.defaultAction at hv
    unfold defaultHits
    split at hv
    all_goals
      next side =>
      simp only [side, if_true, if_false]
      rw [Dev.sampleSelect_unasked _ hv.sample, hv.learn]
      exact congrArg Prod.snd (Dev.applyVerdict_drop _ hv.verdict rfl n w _)
end

/-! ### Whose turn it is -/

/-- `e` is `d` with frame `w` taken out of the queue it waited in: that of the trees, or the store of port `p`. -/
structure Dev.Takes (d e : Dev) (p : Nat) (w : Waiting) : Prop where
  regs : e.regs = d.regs
  active : e.active = d.active
  buf : e.buf = d.buf
  tree : w.srcKind = 1 → e.treeWaiting = d.treeWaiting.erase w ∧ e.ports = d.ports
  port : w.srcKind = 0 → e.treeWaiting = d.treeWaiting ∧ (e.port p).store = (d.port p).store.tail

/-- Frame `w` is the one that a pipe takes for port `p` at tick `n`. -/
def Dev.inTurn (d : Dev) (n p : Nat) (w : Waiting) : Prop :=
  w.srcKind = 1 ∧ nextTreeFrame n d.treeWaiting = some w ∨
    w.srcKind = 0 ∧ nextTreeFrame n d.treeWaiting = none ∧ d.portInTurn n p = true ∧ (d.port p).store.head? = some w

section
variable {s : State} {n p : Nat} (hp : p < 16)
include hp

theorem classify_waits (ht : nextTreeFrame (max s.now n) (s.dev.settleSends (max s.now n)).treeWaiting = none)
    (hq : (s.dev.settleSends (max s.now n)).portInTurn (max s.now n) p = false) :
    Completes (.classify n p) s n fun e => e = s.dev.settleSends (max s.now n) := by
  refine completes_onElement rfl hp ?_
  dsimp only
  rw [ht]
  dsimp only
  split
  · exact if_neg (by rw [hq]; exact Bool.false_ne_true)
  · rfl

theorem classify_takes {w : Waiting} (ht : (s.dev.settleSends (max s.now n)).inTurn (max s.now n) p w) :
    ∃ e, (s.dev.settleSends (max s.now n)).Takes e p w ∧
      ∀ q : Dev → Prop, q (e.classifyFrame (max s.now n) w) → Completes (.classify n p) s n q := by
  generalize ha : s.dev.settleSends (max s.now n) = a at ht ⊢
  obtain ⟨hk, hn⟩ | ⟨hk, hn, hq, hw⟩ := ht
  · refine ⟨{ a with treeWaiting := a.treeWaiting.erase w }, ⟨rfl, rfl, rfl, fun _ => ⟨rfl, rfl⟩, fun h => ?_⟩, fun q h => ?_⟩
    · exact absurd (hk.symm.trans h) (by decide)
    · refine completes_onElement rfl hp ?_
      dsimp only
      rw [ha, hn]
      exact h
  · obtain ⟨rest, hs⟩ : ∃ rest, (a.port p).store = w :: rest := List.head?_eq_some_iff.1 hw
    refine ⟨({ a with sched := { a.sched with taken := some (max s.now n, p) } } : Dev).modPort p fun x =>
      { x with store := rest }, ⟨rfl, rfl, rfl, fun h => ?_, fun _ => ⟨rfl, ?_⟩⟩, fun q h => ?_⟩
    · exact absurd (hk.symm.trans h) (by decide)
    · rw [Dev.port_modPort, if_pos rfl, hs, List.tail_cons]
    · refine completes_onElement rfl hp ?_
      dsimp only
      rw [ha, hn]
      dsimp only
      rw [hs]
      dsimp only
      rw [if_pos hq]
      exact h

end

/-! ### What a drop leaves -/

section
variable {d} {e : Dev} {p : Nat} {w : Waiting} (h : d.Takes e p w)
include h

theorem Dev.Takes.rd (r : Reg) (i : Nat) : e.rd r i = d.rd r i := d.rd_of_regs h.regs r i

theorem Dev.Takes.parsed : e.parsed w = d.parsed w := by
  rw [Dev.parsed, h.active, h.rd, Dev.parsed]

theorem Dev.Takes.searchKey : e.searchKey w = d.searchKey w := by
  rw [Dev.searchKey, h.parsed, h.rd, h.rd, Dev.searchKey]

theorem Dev.Takes.selects {v i : Nat} {r : Reg} (hs : d.Selects w v r i) : e.Selects w v r i := by
  cases hs with
  | rule hm => exact .rule (by rw [h.active, h.searchKey]; exact hm)
  | byDefault hm =>
    have same : d.defaultAction w = e.defaultAction w := by rw [Dev.defaultAction, Dev.defaultAction, h.active]
    rw [same]
    exact .byDefault (by rw [h.active, h.searchKey]; exact hm)

/-- The frame is gone from where it waited, the buffer is as it was, and entry `i` of register `r` has counted it. -/
structure Dev.Dropped (d e : Dev) (p : Nat) (w : Waiting) (r : Reg) (i : Nat) : Prop where
  tree : w.srcKind = 1 → e.treeWaiting = d.treeWaiting.erase w ∧ e.ports = d.ports
  port : w.srcKind = 0 → e.treeWaiting = d.treeWaiting ∧ (e.port p).store = (d.port p).store.tail
  buf : e.buf = d.buf
  counted : e.rd r i = (d.rd r i + 1) % 2 ^ 64
  kept : ∀ q j, q ≠ .parseDeepSeen → (q, j) ≠ (r, i) → e.rd q j = d.rd q j

theorem Dev.Takes.dropped {r : Reg} {i : Nat} (hm : r.modulus = 2 ^ 64) (hr : r ≠ .parseDeepSeen) :
    d.Dropped ((e.walked w).bump r i) p w r i where
  tree hk := by
    obtain ⟨waiting, ports⟩ := h.tree hk
    exact ⟨(e.walked_bump_keeps Dev.treeWaiting w r i fun d r i => d.wr_treeWaiting r i _).trans waiting,
      (e.walked_bump_keeps Dev.ports w r i fun d r i => d.wr_ports r i _).trans ports⟩
  port hk := by
    obtain ⟨waiting, store⟩ := h.port hk
    have port := e.walked_bump_keeps (Dev.port · p) w r i fun d r i => d.wr_port r i _ p
    exact ⟨(e.walked_bump_keeps Dev.treeWaiting w r i fun d r i => d.wr_treeWaiting r i _).trans waiting,
      (congrArg Port.store port).trans store⟩
  buf := (e.walked_bump_keeps Dev.buf w r i fun d r i => d.wr_buf r i _).trans h.buf
  counted := by rw [Dev.rd_bump_counter _ _ hm, Dev.walked_rd _ _ _ hr, h.rd]
  kept q j hq hj := by
    rw [Dev.rd_bump, if_neg fun x => hj (Prod.ext x.1 x.2), Dev.walked_rd _ _ _ hq, h.rd]

end

/-! ### The command -/

section
variable {s : State} {n p : Nat} {w : Waiting} (hp : p < 16)
  (ht : (s.dev.settleSends (max s.now n)).inTurn (max s.now n) p w)
  (hf : ((s.dev.settleSends (max s.now n)).parsed w).frag = false)
include hp ht hf

theorem classify_conflict (hc : ((s.dev.settleSends (max s.now n)).parsed w).conflict = true)
    (ha : (s.dev.settleSends (max s.now n)).rd .lenConflictAction 0 = 0) :
    Completes (.classify n p) s n fun e => (s.dev.settleSends (max s.now n)).Dropped e p w .lenConflictDrop 0 := by
  obtain ⟨e, takes, classified⟩ := classify_takes hp ht
  rw [← takes.parsed] at hf hc
  rw [← takes.rd] at ha
  refine classified _ ?_
  rw [Dev.classifyFrame_conflict hf hc ha]
  exact takes.dropped Reg.modulus_lenConflictDrop (by decide)

theorem classify_drop {v i : Nat} {r : Reg}
    (hc : ((s.dev.settleSends (max s.now n)).parsed w).conflict = false ∨
      (s.dev.settleSends (max s.now n)).rd .lenConflictAction 0 ≠ 0)
    (hs : (s.dev.settleSends (max s.now n)).Selects w v r i) (hv : Drops v) (hm : r.modulus = 2 ^ 64)
    (hr : r ≠ .parseDeepSeen) :
    Completes (.classify n p) s n fun e => (s.dev.settleSends (max s.now n)).Dropped e p w r i := by
  obtain ⟨e, takes, classified⟩ := classify_takes hp ht
  rw [← takes.parsed] at hf hc
  rw [← takes.rd] at hc
  refine classified _ ?_
  rw [Dev.classifyFrame_dropped hf hc (takes.selects hs) hv]
  exact takes.dropped hm hr

end

theorem defaultHits_counter (w : Waiting) : (defaultHits w).modulus = 2 ^ 64 ∧ defaultHits w ≠ .parseDeepSeen := by
  unfold defaultHits
  split
  · exact ⟨Reg.modulus_defaultHitsTree, by decide⟩
  · exact ⟨Reg.modulus_defaultHitsUplink, by decide⟩

/-- Settles O41: the frame in turn leaves the place where it waited, and what drops it counts it. -/
theorem framesClassified : Obligations.FramesClassified := by
  unfold Obligations.FramesClassified
  intro s n p w hp
  refine ⟨classify_waits hp, fun hf ht => ⟨fun hc ha => ?_, fun i v hc hm ⟨verdict, learn, sample⟩ => ?_,
    fun hc hm ⟨verdict, learn, sample⟩ => ?_⟩⟩
  · refine (classify_conflict hp ht hf hc ha).imp fun e he => ⟨⟨he.tree, he.port⟩, he.buf, he.counted, fun r j hr => ?_⟩
    simp only [List.mem_cons, List.not_mem_nil, or_false, not_or] at hr
    exact he.kept r j hr.1 fun x => hr.2 (Prod.mk.inj x).1
  · refine (classify_drop hp ht hf hc (.rule hm) ⟨verdict, learn, sample⟩ Reg.modulus_ruleHits (by decide)).imp fun e he =>
      ⟨⟨he.tree, he.port⟩, he.buf, he.counted, he.kept⟩
  · obtain ⟨counter, other⟩ := defaultHits_counter w
    refine (classify_drop hp ht hf hc (.byDefault hm) ⟨verdict, learn, sample⟩ counter other).imp fun e he =>
      ⟨⟨he.tree, he.port⟩, he.buf, fun hk => ?_, fun hk => ?_, fun r j hr => ?_⟩
    · have counted := he.counted
      rwa [defaultHits, if_pos hk] at counted
    · have counted := he.counted
      rwa [defaultHits, if_neg (by omega)] at counted
    · simp only [List.mem_cons, List.not_mem_nil, or_false, not_or] at hr
      obtain ⟨deep, tree, uplink⟩ := hr
      refine he.kept r j deep fun x => ?_
      unfold defaultHits at x
      split at x
      · exact tree (Prod.mk.inj x).1
      · exact uplink (Prod.mk.inj x).1

end Sys2Proof.Machine
end

section
/-!
PROOFS. What writes of the tables' objects stage and queue: the default graph, DISCARD, operations on the Address Table and its
flushes (R142, R153, R174).
-/
namespace Sys2Proof.Machine
open Sys2Proof

/-! ### Accepted writes of bytes -/

section
variable {c : Instr} {s : State} {n : Nat} {m : Master} {r : Reg} {i : Nat} {data : Bytes} {p : Dev → Dev → Prop}

/-- A command that is an accepted write is answered, and what the write brings about holds afterwards. -/
theorem Answered.of_writeReg (hc : exec c s = byMaster n m (writeCmd r i data) s)
    (h : s.dev.accepts (max s.now n) m r i data = true) (hl : r ≠ .leaseReg) (hr : r ≠ .roleCmd)
    (hq : ((s.dev.asked (max s.now n) m).writeReg (max s.now n) m r i data).chip = (s.dev.asked (max s.now n) m).chip)
    (hp : p (s.dev.asked (max s.now n) m) ((s.dev.asked (max s.now n) m).writeReg (max s.now n) m r i data))
    (he : ∀ a e, p a e → p a (e.emit (.response m ⟨0, []⟩))) : Answered c s n m p :=
  Answered.of_accepts hc h hl (fun x => hr x.1) ((congrArg Chip.pendingReset hq).trans (Dev.pendingReset_of_accepts h))
    (he _ _ hp)

/-- The same for what the write's action brings about and no durable record undoes. -/
theorem Answered.of_durable_write (act : Dev → Dev) (hc : exec c s = byMaster n m (writeCmd r i data) s)
    (h : s.dev.accepts (max s.now n) m r i data = true) (hl : r ≠ .leaseReg) (hr : r ≠ .roleCmd)
    (ha : ∀ d : Dev, d.applyReg (max s.now n) m r i (d.stored r i (ofBytes data)) data = act d)
    (hq : (act (s.dev.asked (max s.now n) m)).chip = (s.dev.asked (max s.now n) m).chip)
    (hp : p (s.dev.asked (max s.now n) m) (act (s.dev.asked (max s.now n) m)))
    (hd : ∀ a e f, p a e → p a (e.durable (max s.now n) f))
    (he : ∀ a e, p a e → p a (e.emit (.response m ⟨0, []⟩))) : Answered c s n m p := by
  have written := (s.dev.asked (max s.now n) m).writeReg_of_applyReg (n := max s.now n) (m := m) (r := r) (i := i)
    (data := data) (p := fun e => e.chip = (s.dev.asked (max s.now n) m).chip ∧ p (s.dev.asked (max s.now n) m) e)
    (by rw [ha]; exact ⟨hq, hp⟩) fun e f x => ⟨(e.durable_chip _ f).trans x.1, hd _ e f x.2⟩
  exact Answered.of_writeReg hc h hl hr written.1 written.2 he

end

/-! ### Staging (R142, R153) -/

section
variable {s : State} {n : Nat} {m : Master}

/-- A write that changes staging alone. -/
structure Dev.Staged (a e : Dev) (x : Tables) : Prop where
  staging : e.staging = x
  active : e.active = a.active
  kept : ∀ r i, r ≠ .dseqSent → e.rd r i = a.rd r i

theorem Dev.Staged.durable {a e : Dev} {x : Tables} (h : a.Staged e x) (n : Nat) (f : Nat → MirrorRecord) :
    a.Staged (e.durable n f) x :=
  ⟨(e.durable_staging n f).trans h.staging, (e.durable_active n f).trans h.active,
    fun r i hr => (e.durable_rd n f i hr).trans (h.kept r i hr)⟩

theorem graphDefault_answered (h : s.dev.acceptsNum (max s.now n) m .graphDefault 0 1 = true) :
    Answered (.graphDefault n m) s n m fun a e =>
      a.Staged e { a.staging with nodes := defaultNodes, transitions := defaultTransitions } :=
  Answered.of_durable_action Dev.stageGraph rfl h nofun nofun (fun d => d.stored_flag rfl (by decide)) (fun _ => rfl) rfl
    ⟨rfl, rfl, fun _ _ _ => rfl⟩ (fun _ _ f he => he.durable _ f) fun _ _ he => ⟨he.staging, he.active, he.kept⟩

theorem discard_answered (h : s.dev.acceptsNum (max s.now n) m .discard 0 1 = true) :
    Answered (.discard n m) s n m fun a e => a.Staged e a.active :=
  Answered.of_durable_action Dev.discardStaging rfl h nofun nofun (fun d => d.stored_flag rfl (by decide)) (fun _ => rfl) rfl
    ⟨rfl, rfl, fun _ _ _ => rfl⟩ (fun _ _ f he => he.durable _ f) fun _ _ he => ⟨he.staging, he.active, he.kept⟩

/-! ### The Address Table (R174) -/

/-- The code and the record of an operation on the Address Table. -/
theorem addrOp_fields {op rec : Nat} (ho : op < 256) (hr : rec < 2 ^ 128) :
    byteAt (op :: toBytes 16 rec) 0 = op ∧ numAt (op :: toBytes 16 rec) 1 16 = rec := by
  have record := numAt_append [op] [] 16 rec
  rw [List.append_nil, Nat.mod_eq_of_lt (by simpa using hr)] at record
  exact ⟨Nat.mod_eq_of_lt ho, record⟩

/-- An operation joins the Learning Engine's queue. -/
def Dev.queueAddrOp (d : Dev) (op rec : Nat) : Dev := { d with addr := { d.addr with queue := d.addr.queue ++ [.op op rec] } }

/-- The mirror record of an operation is made where it is carried out (R267). -/
theorem Dev.writeReg_addrOp (d : Dev) (data : Bytes) :
    d.writeReg n m .addrOp 0 data = d.queueAddrOp (byteAt data 0) (numAt data 1 16) := by
  have aside : ((Reg.row .addrOp).flags.mirrored && !mirroredAside .addrOp) = false := by decide +kernel
  unfold Dev.writeReg
  rw [aside]
  exact if_neg Bool.false_ne_true

theorem addrOp_answered {c : Instr} {op rec : Nat} (ho : op < 256) (hr : rec < 2 ^ 128)
    (hc : exec c s = byMaster n m (writeCmd .addrOp 0 (op :: toBytes 16 rec)) s)
    (h : s.dev.accepts (max s.now n) m .addrOp 0 (op :: toBytes 16 rec) = true) :
    Answered c s n m fun a e => e.addr = { a.addr with queue := a.addr.queue ++ [.op op rec] } ∧ e.regs = a.regs := by
  obtain ⟨code, record⟩ := addrOp_fields ho hr
  refine Answered.of_writeReg hc h nofun nofun ?_ ?_ fun _ _ he => he
  all_goals rw [Dev.writeReg_addrOp, code, record]
  · rfl
  · exact ⟨rfl, rfl⟩

theorem addrFlush_answered {data : Bytes} (h : s.dev.accepts (max s.now n) m .addrFlush 0 data = true) :
    Answered (.addrFlush n m data) s n m fun a e =>
      e.addr = { a.addr with flushes := a.addr.flushes ++
        [{ kind := byteAt data 0, domain := numAt data 1 2 % 4096, dest := numAt data 4 4, start := max s.now n }] } :=
  Answered.of_durable_write (Dev.startAddrFlush · (max s.now n) data) rfl h nofun nofun (fun _ => rfl) rfl rfl
    (fun _ e f he => (e.durable_addr _ f).trans he) fun _ _ he => he

end

end Sys2Proof.Machine
end

section
/-!
PROOFS. The free store rebuilt, the buckets of a group refilled, the lanes of a new port width and the peaks reset (R186, R196,
R197, R214, R248); and with them all writes of tables and buffer.
-/
namespace Sys2Proof.Machine
open Sys2Proof

variable (d : Dev)

theorem Reg.modulus_freeMode : Reg.modulus .freeMode = 256 := by decide +kernel
theorem Reg.modulus_lagMembers : Reg.modulus .lagMembers = 2 ^ 32 := by decide +kernel
theorem Reg.modulus_portWidth : Reg.modulus .portWidth = 256 := by decide +kernel

/-! ### The free store (R186) -/

theorem Dev.ring_setRing (b x : Nat) (r : Ring) : (d.setRing b r).ring x = if x = b then r else d.ring x := by
  split
  · next h => subst h; exact Tab.get_set_same ..
  · next h => exact Tab.get_set_ne _ _ _ _ h

/-- The ring of bank `b` where the cells `used` are in use and none has come back. -/
def bankRing (used : List Nat) (b : Nat) : Ring :=
  { skip := used.filterMap fun c => if c % 32 = b then some (c / 32) else none }

/-- The rings of all banks set one after the other. -/
theorem Dev.each_setRing (g : Nat → Ring) {b : Nat} (hb : b < 32) :
    (d.each (List.range 32) fun d k => d.setRing k (g k)).ring b = g b := by
  obtain ⟨a, -, ha⟩ := d.each_at (fun e => e.ring b) (f := fun d k => d.setRing k (g k)) List.nodup_range
    (List.mem_range.2 hb) fun d k _ hk => (d.ring_setRing k b _).trans (if_neg hk.symm)
  exact ha.trans ((a.ring_setRing b b _).trans (if_pos rfl))

/-- The free store is rebuilt in mode `v` with the cells of `used` in use. -/
structure Dev.StoreRebuilt (d e : Dev) (v : Nat) : Prop where
  mode : e.rd .freeMode 0 = v
  bitmap : v ≠ 0 → e.buf.taken = d.usedCells
  rings : v = 0 → e.buf.taken = [] ∧ ∀ b < 32, e.ring b = bankRing d.usedCells b
  chains : e.buf.chains = d.buf.chains
  kept : ∀ r i, r ≠ .dseqSent → (r, i) ≠ (.freeMode, 0) → e.rd r i = d.rd r i

theorem Dev.rebuildStore_chip (v : Nat) : (d.rebuildStore v).chip = d.chip := by
  unfold Dev.rebuildStore
  dsimp only
  split
  · exact Dev.each_keeps _ Dev.chip fun d k _ => rfl
  · rfl

theorem Dev.rebuildStore_rd (v : Nat) (r : Reg) (i : Nat) : (d.rebuildStore v).rd r i = (d.wr .freeMode 0 v).rd r i := by
  unfold Dev.rebuildStore
  dsimp only
  split
  · exact Dev.each_keeps _ (fun e => e.rd r i) fun d k _ => rfl
  · rfl

theorem Dev.rebuildStore_rebuilt {v : Nat} (hv : v < 256) : d.StoreRebuilt (d.rebuildStore v) v where
  mode := by rw [Dev.rebuildStore_rd, Dev.rd_wr_same, Reg.modulus_freeMode, Nat.mod_eq_of_lt hv]
  bitmap h := by
    unfold Dev.rebuildStore
    dsimp only
    rw [if_neg h]
  rings h := by
    unfold Dev.rebuildStore
    dsimp only
    rw [if_pos h]
    exact ⟨Dev.each_keeps _ (fun e => e.buf.taken) fun d k _ => rfl, fun b hb => Dev.each_setRing _ (bankRing d.usedCells) hb⟩
  chains := by
    unfold Dev.rebuildStore
    dsimp only
    split
    · exact Dev.each_keeps _ (fun e => e.buf.chains) fun d k _ => rfl
    · rfl
  kept r i _ hi := by
    rw [Dev.rebuildStore_rd, Dev.rd_wr, if_neg fun h => hi (Prod.ext h.1 h.2)]

theorem Dev.StoreRebuilt.durable {d e : Dev} {v : Nat} (h : d.StoreRebuilt e v) (n : Nat) (f : Nat → MirrorRecord) :
    d.StoreRebuilt (e.durable n f) v := by
  have ring : ∀ b, (e.durable n f).ring b = e.ring b := fun b => by rw [Dev.ring, Dev.durable_buf, Dev.ring]
  refine ⟨(e.durable_rd n f 0 (by decide)).trans h.mode, ?_,
    fun hv => ⟨?_, fun b hb => (ring b).trans ((h.rings hv).2 b hb)⟩, ?_,
    fun r i hr hi => (e.durable_rd n f i hr).trans (h.kept r i hr hi)⟩
  all_goals rw [Dev.durable_buf]
  · exact h.bitmap
  · exact (h.rings hv).1
  · exact h.chains

/-! ### Groups (R196, R197) -/

theorem Dev.forgetBuckets_chip (l : List Nat) : (d.forgetBuckets l).chip = d.chip :=
  d.each_keeps Dev.chip fun _ _ _ => rfl

theorem Dev.forgetBuckets_rd (l : List Nat) (r : Reg) (i : Nat) : (d.forgetBuckets l).rd r i = d.rd r i :=
  d.each_keeps (fun e => e.rd r i) fun _ _ _ => rfl

theorem Dev.refillGroup_chip (g : Nat) : (d.refillGroup g).chip = d.chip := by
  unfold Dev.refillGroup
  exact (Dev.each_keeps _ Dev.chip fun d _ _ => d.setWin_chip _ _ _).trans (d.forgetBuckets_chip _)

theorem Dev.refillGroup_rd (g : Nat) (r : Reg) (i : Nat) : (d.refillGroup g).rd r i = d.rd r i := by
  unfold Dev.refillGroup
  exact (Dev.each_keeps _ (fun e => e.rd r i) fun d _ _ => d.setWin_rd _ _ _ r i).trans (d.forgetBuckets_rd _ r i)

theorem Dev.groupMembers_congr {d e : Dev} {g : Nat} (hw : e.rd .portWidth 0 = d.rd .portWidth 0)
    (hm : e.rd .lagMembers g = d.rd .lagMembers g) : e.groupMembers g = d.groupMembers g := by
  rw [Dev.groupMembers, Dev.portCount, hw, hm, Dev.groupMembers, Dev.portCount]

/-- Bucket `b` of a group goes to its (b mod m)-th member, and to port 0 where it has none. -/
def bucketMember (ms : List Nat) (b : Nat) : Nat := if ms = [] then 0 else ms.getD (b % ms.length) 0

theorem Dev.refillGroup_bucket (g : Nat) {b : Nat} (hb : b < 256) :
    (d.refillGroup g).win 0x3701 (g * 256 + b) = bucketMember (d.groupMembers g) b := by
  unfold Dev.refillGroup
  dsimp only
  generalize d.forgetBuckets ((List.range 256).map (g * 256 + ·)) = e
  generalize d.groupMembers g = ms
  obtain ⟨a, -, ha⟩ := e.each_at (fun e => e.win 0x3701 (g * 256 + b))
    (f := fun d b => d.setWin 0x3701 (g * 256 + b) (if ms.isEmpty then 0 else ms.getD (b % ms.length) 0))
    List.nodup_range (List.mem_range.2 hb) fun d k _ hk =>
      (d.win_setWin _ _ _ (by decide) (by decide)).trans (if_neg fun h => hk (Nat.add_left_cancel h.2).symm)
  rw [ha, Dev.win_setWin _ _ _ _ (by decide) (by decide), if_pos ⟨rfl, rfl⟩, bucketMember]
  simp only [List.isEmpty_iff]

/-- A group has new members. -/
structure Dev.MembersSet (d e : Dev) (g v : Nat) : Prop where
  mask : e.rd .lagMembers g = v % 65536
  buckets : ∀ b < 256, e.win 0x3701 (g * 256 + b) = bucketMember (e.groupMembers g) b
  kept : ∀ r i, r ≠ .dseqSent → (r, i) ≠ (.lagMembers, g) → e.rd r i = d.rd r i

theorem Dev.setMembers_set (g v : Nat) : d.MembersSet (d.setMembers g v) g v where
  mask := by
    have fits : v % 65536 < 2 ^ 32 := by omega
    rw [Dev.setMembers, Dev.refillGroup_rd, Dev.rd_wr_same, Reg.modulus_lagMembers, Nat.mod_eq_of_lt fits]
  buckets b hb := by
    have members : (d.setMembers g v).groupMembers g = (d.wr .lagMembers g (v % 65536)).groupMembers g :=
      Dev.groupMembers_congr (Dev.refillGroup_rd _ _ _ _) (Dev.refillGroup_rd _ _ _ _)
    rw [members, Dev.setMembers, Dev.refillGroup_bucket _ g hb]
  kept r i _ hi := by
    rw [Dev.setMembers, Dev.refillGroup_rd, Dev.rd_wr, if_neg fun h => hi (Prod.ext h.1 h.2)]

theorem Dev.MembersSet.durable {d e : Dev} {g v : Nat} (h : d.MembersSet e g v) (n : Nat) (f : Nat → MirrorRecord) :
    d.MembersSet (e.durable n f) g v where
  mask := (e.durable_rd n f g (by decide)).trans h.mask
  buckets b hb := by
    rw [Dev.groupMembers_congr (e.durable_rd n f 0 (by decide)) (e.durable_rd n f g (by decide)), Dev.win, Dev.durable_wins]
    exact h.buckets b hb
  kept r i hr hi := (e.durable_rd n f i hr).trans (h.kept r i hr hi)

/-! ### A new port width (R195, R248) -/

/-- A lane that enters another stage than 3 keeps its peaking (R245, R249). -/
theorem Dev.setStage_unlocked (n l : Nat) {st : Nat} (h : st ≠ 3) : d.setStage n st l =
    (d.wr .laneState l st).modLane l fun x => { x with stageAt := n, done := false, idle := false, exitAt := none } := by
  unfold Dev.setStage
  rw [if_neg h]

/-- The width is as it was, and each lane keeps its stage or begins in stage 0 or 1. -/
structure Dev.Restarts (d e : Dev) : Prop where
  chip : e.chip = d.chip
  width : e.rd .portWidth 0 = d.rd .portWidth 0
  lanes : ∀ l, e.rd .laneState l ≤ 1 ∨ e.rd .laneState l = d.rd .laneState l

namespace Dev.Restarts

variable {d} {e f : Dev}

theorem of_rd (hc : e.chip = d.chip) (hr : ∀ r i, e.rd r i = d.rd r i) : d.Restarts e :=
  ⟨hc, hr _ _, fun _ => .inr (hr _ _)⟩

theorem refl (d : Dev) : d.Restarts d := of_rd rfl fun _ _ => rfl

theorem trans (h : d.Restarts e) (k : e.Restarts f) : d.Restarts f where
  chip := k.chip.trans h.chip
  width := k.width.trans h.width
  lanes l := (k.lanes l).elim .inl fun x => x ▸ h.lanes l

theorem each {α : Type} {l : List α} {g : Dev → α → Dev} (h : ∀ d : Dev, ∀ x ∈ l, d.Restarts (g d x)) :
    d.Restarts (d.each l g) :=
  Dev.each_holds (I := d.Restarts) (refl d) fun e he x hx => he.trans (h e x hx)

/-- A lane enters stage 0 or 1. -/
theorem setStage (d : Dev) (n l : Nat) {st : Nat} (h : st ≤ 1) : d.Restarts (d.setStage n st l) := by
  rw [Dev.setStage_unlocked d n l (by omega)]
  refine ⟨rfl, d.rd_wr_other _ _ _ (by decide), fun k => ?_⟩
  rw [Dev.modLane_rd, Dev.rd_wr]
  split
  · exact .inl ((Nat.mod_le _ _).trans h)
  · exact .inr rfl

theorem startLane (d : Dev) (n l : Nat) : d.Restarts (d.startLane n l) := setStage d n l (by split <;> decide)

theorem modPort (d : Dev) (p : Nat) (g : Port → Port) : d.Restarts (d.modPort p g) := of_rd rfl fun _ _ => rfl

theorem negotiate (d : Dev) (n p : Nat) : d.Restarts (d.negotiate n p) := by
  unfold Dev.negotiate
  split
  · exact of_rd rfl fun _ _ => rfl
  · exact refl d

theorem restartPort (d : Dev) (n p : Nat) : d.Restarts (d.restartPort n p) := by
  unfold Dev.restartPort
  split
  · exact refl d
  · have cleared : d.Restarts (d.wr .partnerFinuno p 0) :=
      ⟨rfl, d.rd_wr_other _ _ _ (by decide), fun l => .inr (d.rd_wr_other _ _ _ (by decide))⟩
    refine cleared.trans ((each fun d l _ => ?_).trans ((modPort _ p _).trans (negotiate _ n p)))
    split
    · exact startLane d n l
    · exact setStage d n l (by decide)

theorem dropLevel (d : Dev) (k : Nat) : d.Restarts (d.dropLevel k) :=
  of_rd (congrArg Dev.chip (d.dropLevel_butFaults k) :) fun _ i => d.dropLevel_rd k i

theorem refillGroup (d : Dev) (g : Nat) : d.Restarts (d.refillGroup g) := of_rd (d.refillGroup_chip g) (d.refillGroup_rd g)

end Dev.Restarts

theorem Dev.setStage_zero (n l : Nat) : (d.setStage n 0 l).rd .laneState l = 0 := by
  rw [Dev.setStage_unlocked d n l (by decide), Dev.modLane_rd, Dev.rd_wr_same, Nat.zero_mod]

/-- Every uplink lane goes to stage 0. -/
theorem Dev.each_setStage_zero (n : Nat) {l : Nat} (hl : l < 16) :
    (d.each (List.range 16) fun d l => d.setStage n 0 l).rd .laneState l = 0 := by
  obtain ⟨a, -, ha⟩ := d.each_at (fun e => e.rd .laneState l) (f := fun d l => d.setStage n 0 l) List.nodup_range
    (List.mem_range.2 hl) fun d k _ hk => by
      rw [Dev.setStage_unlocked d n k (by decide), Dev.modLane_rd, Dev.rd_wr_elsewhere _ _ hk.symm]
  exact ha.trans (a.setStage_zero n l)

theorem Dev.unbuffered_endPortHold (n p : Nat) : (d.endPortHold n p).unbuffered = d.unbuffered := by
  unfold Dev.endPortHold
  rw [Dev.unbuffered_flushPort, Dev.unbuffered_modPort, Dev.unbuffered_wr _ _ _ (by decide)]

/-- The width is set, and every uplink lane has begun again. -/
structure Dev.WidthSet (d e : Dev) (v : Nat) : Prop where
  chip : e.chip = d.chip
  width : e.rd .portWidth 0 = v
  lanes : ∀ l < 16, e.rd .laneState l ≤ 1

theorem Dev.applyPortWidth_set (n : Nat) {v : Nat} (hv : v < 256) (h : d.rd .portWidth 0 ≠ v) :
    d.WidthSet (d.applyPortWidth n v) v := by
  unfold Dev.applyPortWidth
  rw [if_neg h]
  dsimp only
  have ended : (d.each allPorts fun d p => if (d.port p).hold.isSome then d.endPortHold n p else d).unbuffered = d.unbuffered :=
    d.each_keeps Dev.unbuffered fun d p _ => d.unbuffered_ite (d.unbuffered_endPortHold n p) rfl
  generalize (d.each allPorts fun d p => if (d.port p).hold.isSome then d.endPortHold n p else d) = a at ended
  have refilled : (a.wr .portWidth 0 v).Restarts ((a.wr .portWidth 0 v).each (List.range 8) fun d g => d.refillGroup g) :=
    .each fun d g _ => .refillGroup d g
  generalize ((a.wr .portWidth 0 v).each (List.range 8) fun d g => d.refillGroup g) = b at refilled
  have begun := refilled.trans (.each (l := List.range 16) fun d l _ => .setStage d n l (Nat.zero_le 1))
  have lanes : ∀ l < 16, (b.each (List.range 16) fun d l => d.setStage n 0 l).rd .laneState l = 0 :=
    fun l hl => b.each_setStage_zero n hl
  generalize (b.each (List.range 16) fun d l => d.setStage n 0 l) = c at begun lanes
  have restarted : c.Restarts ((c.each (List.range c.portCount) fun d p => d.restartPort n p).each allPorts fun d p =>
      if d.portCount ≤ p then d.dropLevel (304 + 4 * p) else d) := by
    refine .trans (.each fun d p _ => .restartPort d n p) (.each fun d p _ => ?_)
    split
    · exact .dropLevel d _
    · exact .refl d
  refine ⟨?_, ?_, fun l hl => ?_⟩
  · rw [restarted.chip, begun.chip, Dev.wr_chip, Dev.chip_of_unbuffered ended]
  · rw [restarted.width, begun.width, Dev.rd_wr_same, Reg.modulus_portWidth, Nat.mod_eq_of_lt hv]
  · exact (restarted.lanes l).elim id fun x => (x.trans (lanes l hl)).le.trans (Nat.zero_le 1)

theorem Dev.WidthSet.durable {d e : Dev} {v : Nat} (h : d.WidthSet e v) (n : Nat) (f : Nat → MirrorRecord) :
    d.WidthSet (e.durable n f) v where
  chip := (e.durable_chip n f).trans h.chip
  width := (e.durable_rd n f 0 (by decide)).trans h.width
  lanes l hl := (e.durable_rd n f l (by decide)).trans_le (h.lanes l hl)

/-! ### Peaks (R214) -/

theorem Tab.get_of_not_mem_keys {α : Type} {x : α} {t : Tab α} {k : Nat} (h : k ∉ Tab.keys t) : Tab.get x t k = x := by
  have none : Tab.find t k = none := by
    induction t with
    | nil => rfl
    | cons p r ih =>
      obtain ⟨other, rest⟩ := not_or.1 fun e => h (List.mem_cons.2 e)
      exact (if_neg (Ne.symm other)).trans (ih rest)
  rw [Tab.get, none, Option.getD_none]

/-- A queue's peak restarts at its depth, its greatest delay at that of the frame sent at this tick. -/
def QStat.restart (x : QStat) (n depth : Nat) : QStat :=
  { x with peak := depth, delayMax := match x.lastTick with
    | some (t, m) => if t = n then m else 0
    | none => 0 }

theorem Dev.peakReset_eq (n : Nat) : d.peakReset n =
    d.each ((Tab.keys d.sched.stats ++ Tab.keys d.buf.queues).dedup) fun d q =>
      d.modStat q fun x => x.restart n (d.depth q) := rfl

theorem Dev.stat_modStat (q x : Nat) (f : QStat → QStat) :
    (d.modStat q f).stat x = if x = q then f (d.stat q) else d.stat x := by
  split
  · next h => subst h; exact Tab.get_set_same ..
  · next h => exact Tab.get_set_ne _ _ _ _ h

/-- A queue without statistics and frames reads as one whose peak has restarted. -/
theorem Dev.restart_unlisted {n q : Nat} (h : q ∉ Tab.keys d.sched.stats ++ Tab.keys d.buf.queues) :
    (d.stat q).restart n (d.depth q) = d.stat q := by
  obtain ⟨stats, queues⟩ := not_or.1 fun x => h (List.mem_append.2 x)
  rw [Dev.depth, Dev.queue, Tab.get_of_not_mem_keys queues, Dev.stat, Tab.get_of_not_mem_keys stats]
  rfl

theorem Dev.depth_congr {d e : Dev} (h : e.buf = d.buf) {q : Nat} : e.depth q = d.depth q := by
  have cells : e.descCells = d.descCells := by
    funext k
    simp only [Dev.descCells, Dev.desc, Dev.chainOf, h]
  rw [Dev.depth, Dev.queue, cells, h, Dev.depth, Dev.queue]

theorem Dev.peakReset_stat (n q : Nat) : (d.peakReset n).stat q = (d.stat q).restart n (d.depth q) := by
  rw [Dev.peakReset_eq]
  have others : ∀ e : Dev, ∀ k, k ≠ q → (e.modStat k fun x => x.restart n (e.depth k)).stat q = e.stat q :=
    fun e k hk => (e.stat_modStat k q _).trans (if_neg hk.symm)
  by_cases hq : q ∈ (Tab.keys d.sched.stats ++ Tab.keys d.buf.queues).dedup
  · obtain ⟨a, ha, hs, hb⟩ := Dev.each_at_of (fun e => e.buf = d.buf) (fun e => e.stat q) rfl (List.nodup_dedup _) hq
      (f := fun d q => d.modStat q fun x => x.restart n (d.depth q)) (fun e he _ _ => he) fun e _ k _ => others e k
    rw [hb, Dev.stat_modStat, if_pos rfl, hs, Dev.depth_congr ha]
  · rw [d.each_keeps (fun e => e.stat q) fun e k hk => others e k fun x => hq (x ▸ hk),
      d.restart_unlisted fun h => hq (List.mem_dedup.2 h)]

theorem Dev.peakReset_chip (n : Nat) : (d.peakReset n).chip = d.chip := d.each_keeps Dev.chip fun _ _ _ => rfl

/-- Every queue's statistics have restarted at tick `n`. -/
structure Dev.PeaksReset (d e : Dev) (n : Nat) : Prop where
  stats : ∀ q, e.stat q = (d.stat q).restart n (d.depth q)
  buf : e.buf = d.buf
  kept : ∀ r i, r ≠ .dseqSent → e.rd r i = d.rd r i

theorem Dev.peakReset_reset (n : Nat) : d.PeaksReset (d.peakReset n) n where
  stats := d.peakReset_stat n
  buf := d.each_keeps Dev.buf fun _ _ _ => rfl
  kept r i _ := d.each_keeps (fun e => e.rd r i) fun _ _ _ => rfl

theorem Dev.PeaksReset.durable {d e : Dev} {k : Nat} (h : d.PeaksReset e k) (n : Nat) (f : Nat → MirrorRecord) :
    d.PeaksReset (e.durable n f) k where
  stats q := by rw [Dev.stat, Dev.durable_sched]; exact h.stats q
  buf := (e.durable_buf n f).trans h.buf
  kept r i hr := (e.durable_rd n f i hr).trans (h.kept r i hr)

/-! ### The writes -/

/-- A number that is no flag is kept as it is written. -/
theorem Dev.stored_number {r : Reg} {i v : Nat} (h : d.stored r i v = if r.row.ty = .bool then v % 2 else v)
    (ht : r.row.ty ≠ .bool) : d.stored r i v = v :=
  h.trans (if_neg ht)

theorem Dev.fits_of_acceptsNum {d : Dev} {n : Nat} {m : Master} {r : Reg} {i v : Nat}
    (h : d.acceptsNum n m r i v = true) : v < 256 ^ r.size :=
  of_decide_eq_true (Bool.and_eq_true_iff.1 h).1

theorem Dev.lt_of_acceptsNum {d : Dev} {n : Nat} {m : Master} {r : Reg} {i v : Nat}
    (h : d.acceptsNum n m r i v = true) (hs : r.size = 1) : v < 256 := by
  simpa [hs] using Dev.fits_of_acceptsNum h

/-- FREE_MODE written: only a new value changes anything. -/
def Dev.setFreeMode (d : Dev) (v : Nat) : Dev := if d.rd .freeMode 0 = v then d else d.rebuildStore v

section
variable {s : State} {n : Nat} {m : Master} {v : Nat}

theorem freeModeWrite_answered (h : s.dev.acceptsNum (max s.now n) m .freeMode 0 v = true)
    (hv : (s.dev.asked (max s.now n) m).rd .freeMode 0 ≠ v) :
    Answered (.freeModeWrite n m v) s n m fun a e => a.StoreRebuilt e v := by
  have fits := Dev.lt_of_acceptsNum h (by decide +kernel)
  have set : (s.dev.asked (max s.now n) m).setFreeMode v = (s.dev.asked (max s.now n) m).rebuildStore v := if_neg hv
  refine Answered.of_durable_action (Dev.setFreeMode · v) rfl h nofun nofun
    (fun d => d.stored_number rfl (by decide +kernel)) (fun _ => rfl) ?_ ?_ (fun _ _ f he => he.durable _ f)
    fun _ _ he => ⟨he.mode, he.bitmap, he.rings, he.chains, he.kept⟩
  all_goals rw [set]
  · exact Dev.rebuildStore_chip _ v
  · exact Dev.rebuildStore_rebuilt _ fits

theorem membersWrite_answered {g : Nat} (h : s.dev.acceptsNum (max s.now n) m .lagMembers g v = true) :
    Answered (.membersWrite n m g v) s n m fun a e => a.MembersSet e g (v % 65536) := by
  refine Answered.of_durable_write (Dev.setMembers · g (v % 65536)) ?_ (Dev.accepts_of_acceptsNum h) nofun nofun
    (fun d => ?_) (Dev.refillGroup_chip _ g) (Dev.setMembers_set _ g _) (fun _ _ f he => he.durable _ f)
    fun _ _ he => ⟨he.mask, he.buckets, he.kept⟩
  · rw [← writeNum_fits (Dev.fits_of_acceptsNum h)]
    rfl
  · rw [Dev.ofBytes_of_acceptsNum h]
    rfl

theorem portWidthWrite_answered (h : s.dev.acceptsNum (max s.now n) m .portWidth 0 v = true)
    (hv : (s.dev.asked (max s.now n) m).rd .portWidth 0 ≠ v) :
    Answered (.portWidthWrite n m v) s n m fun a e => a.WidthSet e v := by
  have fits := Dev.lt_of_acceptsNum h (by decide +kernel)
  have set := Dev.applyPortWidth_set _ (max s.now n) fits hv
  exact Answered.of_durable_action (Dev.applyPortWidth · (max s.now n) v) rfl h nofun nofun
    (fun d => d.stored_number rfl (by decide +kernel)) (fun _ => rfl) set.chip set (fun _ _ f he => he.durable _ f)
    fun _ _ he => ⟨he.chip, he.width, he.lanes⟩

theorem peakReset_answered (h : s.dev.acceptsNum (max s.now n) m .peakReset 0 1 = true) :
    Answered (.peakReset n m) s n m fun a e => a.PeaksReset e (max s.now n) :=
  Answered.of_durable_action (Dev.peakReset · (max s.now n)) rfl h nofun nofun (fun d => d.stored_flag rfl (by decide))
    (fun _ => rfl) (Dev.peakReset_chip _ _) (Dev.peakReset_reset _ _) (fun _ _ f he => he.durable _ f)
    fun _ _ he => ⟨he.stats, he.buf, he.kept⟩

end

/-- Settles O26: each write's action, which no durable record undoes. -/
theorem tablesAndBufferWritten : Obligations.TablesAndBufferWritten := by
  unfold Obligations.TablesAndBufferWritten
  refine ⟨fun s n m => ⟨fun h => ?_, fun h => ?_, fun rec hr => ⟨?_, ?_, ?_⟩, fun data => addrFlush_answered⟩,
    fun s n m v => ⟨fun h hv => ?_, fun g h => ?_, fun h hv => ?_, fun h => ?_⟩⟩
  · exact (graphDefault_answered h).imp fun a e he => ⟨he.staging, he.active, he.kept⟩
  · exact (discard_answered h).imp fun a e he => ⟨he.staging, he.active, he.kept⟩
  · exact addrOp_answered (by decide) hr rfl
  · exact addrOp_answered (by decide) hr rfl
  · exact addrOp_answered (by decide) hr rfl
  · exact (freeModeWrite_answered h hv).imp fun a e he => ⟨he.mode, he.bitmap, he.rings, he.chains, he.kept⟩
  · exact (membersWrite_answered h).imp fun a e he => ⟨he.mask.trans (Nat.mod_mod _ _), he.buckets, he.kept⟩
  · exact (portWidthWrite_answered h hv).imp fun a e he => ⟨he.width, he.lanes⟩
  · refine (peakReset_answered h).imp fun a e he => ⟨fun q => ?_, he.buf, he.kept⟩
    rw [he.stats q]
    exact ⟨rfl, rfl, rfl⟩

end Sys2Proof.Machine
end

section
/-!
PROOFS. What a served master's command does beyond the writes of registers: NOP and CLOSE, window locks, the control lease, and
the clearing of a sticky source (R160, R289, R313, R359); and the expiries of locks and lease.
-/
namespace Sys2Proof.Machine
open Sys2Proof

/-! ### A command of a master that the dictionary serves -/

section
variable {c : Instr} {s : State} {n : Nat} {m : Master} {x : Cmd} {e : Dev}

theorem Dev.idle_of_hears {d : Dev} (h : d.hears n m = true) : (d.asked n m).mgmt.longOp = none := by
  simp only [Dev.hears, Bool.and_eq_true, Option.isNone_iff_eq_none] at h
  exact h.1.2

theorem masterExists_of_hears {d : Dev} (h : d.hears n m = true) : masterExists m = true := by
  simp only [Dev.hears, Bool.and_eq_true] at h
  exact h.1.1.1.1

/-- The command is its transaction on the device as the request finds it, and the response; no reset waits for the response. -/
theorem Completes.of_transact {r : Resp} {p : Dev → Prop} (hc : exec c s = byMaster n m x s)
    (h : s.dev.hears (max s.now n) m = true)
    (ht : (s.dev.asked (max s.now n) m).transact (max s.now n) m (soleSpace m) x = (some r, e))
    (hq : e.chip.pendingReset = (s.dev.asked (max s.now n) m).chip.pendingReset) (hp : p (e.emit (.response m r))) :
    Completes c s n p := by
  have named := masterExists_of_hears h
  simp only [Dev.hears, Bool.and_eq_true, beq_iff_eq, Option.isNone_iff_eq_none] at h
  obtain ⟨⟨⟨⟨-, up⟩, masterOpen⟩, -⟩, noReset⟩ := h
  have served : s.dev.serveMaster (max s.now n) m x = e.emit (.response m r) := by
    rw [Dev.asked] at ht
    simp only [Dev.serveMaster, up, ne_eq, not_true, if_false, masterOpen, Bool.not_true, Bool.false_and,
      Bool.false_eq_true, ht]
    exact Dev.startPending_none _ (hq.trans noReset)
  exact ⟨_, hc.trans (if_pos named), rfl, rfl, (congrArg p served).mpr hp⟩

/-- The same of a transaction that is answered OK. -/
theorem Answered.of_transact {p : Dev → Dev → Prop} (hc : exec c s = byMaster n m x s)
    (h : s.dev.hears (max s.now n) m = true)
    (ht : (s.dev.asked (max s.now n) m).transact (max s.now n) m (soleSpace m) x = (some ⟨0, []⟩, e))
    (hq : e.chip.pendingReset = (s.dev.asked (max s.now n) m).chip.pendingReset)
    (hp : p (s.dev.asked (max s.now n) m) (e.emit (.response m ⟨0, []⟩))) : Answered c s n m p :=
  Completes.of_transact hc h ht hq ⟨by simp, hp⟩

end

variable {d : Dev} {n : Nat} {m : Master}

section
variable {c : Cmd} (idle : d.mgmt.longOp = none) (space : Nat)
include idle

/-- With no long operation running no transaction is answered BUSY (R314). -/
theorem Dev.busy_of_idle : d.busy n space = none := by
  rw [Dev.busy, idle]
  rfl

theorem Dev.transact_write (hc : c.op = 2) : d.transact n m space c = d.doWrite n m c := by
  simp only [Dev.transact, Dev.busy_of_idle idle, hc]

theorem Dev.transact_bulkWrite (hc : c.op = 4) :
    d.transact n m space c = (some ((d.doBulkWrite n m c).1.fitted space), (d.doBulkWrite n m c).2) := by
  simp only [Dev.transact, Dev.busy_of_idle idle, hc]

theorem Dev.transact_close (hc : c.op = 6) : d.transact n m space c = (some (d.doClose m).1, (d.doClose m).2) := by
  simp only [Dev.transact, Dev.busy_of_idle idle, hc]

theorem Dev.transact_nop (hc : c.op = 7) : d.transact n m space c = (some ⟨0, []⟩, d) := by
  simp only [Dev.transact, Dev.busy_of_idle idle, hc]

end

/-! ### NOP and CLOSE (R311, R359) -/

theorem Reg.modulus_sessionState : Reg.modulus .sessionState = 256 := by decide +kernel
theorem Reg.modulus_sessionKey : Reg.modulus .sessionKey = 256 := by decide +kernel
theorem Reg.modulus_leaseReg : Reg.modulus .leaseReg = 256 := by decide +kernel
theorem Reg.modulus_leaseHolder : Reg.modulus .leaseHolder = 256 := by decide +kernel

theorem Dev.freeLease_rd {r : Reg} (i : Nat) (hr : r ≠ .leaseReg) (hh : r ≠ .leaseHolder) :
    d.freeLease.rd r i = d.rd r i :=
  (Dev.rd_wr_other _ _ _ _ hh).trans (Dev.rd_wr_other _ _ _ _ hr)

theorem Dev.freeLease_leaseReg : d.freeLease.rd .leaseReg 0 = 0 :=
  (Dev.rd_wr_other _ _ _ _ (by decide)).trans ((Dev.rd_wr_same _ _ _ _).trans (Nat.zero_mod _))

theorem Dev.freeLease_leaseHolder : d.freeLease.rd .leaseHolder 0 = 0 :=
  (Dev.rd_wr_same _ _ _ _).trans (Nat.zero_mod _)

/-- A session's registers as closing leaves them. -/
def Dev.forgetSession (d : Dev) (k : Nat) : Dev :=
  (((d.wr .sessionState k 0).wr .sessionPriv k 0).wr .sessionKey k 255).wr .sessionSrc k 0

/-- The lease freed where session `k` holds it. -/
def Dev.freeLeaseOf (d : Dev) (k : Nat) : Dev := if d.rd .leaseHolder 0 = k then d.freeLease else d

theorem Dev.freeLeaseOf_rd (k : Nat) {r : Reg} (i : Nat) (hr : r ≠ .leaseReg) (hh : r ≠ .leaseHolder) :
    (d.freeLeaseOf k).rd r i = d.rd r i := by
  unfold Dev.freeLeaseOf
  split
  · exact Dev.freeLease_rd i hr hh
  · rfl

theorem Dev.freeLeaseOf_leaseHolder {k : Nat} (h : d.rd .leaseHolder 0 = k) : (d.freeLeaseOf k).rd .leaseHolder 0 = 0 := by
  rw [Dev.freeLeaseOf, if_pos h]
  exact Dev.freeLease_leaseHolder

theorem Dev.closeSession_regs (d : Dev) (k : Nat) : (d.closeSession k).regs = ((d.forgetSession k).freeLeaseOf k).regs := by
  unfold Dev.closeSession
  rw [← Dev.forgetSession, Dev.freeLeaseOf]

theorem Dev.closeSession_rd (k : Nat) (r : Reg) (i : Nat) :
    (d.closeSession k).rd r i = ((d.forgetSession k).freeLeaseOf k).rd r i :=
  Dev.rd_of_regs (d.closeSession_regs k) r i

/-- What closing a session leaves of it. -/
structure Dev.SessionClosed (a e : Dev) (k : Nat) : Prop where
  state : e.rd .sessionState k = 0
  key : e.rd .sessionKey k = 255
  lease : a.rd .leaseHolder 0 = k → e.rd .leaseHolder 0 = 0
  locks : ∀ l ∈ e.mgmt.locks, l.holder ≠ .session k
  chip : e.chip = a.chip

theorem Dev.closeSession_closed (k : Nat) : d.SessionClosed (d.closeSession k) k where
  state := by
    rw [Dev.closeSession_rd, Dev.freeLeaseOf_rd _ _ (by decide) (by decide)]
    simp [Dev.forgetSession, Dev.rd_wr]
  key := by
    rw [Dev.closeSession_rd, Dev.freeLeaseOf_rd _ _ (by decide) (by decide)]
    simp [Dev.forgetSession, Dev.rd_wr, Reg.modulus_sessionKey]
  lease h := by
    have held : (d.forgetSession k).rd .leaseHolder 0 = k := by simpa [Dev.forgetSession, Dev.rd_wr] using h
    rw [Dev.closeSession_rd, Dev.freeLeaseOf_leaseHolder held]
  locks l hl := by simpa using (List.mem_filter.1 hl).2
  chip := by
    unfold Dev.closeSession
    dsimp only
    split <;> rfl

/-! ### Window locks (R160) -/

@[simp] theorem Dev.dropLock_lockOf (w inst : Nat) : (d.dropLock w inst).lockOf w inst = none := by
  simpa [Dev.lockOf, Dev.dropLock] using fun (l : Lock) _ (other : ¬l.index = w ∨ ¬l.inst = inst) same =>
    other.resolve_left (not_not.2 same)

/-- The lock of a window taken by a master, or freed. -/
def Dev.setLock (d : Dev) (n : Nat) (m : Master) (w inst v : Nat) : Dev :=
  let e := d.dropLock w inst
  if v = 1 then { e with mgmt := { e.mgmt with locks := ⟨w, inst, m, n⟩ :: e.mgmt.locks } } else e

theorem Dev.writeLock_of_free {w inst : Nat} (h : d.lockedAway m w inst = false) (v : Nat) :
    d.writeLock n m w inst v = (0, d.setLock n m w inst v) := by
  unfold Dev.writeLock Dev.setLock
  rw [h]
  by_cases hv : v = 1 <;> simp [hv]

theorem Dev.setLock_lockOf (w inst v : Nat) :
    (d.setLock n m w inst v).lockOf w inst = if v = 1 then some ⟨w, inst, m, n⟩ else none := by
  unfold Dev.setLock
  by_cases hv : v = 1
  · simp [hv, Dev.lockOf]
  · simp [hv]

theorem Dev.setLock_rest (w inst v : Nat) :
    (d.setLock n m w inst v).regs = d.regs ∧ (d.setLock n m w inst v).chip = d.chip := by
  unfold Dev.setLock
  by_cases hv : v = 1 <;> simp [hv, Dev.dropLock]

theorem placeAt_lock {w : Nat} (h : (winRow w).isSome = true) : placeAt w 0 = some (.lock w) := by
  obtain ⟨row, hrow⟩ := Option.isSome_iff_exists.1 h
  rw [placeAt, hrow]

/-- A WRITE of a window's lock that passes the checks. -/
theorem Dev.doWrite_lock {w inst v : Nat} (hw : (winRow w).isSome = true) (hi : inst < (winOf w).count) (hv : v < 2)
    (hm : d.mayWrite m (.lock w) = true) (hl : d.leaseRefuses m w = false) (ha : d.lockedAway m w inst = false) :
    d.doWrite n m ⟨2, w, inst, 0, toBytes 1 v⟩ = (some ⟨0, []⟩, d.setLock n m w inst v) := by
  have has : (Place.lock w).hasInstance inst = true := decide_eq_true hi
  have value : ofBytes (toBytes 1 v) % 2 = v := by
    rw [ofBytes_toBytes]
    omega
  simp only [Dev.doWrite, placeAt_lock hw, has, Place.writable, hm, hl, Bool.not_true, Bool.false_eq_true, if_false,
    toBytes_length, ne_eq, not_true, value, Dev.writeLock_of_free ha]

/-! ### The control lease (R313) -/

theorem Reg.modulus_leaseRefused : Reg.modulus .leaseRefused = 2 ^ 64 := by decide +kernel
theorem Reg.modulus_leaseExpired : Reg.modulus .leaseExpired = 2 ^ 64 := by decide +kernel
theorem Reg.modulus_lockExpired : Reg.modulus .lockExpired = 2 ^ 64 := by decide +kernel

theorem masterCode_lt (h : masterExists m = true) : masterCode m < 256 := by
  cases m with
  | session k =>
    simp only [masterExists, Bool.and_eq_true, decide_eq_true_eq] at h
    simp only [masterCode]
    omega
  | serial => decide

/-- What an accepted write of LEASE leaves. -/
structure Dev.LeaseSet (a e : Dev) (n : Nat) (m : Master) (v : Nat) : Prop where
  reg : e.rd .leaseReg 0 = v
  holder : e.rd .leaseHolder 0 = if v = 1 then masterCode m else 0
  since : v = 1 → e.mgmt.leaseAt = n
  kept : a.regsKept e [(.leaseReg, 0), (.leaseHolder, 0)]
  chip : e.chip = a.chip

theorem Dev.regsKept_lease (x y : Nat) :
    d.regsKept ((d.wr .leaseReg 0 x).wr .leaseHolder 0 y) [(.leaseReg, 0), (.leaseHolder, 0)] := by
  intro r i h
  simp only [List.mem_cons, Prod.mk.injEq, List.not_mem_nil, or_false, not_or] at h
  simp [Dev.rd_wr, h]

theorem Dev.writeLease_set {v : Nat} (hm : masterExists m = true) (hv : v < 2) (hl : d.leasedAway m = false) :
    ∃ e, d.writeLease n m v = (0, e) ∧ d.LeaseSet e n m v := by
  unfold Dev.writeLease
  rw [hl]
  obtain rfl | rfl : v = 0 ∨ v = 1 := by omega
  · exact ⟨_, rfl, Dev.freeLease_leaseReg, Dev.freeLease_leaseHolder, nofun, Dev.regsKept_lease 0 0, rfl⟩
  · refine ⟨_, rfl, ?_, ?_, fun _ => rfl, Dev.regsKept_lease 1 (masterCode m), rfl⟩
    · exact (Dev.rd_wr_other _ _ _ _ (by decide)).trans ((Dev.rd_wr_same _ _ _ _).trans (by rw [Reg.modulus_leaseReg]))
    · exact (Dev.rd_wr_same _ _ _ _).trans (by
        rw [Reg.modulus_leaseHolder]
        exact Nat.mod_eq_of_lt (masterCode_lt hm))

theorem Dev.writeLease_refused (v : Nat) (hl : d.leasedAway m = true) :
    d.writeLease n m v = (3, d.bump .leaseRefused 0) := if_pos hl

/-- A WRITE of LEASE that the master may make is decided by the lease alone. -/
theorem Dev.doWrite_lease {v : Nat} (hv : v < 2) (hm : d.mayWrite m (.reg .leaseReg) = true) :
    d.doWrite n m (writeNum .leaseReg 0 v) =
      (some ⟨(d.writeLease n m v).1, []⟩, (d.writeLease n m v).2) := by
  have size : Reg.size .leaseReg = 1 := by decide +kernel
  have index : (Reg.row .leaseReg).index = 0x1110 := by decide +kernel
  have has : (Place.reg .leaseReg).hasInstance 0 = true := by decide +kernel
  have writable : (Place.reg .leaseReg).writable = true := by decide +kernel
  have good : ∀ data : Bytes, d.badValue n .leaseReg 0 (ofBytes data) data = false := by
    have chk : (Reg.row .leaseReg).chk = .any := by decide +kernel
    intro data
    simp only [Dev.badValue, chk, Chk.allows, Bool.not_true]
  have exempt : d.leaseRefuses m 0x1110 = false := by simp [Dev.leaseRefuses]
  have place := placeAt_row .leaseReg
  rw [index] at place
  have value : ofBytes (toBytes 1 v) % 2 = v := by
    rw [ofBytes_toBytes]
    omega
  rw [writeNum_fits (by rw [size]; omega)]
  simp only [Dev.doWrite, writeCmd, index, place, has, writable, hm, exempt, Bool.not_true, Bool.false_eq_true, if_false,
    Dev.doWriteReg, toBytes_length, ne_eq, not_true, good, if_true, size, value]

/-! ### Clearing a sticky source (R289) -/

/-- What a release of reactions leaves as it is: the sources' flags, and a reset that waits. -/
def Dev.alarms (d : Dev) : Tab Source × Option Nat := (d.faults.sources, d.chip.pendingReset)

theorem Dev.wr_alarms (d : Dev) (r : Reg) (i v : Nat) : (d.wr r i v).alarms = d.alarms := rfl
theorem Dev.modPort_alarms (d : Dev) (p : Nat) (f : Port → Port) : (d.modPort p f).alarms = d.alarms := rfl
theorem Dev.alarms_withMate (d : Dev) (x : Mate) : ({ d with mate := x } : Dev).alarms = d.alarms := rfl

theorem Dev.setStage_alarms (d : Dev) (n st l : Nat) : (d.setStage n st l).alarms = d.alarms := by
  unfold Dev.setStage
  split <;> rfl

theorem Dev.negotiate_alarms (d : Dev) (n p : Nat) : (d.negotiate n p).alarms = d.alarms := by
  unfold Dev.negotiate
  split <;> rfl

theorem Dev.restartPort_alarms (d : Dev) (n p : Nat) : (d.restartPort n p).alarms = d.alarms := by
  have stages : ∀ e : Dev, (e.each (d.lanesOf p) fun d l =>
      if d.portAllowed p then d.startLane n l else d.setStage n 0 l).alarms = e.alarms := fun e =>
    e.each_keeps Dev.alarms fun d l _ => by split <;> exact d.setStage_alarms n _ l
  unfold Dev.restartPort
  split
  · rfl
  · rw [Dev.negotiate_alarms, Dev.modPort_alarms, stages, Dev.wr_alarms]

theorem Dev.restartMate_alarms (d : Dev) (n : Nat) : (d.restartMate n).alarms = d.alarms := by
  have stages : (d.each mateLanes fun d l => if d.mateAllowed then d.startLane n l else d.setStage n 0 l).alarms = d.alarms :=
    d.each_keeps Dev.alarms fun d l _ => by split <;> exact d.setStage_alarms n _ l
  rw [Dev.restartMate, Dev.alarms_withMate, stages]

theorem Dev.restartTrees_alarms (d : Dev) (n mask : Nat) : (d.startOp n 3 mask).alarms = d.alarms := by
  have restarts : ∀ e : Dev, (e.beginRestarts mask).alarms = e.alarms := fun e => e.each_keeps Dev.alarms fun _ _ _ => rfl
  by_cases idle : d.mgmt.longOp = none
  · rw [d.startOp_of_idle idle]
    exact restarts (d.withOp ⟨3, n, longOpMax 3, mask⟩)
  · rw [Dev.startOp, if_neg (by simpa using idle)]
    rfl

theorem Dev.releaseElement_alarms (d : Dev) (n e : Nat) : (d.releaseElement n e).alarms = d.alarms := by
  unfold Dev.releaseElement
  split
  · rfl
  · dsimp only
    split
    · split
      · exact Dev.restartPort_alarms _ n _
      · split
        · exact Dev.restartMate_alarms _ n
        · rfl
    · exact Dev.restartTrees_alarms _ n _

theorem Dev.releaseReactions_alarms (d : Dev) (n : Nat) : (d.releaseReactions n).alarms = d.alarms := by
  have released := d.each_keeps (l := d.faults.shut) Dev.alarms fun d e _ => d.releaseElement_alarms n e
  unfold Dev.releaseReactions
  dsimp only
  split
  · refine (Dev.each_keeps _ Dev.alarms fun d p _ => ?_).trans released
    split
    · rfl
    · exact d.restartPort_alarms n p
  · exact released

theorem Dev.judgePins_alarms (d : Dev) : d.judgePins.alarms = d.alarms := by
  unfold Dev.judgePins
  split
  · rfl
  · split <;> rfl

theorem Dev.source_of_alarms {d e : Dev} (h : e.alarms = d.alarms) (k : Nat) : e.source k = d.source k :=
  congrArg (fun a : Tab Source × Option Nat => Tab.get ({} : Source) a.1 k) h

theorem Dev.pendingReset_of_alarms {d e : Dev} (h : e.alarms = d.alarms) : e.chip.pendingReset = d.chip.pendingReset :=
  congrArg Prod.snd h

theorem Dev.chip_of_butFaults {d e : Dev} (h : e.butFaults = d.butFaults) : e.chip = d.chip := by
  change e.butFaults.chip = d.butFaults.chip
  rw [h]

/-- A cleared source is sticky no more: where it occurs again at once, the collector has still to take that occurrence. -/
theorem Dev.clearSticky_clears (d : Dev) (n k : Nat) :
    ((d.clearSticky n k).source k).sticky = false ∧ (d.clearSticky n k).chip.pendingReset = d.chip.pendingReset := by
  unfold Dev.clearSticky
  dsimp only
  split
  · next sticky =>
    have released := fun e : Dev => (Dev.judgePins_alarms _).trans (e.releaseReactions_alarms n)
    rw [Dev.source_of_alarms (released _), Dev.pendingReset_of_alarms (released _)]
    have cleared : ((d.modSource k fun x => { x with sticky := false, severity := 0, capture := none }).source k).sticky =
      false := by rw [Dev.source_modSource, if_pos rfl]
    split
    · refine ⟨?_, congrArg Chip.pendingReset (Dev.chip_of_butFaults (Dev.raiseAt_butFaults _ _ _ _))⟩
      obtain ⟨capture, again⟩ := Dev.raiseAt_source
        (d.modSource k fun x => { x with sticky := false, severity := 0, capture := none }) n _ _ k
      rw [again]
      exact cleared
    · exact ⟨cleared, rfl⟩
  · next clear =>
    rw [Dev.source_modSource, if_pos rfl]
    exact ⟨Bool.not_eq_true _ ▸ clear, rfl⟩

theorem Dev.recoverDomains_pendingReset (d : Dev) (k : Nat) :
    (d.recoverDomains k).chip.pendingReset = d.chip.pendingReset := by
  refine d.each_keeps (fun e => e.chip.pendingReset) fun d w _ => ?_
  have dropped := congrArg Chip.pendingReset (Dev.chip_of_butFaults (d.dropLevel_butFaults k))
  unfold Dev.rampDomain
  split <;> exact dropped

/-- A record of FAULT_STATUS with its bit 7 clears its source. -/
theorem Dev.writeRecord_faultStatus (d : Dev) (n k : Nat) :
    d.writeRecord n 0x3301 0 k [128] = (0, (d.recoverDomains k).clearSticky n k) := by
  rfl

theorem Dev.doBulkWrite_faultStatus {k : Nat} (hk : k < 448) (hm : d.mayWrite m (.data 0x3301) = true)
    (hr : d.leaseRefuses m 0x3301 = false) (hl : d.lockedAway m 0x3301 0 = false) :
    d.doBulkWrite n m ⟨4, 0x3301, 0, 1, toBytes 4 k ++ toBytes 4 1 ++ [128]⟩ =
      (⟨0, []⟩, (d.recoverDomains k).clearSticky n k) := by
  have first : numAt (toBytes 4 k ++ toBytes 4 1 ++ [128]) 0 4 = k := by
    have h := numAt_append [] (toBytes 4 1 ++ [128]) 4 k
    rw [List.nil_append, ← List.append_assoc, List.length_nil] at h
    rw [h]
    omega
  have count : numAt (toBytes 4 k ++ toBytes 4 1 ++ [128]) 4 4 = 1 := by
    simpa using numAt_append (toBytes 4 k) [128] 4 1
  have rest : (toBytes 4 k ++ toBytes 4 1 ++ [128]).drop 8 = [128] := List.drop_left' (by simp)
  have length : (toBytes 4 k ++ toBytes 4 1 ++ [128]).length = 9 := by simp
  have place : placeAt 0x3301 1 = some (.data 0x3301) := rfl
  have row : winOf 0x3301 = ⟨1, 448, .rw, false, 1, .device⟩ := rfl
  have mirrored : windowMirrored 0x3301 = false := by decide
  have fits : ¬ 448 < k + 1 := by omega
  generalize toBytes 4 k ++ toBytes 4 1 ++ [128] = data at *
  simp [Dev.doBulkWrite, place, Place.hasInstance, Place.bulkWritable, row, hm, hr, first, count, rest, length, hl, mirrored,
    fits, Dev.writeRecords, Dev.writeRecord_faultStatus]

/-! ### The commands -/

section
variable {s : State} (h : s.dev.hears (max s.now n) m = true)
include h

theorem nop_completes :
    Completes (.nop n m) s n fun e => e = (s.dev.asked (max s.now n) m).emit (.response m ⟨0, []⟩) :=
  Completes.of_transact rfl h (Dev.transact_nop (Dev.idle_of_hears h) _ rfl) rfl rfl

theorem close_answered {k : Nat} (hk : m = .session k) :
    Answered (.close n m) s n m fun a e => a.SessionClosed e k := by
  subst hk
  obtain ⟨e, closes, closed⟩ : ∃ e, (s.dev.asked (max s.now n) (.session k)).doClose (.session k) = (⟨0, []⟩, e) ∧
      (s.dev.asked (max s.now n) (.session k)).SessionClosed e k := ⟨_, rfl, Dev.closeSession_closed k⟩
  refine Answered.of_transact rfl h ((Dev.transact_close (Dev.idle_of_hears h) _ rfl).trans (by rw [closes]))
    (congrArg Chip.pendingReset closed.chip) ⟨closed.state, closed.key, closed.lease, closed.locks, closed.chip⟩

theorem close_serial (hm : m = .serial) :
    Completes (.close n m) s n fun e => e = (s.dev.asked (max s.now n) m).emit (.response m ⟨11, []⟩) := by
  subst hm
  have closes : (s.dev.asked (max s.now n) .serial).doClose .serial = (⟨11, []⟩, s.dev.asked (max s.now n) .serial) := rfl
  exact Completes.of_transact rfl h ((Dev.transact_close (Dev.idle_of_hears h) _ rfl).trans (by rw [closes])) rfl rfl

theorem lockWrite_answered {w inst v : Nat} (hw : (winRow w).isSome = true) (hi : inst < (winOf w).count) (hv : v < 2)
    (hm : (s.dev.asked (max s.now n) m).mayWrite m (.lock w) = true)
    (hl : (s.dev.asked (max s.now n) m).leaseRefuses m w = false)
    (ha : (s.dev.asked (max s.now n) m).lockedAway m w inst = false) :
    Answered (.lockWrite n m w inst v) s n m fun a e =>
      e.lockOf w inst = (if v = 1 then some ⟨w, inst, m, max s.now n⟩ else none) ∧ e.regs = a.regs := by
  have bytes : exec (.lockWrite n m w inst v) s = byMaster n m ⟨2, w, inst, 0, toBytes 1 v⟩ s := by
    change byMaster n m ⟨2, w, inst, 0, toBytes (if v < 256 then 1 else 2) v⟩ s = _
    rw [if_pos (by omega)]
  have written := Dev.doWrite_lock (n := max s.now n) hw hi hv hm hl ha
  have lock := (s.dev.asked (max s.now n) m).setLock_lockOf (n := max s.now n) (m := m) w inst v
  obtain ⟨regs, chip⟩ := (s.dev.asked (max s.now n) m).setLock_rest (n := max s.now n) (m := m) w inst v
  generalize (s.dev.asked (max s.now n) m).setLock (max s.now n) m w inst v = e at *
  exact Answered.of_transact bytes h ((Dev.transact_write (Dev.idle_of_hears h) _ rfl).trans written)
    (congrArg Chip.pendingReset chip) ⟨lock, regs⟩

theorem faultStatusClear_answered {k : Nat} (hk : k < 448)
    (hm : (s.dev.asked (max s.now n) m).mayWrite m (.data 0x3301) = true)
    (hr : (s.dev.asked (max s.now n) m).leaseRefuses m 0x3301 = false)
    (hl : (s.dev.asked (max s.now n) m).lockedAway m 0x3301 0 = false) :
    Answered (.faultStatusClear n m k) s n m fun _ e => (e.source k).sticky = false := by
  obtain ⟨sticky, reset⟩ := ((s.dev.asked (max s.now n) m).recoverDomains k).clearSticky_clears (max s.now n) k
  refine Answered.of_transact rfl h ((Dev.transact_bulkWrite (Dev.idle_of_hears h) _ rfl).trans ?_)
    (reset.trans (Dev.recoverDomains_pendingReset _ k)) sticky
  rw [Dev.doBulkWrite_faultStatus hk hm hr hl, Resp.fitted, ite_self]

theorem leaseWrite_answered {v : Nat} (hv : v < 2)
    (hm : (s.dev.asked (max s.now n) m).mayWrite m (.reg .leaseReg) = true)
    (hl : (s.dev.asked (max s.now n) m).leasedAway m = false) :
    Answered (.leaseWrite n m v) s n m fun a e => a.LeaseSet e (max s.now n) m v := by
  obtain ⟨e, written, set⟩ := Dev.writeLease_set (n := max s.now n) (masterExists_of_hears h) hv hl
  refine Answered.of_transact rfl h
    ((Dev.transact_write (Dev.idle_of_hears h) _ rfl).trans ((Dev.doWrite_lease hv hm).trans ?_))
    (congrArg Chip.pendingReset set.chip) ⟨set.reg, set.holder, set.since, set.kept, set.chip⟩
  rw [written]

theorem leaseWrite_refused {v : Nat} (hv : v < 2)
    (hm : (s.dev.asked (max s.now n) m).mayWrite m (.reg .leaseReg) = true)
    (hl : (s.dev.asked (max s.now n) m).leasedAway m = true) :
    Completes (.leaseWrite n m v) s n fun e =>
      e.wire.getLast? = some (.response m ⟨3, []⟩) ∧
      e.rd .leaseRefused 0 = ((s.dev.asked (max s.now n) m).rd .leaseRefused 0 + 1) % 2 ^ 64 := by
  have refused := Dev.doWrite_lease hv hm (n := max s.now n)
  rw [Dev.writeLease_refused v hl] at refused
  exact Completes.of_transact rfl h ((Dev.transact_write (Dev.idle_of_hears h) _ rfl).trans refused) rfl
    ⟨by simp, Dev.rd_bump_counter _ 0 Reg.modulus_leaseRefused⟩

end

/-! ### Expiries (R160, R313) -/

theorem leaseExpiry_completes {s : State} (hh : s.dev.rd .leaseHolder 0 ≠ 0)
    (ht : s.dev.mgmt.leaseAt + msTicks (s.dev.rd .leaseTimeoutMs 0) ≤ max s.now n) :
    Completes (.leaseExpiry n) s n fun e =>
      e.rd .leaseReg 0 = 0 ∧ e.rd .leaseHolder 0 = 0 ∧ e.rd .leaseExpired 0 = (s.dev.rd .leaseExpired 0 + 1) % 2 ^ 64 ∧
      s.dev.onlyRegs e [(.leaseReg, 0), (.leaseHolder, 0), (.leaseExpired, 0)] := by
  refine completes_at rfl ?_
  rw [if_pos ⟨hh, ht⟩]
  refine ⟨?_, ?_, ?_, fun r i h => ?_, rfl⟩
  · exact (Dev.bump_rd_other _ _ _ (by decide)).trans Dev.freeLease_leaseReg
  · exact (Dev.bump_rd_other _ _ _ (by decide)).trans Dev.freeLease_leaseHolder
  · rw [Dev.rd_bump_counter _ 0 Reg.modulus_leaseExpired, Dev.freeLease_rd _ (by decide) (by decide)]
  · simp only [List.mem_cons, Prod.mk.injEq, List.not_mem_nil, or_false, not_or] at h
    rw [Dev.rd_bump, if_neg h.2.2]
    exact Dev.regsKept_lease 0 0 r i (by simp [h.1, h.2.1])

theorem lockExpiry_completes {s : State} {w inst : Nat} {l : Lock} (hl : s.dev.lockOf w inst = some l)
    (ht : l.at_ + msTicks (s.dev.rd .sweepLockMaxMs 0) ≤ max s.now n) :
    Completes (.lockExpiry n w inst) s n fun e =>
      e.lockOf w inst = none ∧ e.rd .lockExpired 0 = (s.dev.rd .lockExpired 0 + 1) % 2 ^ 64 ∧
      s.dev.regsKept e [(.lockExpired, 0)] := by
  refine completes_at rfl ?_
  simp only [hl, ht, if_true]
  exact ⟨Dev.dropLock_lockOf w inst, Dev.rd_bump_counter _ 0 Reg.modulus_lockExpired,
    ((s.dev.dropLock w inst).onlyRegs_bump .lockExpired 0).1⟩

/-- Settles O22: of a master that is served the transaction alone decides, and what a cleared source releases leaves the
sources' flags as they are. -/
theorem locksLeasesAndClears : Obligations.LocksLeasesAndClears := by
  unfold Obligations.LocksLeasesAndClears
  refine ⟨fun s n m h => ⟨nop_completes h, fun k hk => ?_, close_serial h, fun w inst v hw hi hv hm hl =>
      lockWrite_answered h hw hi hv hm hl, fun k => faultStatusClear_answered h⟩,
    fun s n => ⟨fun m v hv h hm => ⟨fun hl => ?_, leaseWrite_refused h hv hm⟩, leaseExpiry_completes,
      fun w inst l => lockExpiry_completes⟩⟩
  · exact (close_answered h hk).imp fun a e he => ⟨he.state, he.key, he.lease, he.locks⟩
  · exact (leaseWrite_answered h hv hm hl).imp fun a e he => ⟨he.reg, he.holder, he.since, he.kept⟩

end Sys2Proof.Machine
end

section
/-!
PROOFS. The Learning Engine, the ager and the background compare (R161, R169, R171-R174, R176): what each item of work does to
the Address Table, while no flush runs and while one does.
-/
namespace Sys2Proof.Machine
open Sys2Proof

/-! ### Tables whose values alone change -/

theorem Tab.find_mapValues {α : Type} (t : Tab α) (f : α → α) (k : Nat) :
    Tab.find (t.map fun p => (p.1, f p.2)) k = (Tab.find t k).map f := by
  induction t with
  | nil => rfl
  | cons p t ih =>
    simp only [List.map_cons, Tab.find, ih]
    split <;> rfl

variable (d : Dev)

/-! ### Entries of the Address Table (R166, R167) -/

@[simp] theorem Dev.setAddr_find_same (k : Nat) (e : AddrEntry) : Tab.find (d.setAddr k e).addr.entries k = some e :=
  Tab.find_insert_same _ _ _

theorem Dev.setAddr_find_ne (e : AddrEntry) {j k : Nat} (h : j ≠ k) :
    Tab.find (d.setAddr k e).addr.entries j = Tab.find d.addr.entries j :=
  Tab.find_insert_ne _ _ h

@[simp] theorem Dev.eraseAddr_find_same (k : Nat) : Tab.find (d.eraseAddr k).addr.entries k = none :=
  Tab.find_erase_same _ _

theorem Dev.eraseAddr_find_ne {j k : Nat} (h : j ≠ k) :
    Tab.find (d.eraseAddr k).addr.entries j = Tab.find d.addr.entries j :=
  Tab.find_erase_ne _ h

@[simp] theorem Dev.setAddr_flushes (k : Nat) (e : AddrEntry) : (d.setAddr k e).addr.flushes = d.addr.flushes := rfl
@[simp] theorem Dev.setAddr_regs (k : Nat) (e : AddrEntry) : (d.setAddr k e).regs = d.regs := rfl
@[simp] theorem Dev.eraseAddr_flushes (k : Nat) : (d.eraseAddr k).addr.flushes = d.addr.flushes := rfl
@[simp] theorem Dev.eraseAddr_regs (k : Nat) : (d.eraseAddr k).regs = d.regs := rfl

theorem bucketOf_lt (seed domain mac : Nat) : bucketOf seed domain mac < 131072 := Nat.mod_lt _ (by decide)

variable {d}

theorem Dev.freeWay_free {b j : Nat} (h : d.freeWay b = some j) : Tab.find d.addr.entries j = none := by
  simpa using List.find?_some h

theorem Dev.freeCandidate_free {e : AddrEntry} {j : Nat} (h : d.freeCandidate e = some j) :
    Tab.find d.addr.entries j = none :=
  (Option.or_eq_some_iff.1 h).elim Dev.freeWay_free fun h => Dev.freeWay_free h.2

/-! ### An engine with no flush under way -/

theorem Dev.flushOn_of_none (h : d.addr.flushes = []) : d.flushOn = d := by
  unfold Dev.flushOn
  rw [h]

theorem Dev.flushTo_of_none (h : d.addr.flushes = []) (pos : Nat) : d.flushTo pos = d := by
  unfold Dev.flushTo
  rw [h]

theorem Dev.flushSpares_of_none (h : d.addr.flushes = []) (domain mac : Nat) : d.flushSpares domain mac = d := by
  unfold Dev.flushSpares
  rw [h]

/-! ### Learning (R171, R172) -/

/-- The entry once HOLD has been cleared where its time has passed. -/
def Dev.holdEnded (d : Dev) (n : Nat) (x : AddrEntry) : AddrEntry :=
  if x.hold && d.holdPassed n x then { x with hold := false } else x

/-- HOLD alone changes. -/
theorem Dev.holdEnded_eq (n : Nat) (x : AddrEntry) : ∃ hold, d.holdEnded n x = { x with hold := hold } := by
  unfold Dev.holdEnded
  split
  · exact ⟨_, rfl⟩
  · exact ⟨x.hold, rfl⟩

variable {n domain mac kind dest k : Nat} {x : AddrEntry}

theorem Dev.learn_unknown (hu : d.addrFind domain mac = none)
    (hk : d.freeCandidate ⟨mac, domain, kind, dest, false, true, 0, true, msOf n⟩ = some k) :
    d.learn n domain mac kind dest =
      (d.setAddr k ⟨mac, domain, kind, dest, false, true, 0, true, msOf n⟩).bump .learned 0 := by
  simp [Dev.learn, hu, Dev.insertAddr, hk]

theorem Dev.learn_known (hf : d.addrFind domain mac = some (k, x)) (hk : x.kind = kind) (hd : x.dest = dest) :
    d.learn n domain mac kind dest =
      (d.setAddr k (d.holdEnded n x)).setAddr k { d.holdEnded n x with hit := true } := by
  obtain ⟨hold, ended⟩ := d.holdEnded_eq n x
  have same : (d.holdEnded n x).kind = kind ∧ (d.holdEnded n x).dest = dest := by rw [ended]; exact ⟨hk, hd⟩
  unfold Dev.learn
  rw [hf]
  exact if_pos same

theorem Dev.learn_static (hf : d.addrFind domain mac = some (k, x)) (hs : x.static = true)
    (hd : ¬(x.kind = kind ∧ x.dest = dest)) :
    d.learn n domain mac kind dest = (d.setAddr k (d.holdEnded n x)).bump .staticConflict 0 := by
  obtain ⟨hold, ended⟩ := d.holdEnded_eq n x
  have differs : ¬((d.holdEnded n x).kind = kind ∧ (d.holdEnded n x).dest = dest) := by rw [ended]; exact hd
  have static : (d.holdEnded n x).static = true := by rw [ended]; exact hs
  unfold Dev.learn
  rw [hf]
  exact (if_neg differs).trans (if_pos static)

/-- The device once the engine has taken the head of its queue. -/
def Dev.dequeued (d : Dev) (rest : List LearnItem) : Dev := { d with addr := { d.addr with queue := rest } }

variable {s : State} {rest : List LearnItem} {p : Dev → Prop}

/-- With no flush under way a learning request is decided, and nothing more is done. -/
theorem learnRequest_completes (hl : s.dev.addrLocked = false) (hf : s.dev.addr.flushes = [])
    (hq : s.dev.addr.queue = .learn domain mac kind dest :: rest) {e : Dev}
    (he : (s.dev.dequeued rest).learn (max s.now n) domain mac kind dest = e) (hfe : e.addr.flushes = []) (hp : p e) :
    Completes (.learnRequest n) s n p := by
  have done : (s.dev.dequeued rest).learnItem (max s.now n) (.learn domain mac kind dest) = e := by
    have on : (s.dev.dequeued rest).flushOn = s.dev.dequeued rest := Dev.flushOn_of_none hf
    unfold Dev.learnItem
    dsimp only
    rw [on, he, Dev.flushSpares_of_none hfe, Dev.flushTo_of_none hfe]
  refine completes_at rfl ?_
  simp only [hq, hl, Bool.false_eq_true, if_false]
  exact done ▸ hp

theorem Reg.modulus_learned : Reg.modulus .learned = 2 ^ 64 := by decide +kernel
theorem Reg.modulus_staticConflict : Reg.modulus .staticConflict = 2 ^ 64 := by decide +kernel

/-- A request for an address that the table does not have, with a free way for it. -/
theorem learnRequest_unknown (hl : s.dev.addrLocked = false) (hf : s.dev.addr.flushes = [])
    (hq : s.dev.addr.queue = .learn domain mac kind dest :: rest) (hu : s.dev.addrFind domain mac = none)
    (hk : s.dev.freeCandidate ⟨mac, domain, kind, dest, false, true, 0, true, msOf (max s.now n)⟩ = some k) :
    Completes (.learnRequest n) s n fun e =>
      Tab.find e.addr.entries k = some ⟨mac, domain, kind, dest, false, true, 0, true, msOf (max s.now n)⟩ ∧
      e.addr.queue = rest ∧ e.rd .learned 0 = (s.dev.rd .learned 0 + 1) % 2 ^ 64 ∧
      (∀ j, j ≠ k → Tab.find e.addr.entries j = Tab.find s.dev.addr.entries j) ∧ s.dev.regsKept e [(.learned, 0)] := by
  refine learnRequest_completes hl hf hq (Dev.learn_unknown (d := s.dev.dequeued rest) hu hk) hf ⟨?_, rfl, ?_, ?_, ?_⟩
  · exact Dev.setAddr_find_same _ _ _
  · exact Dev.rd_bump_counter _ 0 Reg.modulus_learned
  · exact fun j hj => Dev.setAddr_find_ne _ _ hj
  · exact (Dev.onlyRegs_bump _ _ _).1

/-- A request for an address that the table has, from its own destination. -/
theorem learnRequest_known (hl : s.dev.addrLocked = false) (hf : s.dev.addr.flushes = [])
    (hq : s.dev.addr.queue = .learn domain mac kind dest :: rest) (hx : s.dev.addrFind domain mac = some (k, x))
    (hk : x.kind = kind) (hd : x.dest = dest) :
    Completes (.learnRequest n) s n fun e =>
      (∃ y, Tab.find e.addr.entries k = some y ∧ y.hit = true ∧ y.dest = dest ∧ y.kind = kind) ∧
      e.addr.queue = rest ∧ e.regs = s.dev.regs := by
  obtain ⟨hold, ended⟩ := (s.dev.dequeued rest).holdEnded_eq (max s.now n) x
  refine learnRequest_completes hl hf hq (Dev.learn_known (d := s.dev.dequeued rest) hx hk hd) hf
    ⟨⟨_, Dev.setAddr_find_same _ _ _, rfl, ?_⟩, rfl, rfl⟩
  rw [ended]
  exact ⟨hd, hk⟩

/-- A request for a static address from another destination. -/
theorem learnRequest_static (hl : s.dev.addrLocked = false) (hf : s.dev.addr.flushes = [])
    (hq : s.dev.addr.queue = .learn domain mac kind dest :: rest) (hx : s.dev.addrFind domain mac = some (k, x))
    (hs : x.static = true) (hd : ¬(x.kind = kind ∧ x.dest = dest)) :
    Completes (.learnRequest n) s n fun e =>
      e.rd .staticConflict 0 = (s.dev.rd .staticConflict 0 + 1) % 2 ^ 64 ∧ s.dev.regsKept e [(.staticConflict, 0)] :=
  learnRequest_completes hl hf hq (Dev.learn_static (d := s.dev.dequeued rest) hx hs hd) hf
    ⟨Dev.rd_bump_counter _ 0 Reg.modulus_staticConflict, (Dev.onlyRegs_bump _ _ _).1⟩

/-- HOLD_SWEEP ends HOLD in every entry, each by its own time (R172). -/
theorem holdSweep_completes (hl : s.dev.addrLocked = false) :
    Completes (.holdSweep n) s n fun e =>
      (∀ k, Tab.find e.addr.entries k = (Tab.find s.dev.addr.entries k).map (s.dev.holdEnded (max s.now n))) ∧
      e.regs = s.dev.regs := by
  refine completes_at rfl ?_
  rw [hl]
  exact ⟨Tab.find_mapValues _ (s.dev.holdEnded (max s.now n)), rfl⟩

/-! ### The ager (R173) -/

theorem Dev.ageVisit_hit (h : x.hit = true) :
    Tab.find (d.ageVisit n k x).addr.entries k = some { x with hit := false, age := 0 } ∧
    (d.ageVisit n k x).addr.queue = d.addr.queue := by
  unfold Dev.ageVisit
  rw [if_pos h]
  exact ⟨Dev.setAddr_find_same _ _ _, rfl⟩

theorem Dev.ageVisit_younger (h : x.hit = false) (ha : x.age < 7) :
    Tab.find (d.ageVisit n k x).addr.entries k = some { x with age := x.age + 1 } ∧
    (d.ageVisit n k x).addr.queue = d.addr.queue := by
  unfold Dev.ageVisit
  rw [if_neg (Bool.not_eq_true _ ▸ h), if_pos ha]
  exact ⟨Dev.setAddr_find_same _ _ _, rfl⟩

theorem Dev.ageVisit_oldest (h : x.hit = false) (ha : 7 ≤ x.age) :
    (d.ageVisit n k x).addr.entries = d.addr.entries ∧
    (d.ageVisit n k x).addr.queue = d.addr.queue ++ [.aged x.domain x.mac] := by
  unfold Dev.ageVisit
  rw [if_neg (Bool.not_eq_true _ ▸ h), if_neg (Nat.not_lt.2 ha)]
  exact ⟨rfl, rfl⟩

/-- The ager visits a dynamic entry, or leaves the device as it is where the entry is not due. -/
theorem agerVisit_completes (hl : s.dev.addrLocked = false) (hk : k < 524352)
    (hx : Tab.find s.dev.addr.entries k = some x) (hs : x.static = false) (ha : s.dev.rd .ageTime 0 ≠ 0)
    (hp : p (if max s.now n < Tab.get 0 s.dev.addr.visited k + s.dev.agePeriod then s.dev
      else s.dev.ageVisit (max s.now n) k x)) : Completes (.agerVisit n k) s n p := by
  refine completes_onElement rfl hk ?_
  simpa [hx, hs, hl, ha] using hp

/-! ### The stash (R169) -/

/-- What STASH_RETRY does with slot `k`. -/
def Dev.retrySlot (d : Dev) (k : Nat) : Dev :=
  match Tab.find d.addr.entries k with
  | none => d
  | some e =>
    match d.freeCandidate e with
    | some j => (d.setAddr j e).eraseAddr k
    | none => (d.moveVictim k (d.bucket0 e)).2

theorem Dev.retrySlot_freeWay {j : Nat} (hx : Tab.find d.addr.entries k = some x) (hj : d.freeCandidate x = some j) :
    d.retrySlot k = (d.setAddr j x).eraseAddr k := by
  simp only [Dev.retrySlot, hx, hj]

theorem Dev.retrySlot_full (hx : Tab.find d.addr.entries k = some x) (hn : d.freeCandidate x = none) :
    d.retrySlot k = (d.moveVictim k (d.bucket0 x)).2 := by
  simp only [Dev.retrySlot, hx, hn]

/-- The device with the victim's way taken in turn. -/
def Dev.nextVictim (d : Dev) : Dev := { d with addr := { d.addr with victim := (d.addr.victim + 1) % 4 } }

@[simp] theorem Dev.nextVictim_flushes : d.nextVictim.addr.flushes = d.addr.flushes := rfl
@[simp] theorem Dev.nextVictim_regs : d.nextVictim.regs = d.regs := rfl

/-- The entry in slot `k` takes the way of a victim that has a free way elsewhere. -/
theorem Dev.moveVictim_moves {b j : Nat} {v : AddrEntry} (hx : Tab.find d.addr.entries k = some x)
    (hv : Tab.find d.addr.entries (b * 4 + d.addr.victim % 4) = some v) (hj : d.freeWay (d.otherBucket v b) = some j) :
    (d.moveVictim k b).2 =
      ((d.nextVictim.setAddr j v).setAddr (b * 4 + d.addr.victim % 4) x).eraseAddr k := by
  have free : d.nextVictim.freeWay (d.nextVictim.otherBucket v b) = some j := hj
  rw [Dev.nextVictim] at free
  simp only [Dev.moveVictim, hx, hv, free, Dev.nextVictim]

/-- With nothing queued, no flush under way and one entry in the stash, that entry alone is retried. -/
theorem stashRetry_completes (hl : s.dev.addrLocked = false) (hq : s.dev.addr.queue = []) (hf : s.dev.addr.flushes = [])
    (hk : (Tab.keys s.dev.addr.entries).filter (524288 ≤ ·) = [k]) {e : Dev} (he : s.dev.retrySlot k = e)
    (hfe : e.addr.flushes = []) (hp : p e) : Completes (.stashRetry n) s n p := by
  have run : exec (.stashRetry n) s = .next (s.at_ n fun _ d =>
      if !d.addr.queue.isEmpty || d.addrLocked then d
      else ((d.flushOn).each ((Tab.keys d.flushOn.addr.entries).filter (524288 ≤ ·)) Dev.retrySlot).flushTo 0) := rfl
  refine completes_at run ?_
  simp only [hq, hl, List.isEmpty_nil, Bool.not_true, Bool.or_self, Bool.false_eq_true, if_false, Dev.flushOn_of_none hf, hk,
    Dev.each_cons, Dev.each_nil, he, Dev.flushTo_of_none hfe]
  exact hp

theorem stashRetry_freeWay {j : Nat} (hl : s.dev.addrLocked = false) (hq : s.dev.addr.queue = [])
    (hf : s.dev.addr.flushes = []) (hk : (Tab.keys s.dev.addr.entries).filter (524288 ≤ ·) = [k])
    (hx : Tab.find s.dev.addr.entries k = some x) (hj : s.dev.freeCandidate x = some j) (hjk : j ≠ k) :
    Completes (.stashRetry n) s n fun e =>
      Tab.find e.addr.entries j = some x ∧ Tab.find e.addr.entries k = none ∧
      (∀ i, i ≠ j → i ≠ k → Tab.find e.addr.entries i = Tab.find s.dev.addr.entries i) ∧ e.regs = s.dev.regs := by
  refine stashRetry_completes hl hq hf hk (Dev.retrySlot_freeWay hx hj) hf
    ⟨?_, Dev.eraseAddr_find_same _ _, fun i hij hik => ?_, rfl⟩
  · rw [Dev.eraseAddr_find_ne _ hjk, Dev.setAddr_find_same]
  · rw [Dev.eraseAddr_find_ne _ hik, Dev.setAddr_find_ne _ _ hij]

theorem stashRetry_victim {j : Nat} {v : AddrEntry} (hl : s.dev.addrLocked = false) (hq : s.dev.addr.queue = [])
    (hf : s.dev.addr.flushes = []) (hk : (Tab.keys s.dev.addr.entries).filter (524288 ≤ ·) = [k]) (hs : 524288 ≤ k)
    (hx : Tab.find s.dev.addr.entries k = some x) (hn : s.dev.freeCandidate x = none)
    (hv : Tab.find s.dev.addr.entries (s.dev.bucket0 x * 4 + s.dev.addr.victim % 4) = some v)
    (hj : s.dev.freeWay (s.dev.otherBucket v (s.dev.bucket0 x)) = some j) :
    Completes (.stashRetry n) s n fun e =>
      Tab.find e.addr.entries (s.dev.bucket0 x * 4 + s.dev.addr.victim % 4) = some x ∧ Tab.find e.addr.entries j = some v ∧
      Tab.find e.addr.entries k = none ∧ e.regs = s.dev.regs := by
  have moved := (Dev.retrySlot_full hx hn).trans (Dev.moveVictim_moves hx hv hj)
  have free := Dev.freeWay_free hj
  have bucket : s.dev.bucket0 x < 131072 := bucketOf_lt _ _ _
  have way_slot : s.dev.bucket0 x * 4 + s.dev.addr.victim % 4 ≠ k := by omega
  have j_way : j ≠ s.dev.bucket0 x * 4 + s.dev.addr.victim % 4 := fun h => by simp [h, hv] at free
  have j_slot : j ≠ k := fun h => by simp [h, hx] at free
  refine stashRetry_completes hl hq hf hk moved (by simp [hf]) ⟨?_, ?_, Dev.eraseAddr_find_same _ _, by simp⟩
  · rw [Dev.eraseAddr_find_ne _ way_slot, Dev.setAddr_find_same]
  · rw [Dev.eraseAddr_find_ne _ j_slot, Dev.setAddr_find_ne _ _ j_way, Dev.setAddr_find_same]

/-! ### Flushes (R174) -/

theorem addrFlushDone_completes {f : AddrFlush} {later : List AddrFlush} (hl : s.dev.addrLocked = false)
    (hf : s.dev.addr.flushes = f :: later) :
    Completes (.addrFlushDone n) s n fun e =>
      e.addr.flushes = later ∧ e.regs = s.dev.regs ∧
      e.addr.entries = s.dev.addr.entries.filter fun x => x.2.static ||
        !(decide (x.1 < max f.pos 524352) && f.selects x.2 && !f.spared.contains (x.2.domain, x.2.mac)) := by
  refine completes_at rfl ?_
  simp only [hf, hl, List.isEmpty_cons, Bool.or_self, Bool.false_eq_true, if_false, Dev.flushTo]
  exact ⟨rfl, rfl, rfl⟩

/-! ### The background compare (R176) -/

/-- An occurrence of a source that is enabled and evaluated advances OCCURRENCES of the source, and no other register. -/
theorem Dev.raise_rd_enabled {o : Occurrence} (hd : d.disabled o.source = false) (hu : d.unevaluated o.source = false)
    (r : Reg) (i : Nat) : (d.raise n o).rd r i = (d.bump .occurrences o.source).rd r i := by
  unfold Dev.raise Dev.raiseAt
  rw [hd, hu]
  rfl

theorem Dev.swept_of_butFaults {e : Dev} (h : e.butFaults = d.butFaults) : e.swept = d.swept := by
  change e.butFaults.swept = d.butFaults.swept
  rw [h]

/-- The device once block `b` has been visited. -/
def Dev.visitBlock (d : Dev) (n b : Nat) : Dev := { d with swept := Tab.set 0 d.swept b n }

/-- What TABLE_SWEEP does with block `b`, the block `t` of its table. -/
def Dev.compareBlock (d : Dev) (n b : Nat) (differs : Bool) (restarts : Nat)
    (t : (Nat × Nat × Nat × Nat × Nat) × Nat) : Dev :=
  if !d.sweepDue n b then d
  else if 3 ≤ restarts then (d.visitBlock n b).bump .sweepSkipped 0
  else if differs then
    ((d.visitBlock n b).bump .compareFail 0).raise n { source := 416, access := 7, index := t.1.2.2.1, aux := t.2 }
  else d.visitBlock n b

variable {b restarts : Nat} {differs : Bool} {t : (Nat × Nat × Nat × Nat × Nat) × Nat}

theorem tableSweep_completes (ht : sweptBlock b = some t) (hp : p (s.dev.compareBlock (max s.now n) b differs restarts t)) :
    Completes (.tableSweep n b differs restarts) s n p := by
  refine completes_at (f := fun n d => d.compareBlock n b differs restarts t) ?_ hp
  change execTableSweep n b differs restarts s = _
  rw [execTableSweep, ht]
  rfl

theorem Dev.compareBlock_early (h : d.sweepDue n b = false) : d.compareBlock n b differs restarts t = d := by
  rw [Dev.compareBlock, h]
  rfl

theorem Dev.compareBlock_skipped (h : d.sweepDue n b = true) (hr : 3 ≤ restarts) :
    d.compareBlock n b differs restarts t = (d.visitBlock n b).bump .sweepSkipped 0 := by
  rw [Dev.compareBlock, h, if_pos hr]
  rfl

theorem Dev.compareBlock_agrees (h : d.sweepDue n b = true) (hr : restarts < 3) :
    d.compareBlock n b false restarts t = d.visitBlock n b := by
  rw [Dev.compareBlock, h, if_neg (Nat.not_le.2 hr)]
  rfl

theorem Dev.compareBlock_differs (h : d.sweepDue n b = true) (hr : restarts < 3) :
    d.compareBlock n b true restarts t =
      ((d.visitBlock n b).bump .compareFail 0).raise n { source := 416, access := 7, index := t.1.2.2.1, aux := t.2 } := by
  rw [Dev.compareBlock, h, if_neg (Nat.not_le.2 hr)]
  rfl

theorem Reg.modulus_compareFail : Reg.modulus .compareFail = 2 ^ 64 := by decide +kernel
theorem Reg.modulus_occurrences : Reg.modulus .occurrences = 2 ^ 64 := by decide +kernel
theorem Reg.modulus_sweepSkipped : Reg.modulus .sweepSkipped = 2 ^ 64 := by decide +kernel

theorem tableSweep_fails (ht : sweptBlock b = some t) (hd : s.dev.sweepDue (max s.now n) b = true) (hr : restarts < 3)
    (he : s.dev.disabled 416 = false) :
    Completes (.tableSweep n b true restarts) s n fun e =>
      e.rd .compareFail 0 = (s.dev.rd .compareFail 0 + 1) % 2 ^ 64 ∧
      e.rd .occurrences 416 = (s.dev.rd .occurrences 416 + 1) % 2 ^ 64 ∧
      e.swept = Tab.set 0 s.dev.swept b (max s.now n) ∧ s.dev.regsKept e [(.compareFail, 0), (.occurrences, 416)] := by
  have reads := Dev.raise_rd_enabled (d := (s.dev.visitBlock (max s.now n) b).bump .compareFail 0) (n := max s.now n)
    (o := { source := 416, access := 7, index := t.1.2.2.1, aux := t.2 }) he
    (Dev.unevaluated_of_le _ (show 256 ≤ 416 by decide))
  refine tableSweep_completes ht ?_
  rw [Dev.compareBlock_differs hd hr]
  refine ⟨?_, ?_, Dev.swept_of_butFaults (Dev.raise_butFaults _ _ _), fun r i h => ?_⟩
  · rw [reads, Dev.bump_rd_other _ _ _ (by decide)]
    exact Dev.rd_bump_counter _ 0 Reg.modulus_compareFail
  · rw [reads, Dev.rd_bump_counter _ 416 Reg.modulus_occurrences, Dev.bump_rd_other _ _ _ (by decide)]
    rfl
  · simp only [List.mem_cons, Prod.mk.injEq, List.not_mem_nil, or_false, not_or] at h
    rw [reads, Dev.rd_bump, if_neg h.2, Dev.rd_bump, if_neg h.1]
    rfl

/-- Settles O43: with no flush under way each item of work changes the place it looks at, and a free way differs from the way
and the slot that are taken. -/
theorem addressesLearnedAndSwept : Obligations.AddressesLearnedAndSwept := by
  unfold Obligations.AddressesLearnedAndSwept
  refine ⟨fun s n hl => ⟨fun domain mac kind dest rest hf hq => ⟨fun k => learnRequest_unknown hl hf hq,
      fun k x => learnRequest_known hl hf hq, fun k x => learnRequest_static hl hf hq⟩, holdSweep_completes hl,
      fun k hk x hx hs ha => ⟨fun due => ⟨fun hh => ?_, fun hh hy => ?_, fun hh ho => ?_⟩, fun early => ?_⟩⟩,
    fun s n => ⟨fun hl hq hf k x j hs hk hx => ⟨stashRetry_freeWay hl hq hf hk hx, fun v hn =>
      stashRetry_victim hl hq hf hk hs hx hn⟩, fun f rest => addrFlushDone_completes,
      fun b restarts t ht => ⟨fun hd => ⟨tableSweep_fails ht hd, fun hr => ?_, fun hr => ?_⟩, fun differs hd => ?_⟩⟩⟩
  · exact agerVisit_completes hl hk hx hs ha (by rw [if_neg (Nat.not_lt.2 due)]; exact Dev.ageVisit_hit hh)
  · exact agerVisit_completes hl hk hx hs ha (by rw [if_neg (Nat.not_lt.2 due)]; exact Dev.ageVisit_younger hh hy)
  · exact agerVisit_completes hl hk hx hs ha (by rw [if_neg (Nat.not_lt.2 due)]; exact Dev.ageVisit_oldest hh ho)
  · exact agerVisit_completes hl hk hx hs ha (if_pos early)
  · exact tableSweep_completes ht (Dev.compareBlock_agrees hd hr)
  · refine tableSweep_completes ht ?_
    rw [Dev.compareBlock_skipped hd hr]
    exact ⟨Dev.rd_bump_counter _ 0 Reg.modulus_sweepSkipped, rfl, (Dev.onlyRegs_bump _ _ _).1⟩
  · exact tableSweep_completes ht (Dev.compareBlock_early hd)

end Sys2Proof.Machine
end

section
/-!
PROOFS. What a frame that leaves the buffer changes (R155, R184-R186): its cells, its descriptor, its sample and their registers.
A fault that freeing a cell raises waits for its collector; queues and every other engine are left as they are.
-/
namespace Sys2Proof.Machine
open Sys2Proof

variable (d : Dev)

/-! ### The relation -/

/-- The registers that freeing a cell changes. -/
def cellRegs : List Reg := [.cellsFree, .bankCellsUsed, .doubleFree, .occurrences]

/-- The registers that a frame changes as it leaves the buffer. -/
def freeRegs : List Reg := cellRegs ++ [.poolUsed, .descFree, .verInflight, .sampleNext, .mirDrop]

/-- Occurrences of the hub's own sources have been caught, and await their collector (R285). -/
structure Dev.Catches (d e : Dev) : Prop where
  rest : e.faults = { d.faults with sources := e.faults.sources, arriving := e.faults.arriving }
  source : ∀ k, ∃ c, e.source k = { d.source k with capture := c }
  arriving : ∃ new, e.faults.arriving = d.faults.arriving ++ new ∧ ∀ x ∈ new, 404 ≤ x.2.2.source

/-- The device but for its registers, faults, buffers, schedulers, samples and older versions. -/
def Dev.butFrames (d : Dev) : Dev :=
  { d with
    regs := [], faults := {}, buf := {}, sched := {}, sampler := {}, older := [], mgmt := { d.mgmt with commitReady := none } }

/-- `e` is `d` after frames have left the buffer; of the registers only those of `l` have changed, and no descriptor has come. -/
structure Dev.Drops (l : List Reg) (d e : Dev) : Prop where
  rest : e.butFrames = d.butFrames
  regs : d.rdKept e l
  descs : ∀ k, d.desc k = none → e.desc k = none
  catches : d.Catches e

/-- The same, and the queues hold what they held. -/
structure Dev.Frees (l : List Reg) (d e : Dev) : Prop extends Dev.Drops l d e where
  queues : e.buf.queues = d.buf.queues

namespace Dev.Catches

variable {d e f : Dev}

theorem of_faults (h : e.faults = d.faults) : d.Catches e where
  rest := by rw [h]
  source k := ⟨(d.source k).capture, congrArg (fun x : Faults => Tab.get ({} : Source) x.sources k) h⟩
  arriving := ⟨[], by simp [h], nofun⟩

theorem trans (h : d.Catches e) (k : e.Catches f) : d.Catches f where
  rest := by rw [k.rest, h.rest]
  source i := by
    obtain ⟨a, ha⟩ := h.source i
    obtain ⟨b, hb⟩ := k.source i
    exact ⟨b, by rw [hb, ha]⟩
  arriving := by
    obtain ⟨a, ha, sa⟩ := h.arriving
    obtain ⟨b, hb, sb⟩ := k.arriving
    exact ⟨a ++ b, by rw [hb, ha, List.append_assoc], fun x hx => (List.mem_append.1 hx).elim (sa x) (sb x)⟩

/-- An occurrence of a hub source is caught. -/
theorem raiseAt (d : Dev) (n sev : Nat) {o : Occurrence} (h : 404 ≤ o.source) : d.Catches (d.raiseAt n sev o) := by
  refine ⟨?_, d.raiseAt_source n sev o, ?_⟩
  · unfold Dev.raiseAt
    split <;> rfl
  · unfold Dev.raiseAt
    split
    · exact ⟨[], (List.append_nil _).symm, nofun⟩
    · exact ⟨[(n, sev, o)], rfl, by simpa using h⟩

end Dev.Catches

namespace Dev.Drops

variable {d e f : Dev} {l : List Reg}

theorem refl (d : Dev) : d.Drops l d := ⟨rfl, fun _ _ _ => rfl, fun _ => id, .of_faults rfl⟩

theorem trans (h : d.Drops l e) (k : e.Drops l f) : d.Drops l f where
  rest := k.rest.trans h.rest
  regs r i hr := (k.regs r i hr).trans (h.regs r i hr)
  descs i := k.descs i ∘ h.descs i
  catches := h.catches.trans k.catches

theorem each {α : Type} {xs : List α} {g : Dev → α → Dev} (h : ∀ d : Dev, ∀ x ∈ xs, d.Drops l (g d x)) :
    d.Drops l (d.each xs g) :=
  Dev.each_holds (I := d.Drops l) (refl d) fun e he x hx => he.trans (h e x hx)

theorem mono (h : d.Drops l e) {m : List Reg} (hs : l ⊆ m) : d.Drops m e :=
  { h with regs := fun r i hr => h.regs r i fun x => hr (hs x) }

theorem wr (d : Dev) {r : Reg} (i v : Nat) (h : r ∈ l) : d.Drops l (d.wr r i v) :=
  ⟨rfl, fun _ _ hq => d.rd_wr_other _ _ _ fun e => hq (e ▸ h), fun _ => id, .of_faults rfl⟩

/-- Queues and schedulers are no part of a frame. -/
theorem queued (d : Dev) (q : Tab (List Nat)) (x : Sched) :
    d.Drops l { d with buf := { d.buf with queues := q }, sched := x } :=
  ⟨rfl, fun _ _ _ => rfl, fun _ => id, .of_faults rfl⟩

theorem setQueue (d : Dev) (q : Nat) (k : List Nat) : d.Drops l (d.setQueue q k) := by
  unfold Dev.setQueue
  dsimp only
  split
  · split <;> exact queued d _ _
  · exact queued d _ _

section
variable (h : d.Drops l e)
include h

theorem tree (t : Nat) : e.tree t = d.tree t := (congrArg (Dev.tree · t) h.rest :)
theorem term (g : Nat) : e.term g = d.term g := (congrArg (Dev.term · g) h.rest :)
theorem port (p : Nat) : e.port p = d.port p := (congrArg (Dev.port · p) h.rest :)
theorem lane (k : Nat) : e.lane k = d.lane k := (congrArg (Dev.lane · k) h.rest :)
theorem win (w r : Nat) : e.win w r = d.win w r := (congrArg (Dev.win · w r) h.rest :)
theorem trees : e.trees = d.trees := (congrArg Dev.trees h.rest :)
theorem ports : e.ports = d.ports := (congrArg Dev.ports h.rest :)
theorem wire : e.wire = d.wire := (congrArg Dev.wire h.rest :)

end

end Dev.Drops

namespace Dev.Frees

variable {d e f : Dev} {l : List Reg}

theorem refl (d : Dev) : d.Frees l d := ⟨.refl d, rfl⟩

theorem trans (h : d.Frees l e) (k : e.Frees l f) : d.Frees l f :=
  ⟨h.toDrops.trans k.toDrops, k.queues.trans h.queues⟩

theorem each {α : Type} {xs : List α} {g : Dev → α → Dev} (h : ∀ d : Dev, ∀ x ∈ xs, d.Frees l (g d x)) :
    d.Frees l (d.each xs g) :=
  Dev.each_holds (I := d.Frees l) (refl d) fun e he x hx => he.trans (h e x hx)

theorem mono (h : d.Frees l e) {m : List Reg} (hs : l ⊆ m) : d.Frees m e := ⟨h.toDrops.mono hs, h.queues⟩

theorem queue (h : d.Frees l e) (q : Nat) : e.queue q = d.queue q :=
  congrArg (fun t => Tab.get ([] : List Nat) t q) h.queues

theorem wr (d : Dev) {r : Reg} (i v : Nat) (h : r ∈ l) : d.Frees l (d.wr r i v) := ⟨.wr d i v h, rfl⟩

theorem bump (d : Dev) {r : Reg} (i : Nat) (h : r ∈ l) : d.Frees l (d.bump r i) := wr d i _ h

/-- Cells and chains change alone. -/
theorem cells (d : Dev) (rings : Tab Ring) (taken : List Nat) (chains : Tab Chain) :
    d.Frees l { d with buf := { d.buf with rings := rings, taken := taken, chains := chains } } :=
  ⟨⟨rfl, fun _ _ _ => rfl, fun _ => id, .of_faults rfl⟩, rfl⟩

/-- The schedulers change alone. -/
theorem sched (d : Dev) (x : Sched) : d.Frees l { d with sched := x } :=
  ⟨⟨rfl, fun _ _ _ => rfl, fun _ => id, .of_faults rfl⟩, rfl⟩

/-- The Latency Sampler's frames change alone. -/
theorem sampler (d : Dev) (x : Sampler) : d.Frees l { d with sampler := x } :=
  ⟨⟨rfl, fun _ _ _ => rfl, fun _ => id, .of_faults rfl⟩, rfl⟩

theorem raise (d : Dev) (n : Nat) {o : Occurrence} (ho : .occurrences ∈ l) (h : 404 ≤ o.source) :
    d.Frees l (d.raise n o) := by
  have buf : (d.raise n o).buf = d.buf := (congrArg Dev.buf (d.raise_butFaults n o) :)
  refine ⟨⟨?_, fun r i hr => d.raise_rd n o i fun e => hr (e ▸ ho), fun k hk => ?_, .raiseAt d n _ h⟩, ?_⟩
  · exact (congrArg Dev.butFrames (d.raise_butFaults n o) :)
  · rw [Dev.desc, buf]
    exact hk
  · rw [buf]

theorem event (d : Dev) (n index : Nat) {k : Nat} (ho : .occurrences ∈ l) (h : 404 ≤ k) : d.Frees l (d.event n k index) :=
  raise d n ho h

/-! ### Cells and chains (R184, R186) -/

theorem freeCell (d : Dev) (n c : Nat) : d.Frees cellRegs (d.freeCell n c) := by
  have back : ∀ e : Dev, e.Frees cellRegs
      ((e.add .cellsFree 0 1).wr .bankCellsUsed (c % 32) (e.rd .bankCellsUsed (c % 32) - 1)) := fun e =>
    (wr e _ _ (by decide)).trans (wr _ _ _ (by decide))
  unfold Dev.freeCell
  dsimp only
  split
  · exact (cells d _ _ _).trans (back _)
  · split
    · exact (cells d _ _ _).trans (back _)
    · exact (bump d 0 (by decide)).trans (event _ n c (by decide) (by decide))

theorem releaseChain (d : Dev) (n chain : Nat) : d.Frees freeRegs (d.releaseChain n chain) := by
  unfold Dev.releaseChain
  split
  · exact refl d
  · split
    · exact ((cells d _ _ _).trans (each fun d c _ => (freeCell d n c).mono (by decide))).trans (wr _ _ _ (by decide))
    · exact cells d _ _ _

/-! ### Descriptors (R155, R179, R184) -/

theorem settleCommit (d : Dev) (n : Nat) : d.Frees l (d.settleCommit n) := by
  unfold Dev.settleCommit
  split
  · exact ⟨⟨rfl, fun _ _ _ => rfl, fun _ => id, .of_faults rfl⟩, rfl⟩
  · exact refl d

theorem older (d : Dev) (x : List (Nat × Tables)) : d.Frees l { d with older := x } :=
  ⟨⟨rfl, fun _ _ _ => rfl, fun _ => id, .of_faults rfl⟩, rfl⟩

theorem leaveVersion (d : Dev) (n v : Nat) : d.Frees freeRegs (d.leaveVersion n v) := by
  have counted : d.Frees freeRegs (d.wr .verInflight v (d.rd .verInflight v - 1)) := wr d _ _ (by decide)
  unfold Dev.leaveVersion
  dsimp only
  split
  · exact (counted.trans (older _ _)).trans (settleCommit _ n)
  · exact counted

end Dev.Frees

/-- The buffer without descriptor `k`, a copy or none. -/
def Dev.eraseDesc (d : Dev) (k : Nat) (copy : Bool) : Dev :=
  { d with buf := { d.buf with descs := Tab.erase d.buf.descs k, copies := d.buf.copies - (if copy then 1 else 0) } }

theorem Dev.eraseDesc_gone (k : Nat) (copy : Bool) : (d.eraseDesc k copy).desc k = none := Tab.find_erase_same _ _

theorem Dev.Frees.eraseDesc {l : List Reg} (k : Nat) (copy : Bool) : d.Frees l (d.eraseDesc k copy) := by
  refine ⟨⟨rfl, fun _ _ _ => rfl, fun j hj => ?_, .of_faults rfl⟩, rfl⟩
  by_cases h : j = k
  · rw [h]
    exact d.eraseDesc_gone k copy
  · exact (Tab.find_erase_ne _ h).trans hj

/-- A descriptor that is freed is erased, and its chain and its version are released. -/
theorem Dev.freeDesc_erases {k : Nat} {x : Desc} (h : d.desc k = some x) (n : Nat) :
    (d.eraseDesc k x.copy).Frees freeRegs (d.freeDesc n k) := by
  have released := (Dev.Frees.wr (l := freeRegs) (d.eraseDesc k x.copy) (r := .descFree) 0 (d.rd .descFree 0 + 1)
    (by decide)).trans (.releaseChain _ n x.chain)
  unfold Dev.freeDesc
  rw [h]
  dsimp only
  split
  · exact released
  · exact released.trans (.leaveVersion _ n x.version)

theorem Dev.freeDesc_gone (n k : Nat) : (d.freeDesc n k).desc k = none := by
  cases h : d.desc k with
  | none =>
    rw [Dev.freeDesc, h]
    exact h
  | some x => exact (d.freeDesc_erases h n).descs k (d.eraseDesc_gone k x.copy)

namespace Dev.Frees

theorem freeDesc (d : Dev) (n k : Nat) : d.Frees freeRegs (d.freeDesc n k) := by
  cases h : d.desc k with
  | none =>
    rw [Dev.freeDesc, h]
    exact refl d
  | some x => exact (eraseDesc d k x.copy).trans (d.freeDesc_erases h n)

theorem follow {l : List Reg} (d : Dev) (id : Option Nat) (f : Followed → Followed) : d.Frees l (d.follow id f) := by
  unfold Dev.follow
  split
  · exact refl d
  · exact sampler d _

theorem sampleDone (d : Dev) (id : Option Nat) (outcome : Nat) : d.Frees freeRegs (d.sampleDone id outcome) := by
  unfold Dev.sampleDone
  split
  · exact refl d
  · split
    · exact refl d
    · exact (sampler d _).trans (wr _ _ _ (by decide))

/-- What is counted or sampled of a frame that is dropped (R185, R298). -/
theorem noted (d : Dev) (x : Desc) (outcome : Nat) :
    d.Frees freeRegs (if x.copy then d.bump .mirDrop x.mirror else d.sampleDone x.sampled outcome) := by
  split
  · exact bump d _ (by decide)
  · exact sampleDone d _ _

theorem dropDesc (d : Dev) (n k outcome : Nat) : d.Frees freeRegs (d.dropDesc n k outcome) := by
  unfold Dev.dropDesc
  split
  · exact refl d
  · exact (noted d _ outcome).trans (freeDesc _ n k)

end Dev.Frees

theorem Dev.dropDesc_gone (n k outcome : Nat) : (d.dropDesc n k outcome).desc k = none := by
  unfold Dev.dropDesc
  split
  · assumption
  · exact Dev.freeDesc_gone _ n k

/-! ### Counters of 64 bits -/

/-- What a counter reads after `k` counts from `v` (R292). -/
def counted (v k : Nat) : Nat := if k = 0 then v else (v + k) % 2 ^ 64

@[simp] theorem counted_zero (v : Nat) : counted v 0 = v := rfl

theorem counted_of_ne_zero {v k : Nat} (h : k ≠ 0) : counted v k = (v + k) % 2 ^ 64 := if_neg h

theorem counted_counted (v j k : Nat) : counted (counted v j) k = counted v (j + k) := by
  rcases Nat.eq_zero_or_pos k with rfl | hk
  · rfl
  · rw [counted_of_ne_zero hk.ne', counted_of_ne_zero (k := j + k) (by omega), counted]
    split
    · next hj => rw [hj, Nat.zero_add]
    · rw [Nat.mod_add_mod, Nat.add_assoc]

/-- Steps that each count add their counts up. -/
theorem Dev.each_counted {α : Type} {r : Reg} {i : Nat} {xs : List α} {f : Dev → α → Dev}
    (h : ∀ d, ∀ x ∈ xs, (f d x).rd r i = counted (d.rd r i) 1) :
    (d.each xs f).rd r i = counted (d.rd r i) xs.length := by
  induction xs generalizing d with
  | nil => rfl
  | cons x xs ih =>
    rw [Dev.each_cons, ih _ fun d y hy => h d y (List.mem_cons_of_mem _ hy), h d x List.mem_cons_self, counted_counted,
      Nat.add_comm, List.length_cons]

/-! ### Queues flushed (R193, R194) -/

theorem Dev.queue_setQueue (q x : Nat) (l : List Nat) : (d.setQueue q l).queue x = if x = q then l else d.queue x := by
  have read : ∀ s : Sched, ({ d with buf := { d.buf with queues := Tab.set [] d.buf.queues q l }, sched := s } : Dev).queue x =
      if x = q then l else d.queue x := fun s => by
    split
    · next h => rw [h]; exact Tab.get_set_same _ _ _ _
    · next h => exact Tab.get_set_ne _ _ _ _ h
  unfold Dev.setQueue
  dsimp only
  split
  · split <;> exact read _
  · exact read _

/-- What flushing queue `q` into counter `r` of `i` does. -/
structure Dev.Flushed (d e : Dev) (r : Reg) (i : Nat) (qs : List Nat) : Prop where
  drops : d.Drops (r :: freeRegs) e
  queue : ∀ x, e.queue x = if x ∈ qs then [] else d.queue x
  count : e.rd r i = counted (d.rd r i) (qs.map fun q => (d.queue q).length).sum
  others : ∀ j, j ≠ i → e.rd r j = d.rd r j

theorem Dev.flushQueue_flushed (n q : Nat) {r : Reg} (i : Nat) (hm : r.modulus = 2 ^ 64) (hr : r ∉ freeRegs) :
    d.Flushed (d.flushQueue n q fun d => d.bump r i) r i [q] := by
  have emptied := Dev.Drops.setQueue (l := r :: freeRegs) d q []
  have frees : ∀ (e : Dev) k, e.Frees (r :: freeRegs) ((e.dropDesc n k 6).bump r i) := fun e k =>
    ((Dev.Frees.dropDesc e n k 6).mono (List.subset_cons_self _ _)).trans (.bump _ i List.mem_cons_self)
  have all : (d.setQueue q []).Frees (r :: freeRegs) (d.flushQueue n q fun d => d.bump r i) := .each fun e k _ => frees e k
  have empty : (d.setQueue q []).rd r i = d.rd r i := (Dev.Drops.setQueue (l := freeRegs) d q []).regs r i hr
  refine ⟨emptied.trans all.toDrops, fun x => ?_, ?_, fun j hj => ?_⟩
  · rw [all.queue, Dev.queue_setQueue]
    simp only [List.mem_singleton]
  · refine (Dev.each_counted _ (r := r) (i := i) fun e k _ => ?_).trans ?_
    · rw [Dev.rd_bump_counter _ i hm, (Dev.Frees.dropDesc e n k 6).regs r i hr]
      rfl
    · rw [empty, List.map_singleton, List.sum_singleton]
  · refine (Dev.each_keeps (p := fun e => e.rd r j) _ fun e k _ => ?_).trans
      ((Dev.Drops.setQueue (l := freeRegs) d q []).regs r j hr)
    rw [Dev.rd_bump, if_neg fun h => hj h.2, (Dev.Frees.dropDesc e n k 6).regs r j hr]

theorem Dev.each_flushed (n : Nat) {r : Reg} (i : Nat) (hm : r.modulus = 2 ^ 64) (hr : r ∉ freeRegs) {qs : List Nat}
    (hq : qs.Nodup) : d.Flushed (d.each qs fun d q => d.flushQueue n q fun d => d.bump r i) r i qs := by
  induction qs generalizing d with
  | nil => exact ⟨.refl d, fun x => by simp, rfl, fun _ _ => rfl⟩
  | cons q qs ih =>
    obtain ⟨fresh, distinct⟩ := List.nodup_cons.1 hq
    have one := d.flushQueue_flushed n q i hm hr
    have rest := ih (d.flushQueue n q fun d => d.bump r i) distinct
    have kept : ∀ x ∈ qs, (d.flushQueue n q fun d => d.bump r i).queue x = d.queue x := fun x hx =>
      (one.queue x).trans (if_neg fun h => fresh (by rwa [← List.mem_singleton.1 h]))
    refine ⟨one.drops.trans rest.drops, fun x => ?_, ?_, fun j hj => (rest.others j hj).trans (one.others j hj)⟩
    · rw [Dev.each_cons, rest.queue, one.queue]
      by_cases h : x ∈ qs <;> by_cases hx : x = q <;> simp [h, hx]
    · rw [Dev.each_cons, rest.count, one.count, counted_counted, List.map_singleton, List.sum_singleton, List.map_cons,
        List.sum_cons, List.map_congr_left fun x hx => congrArg List.length (kept x hx)]

/-- The eight queues from `base` on. -/
def eightQueues (base : Nat) : List Nat := (List.range 8).map (base + ·)

theorem eightQueues_nodup (base : Nat) : (eightQueues base).Nodup :=
  List.nodup_range.map fun _ _ h => Nat.add_left_cancel h

theorem mem_eightQueues {base k : Nat} (h : k < 8) : base + k ∈ eightQueues base :=
  List.mem_map.2 ⟨k, List.mem_range.2 h, rfl⟩

/-- The frames that the eight queues hold. -/
def Dev.framesIn (base : Nat) : Nat := ((List.range 8).map fun k => (d.queue (base + k)).length).sum

theorem Dev.framesIn_eq (base : Nat) : ((eightQueues base).map fun q => (d.queue q).length).sum = d.framesIn base := by
  rw [eightQueues, List.map_map]
  rfl

theorem Reg.modulus_flushedFrames : Reg.modulus .flushedFrames = 2 ^ 64 := by decide +kernel
theorem Reg.modulus_termFlushed : Reg.modulus .termFlushed = 2 ^ 64 := by decide +kernel

theorem Dev.flushPort_flushed (n p : Nat) :
    d.Flushed (d.flushPort n p) .flushedFrames p (eightQueues (131072 + p * 8)) := by
  have all := d.each_flushed n p Reg.modulus_flushedFrames (by decide) (eightQueues_nodup (131072 + p * 8))
  rwa [eightQueues, Dev.each, List.foldl_map] at all

theorem Dev.flushTerm_flushed (n g : Nat) : d.Flushed (d.flushTerm n g) .termFlushed g (eightQueues (g * 8)) := by
  have all := d.each_flushed n g Reg.modulus_termFlushed (by decide) (eightQueues_nodup (g * 8))
  rwa [eightQueues, Dev.each, List.foldl_map] at all

end Sys2Proof.Machine
end

section
/-!
PROOFS. The Leak Auditor's sweeps (R189, R190), holds that have run their time (R193, R194) and buckets that go back to their
member (R198).
-/
namespace Sys2Proof.Machine
open Sys2Proof

variable (d : Dev)

/-! ### Sends that have ended (R184) -/

theorem Dev.settleSend_butBuffers (n p : Nat) : (d.settleSend n p).butBuffers = d.butBuffers := by
  unfold Dev.settleSend
  split
  · rfl
  · split
    · simp
    · rfl

theorem Dev.settleSends_butBuffers (n : Nat) : (d.settleSends n).butBuffers = d.butBuffers :=
  d.each_keeps Dev.butBuffers fun d p _ => d.settleSend_butBuffers n p

theorem Dev.unbuffered_settleSends (n : Nat) : (d.settleSends n).unbuffered = d.unbuffered :=
  d.each_keeps Dev.unbuffered fun d p _ => d.unbuffered_settleSend n p

/-! ### A sweep (R189) -/

/-- The cells in use that no chain owns. -/
def Dev.leakedCells (d : Dev) : List Nat := d.usedCells.filter fun c => !d.ownedCells.contains c

/-- The leaked cells that the sweep before had noted. -/
def Dev.leakedAgain (d : Dev) : List Nat := d.leakedCells.filter d.buf.noted.contains

/-- The registers that a repair changes but those of what is reclaimed. -/
def fixRegs : List Reg := cellRegs ++ [.doubleOwned, .crossOwned]

/-- The registers that the repairs of a sweep change. -/
def mendRegs : List Reg := fixRegs ++ [.leakReclaimed, .poolUsed]

theorem Dev.Frees.fixDoubleOwned (n c : Nat) : d.Frees fixRegs (d.fixDoubleOwned n c) := by
  have removed : d.Frees fixRegs (d.removeFree c) := by
    unfold Dev.removeFree
    dsimp only
    split
    · exact ((Dev.Frees.cells d _ _ _).trans (.wr _ _ _ (by decide))).trans (.bump _ _ (by decide))
    · exact ((Dev.Frees.cells d _ _ _).trans (.wr _ _ _ (by decide))).trans (.bump _ _ (by decide))
  exact (removed.trans (.bump _ 0 (by decide))).trans (.event _ n c (by decide) (by decide))

/-- A descriptor marked where it stands is no new one. -/
theorem Dev.Frees.mapDescs {l : List Reg} (f : Desc → Desc) :
    d.Frees l { d with buf := { d.buf with descs := d.buf.descs.map fun p => (p.1, f p.2) } } := by
  refine ⟨⟨rfl, fun _ _ _ => rfl, fun k hk => ?_, .of_faults rfl⟩, rfl⟩
  change Tab.find (d.buf.descs.map fun p => (p.1, f p.2)) k = none
  rw [Tab.find_mapValues, show Tab.find d.buf.descs k = none from hk]
  rfl

theorem Dev.Frees.fixCrossOwned (n c : Nat) : d.Frees fixRegs (d.fixCrossOwned n c) :=
  ((Dev.Frees.mapDescs d fun x => if (d.chainsOf c).contains x.chain then { x with poison := true } else x).trans
    (.bump _ 0 (by decide))).trans (.event _ n c (by decide) (by decide))

theorem Dev.Frees.reclaim (n c : Nat) : d.Frees mendRegs (d.reclaim n c) :=
  (((Dev.Frees.freeCell d n c).mono (by decide)).trans (.bump _ 0 (by decide))).trans
    (.event _ n c (by decide) (by decide))

theorem Reg.modulus_leakReclaimed : Reg.modulus .leakReclaimed = 2 ^ 64 := by decide +kernel
theorem Reg.modulus_sweeps : Reg.modulus .sweeps = 2 ^ 64 := by decide +kernel

theorem Dev.reclaim_counts (n c : Nat) : (d.reclaim n c).rd .leakReclaimed 0 = counted (d.rd .leakReclaimed 0) 1 := by
  rw [Dev.reclaim, Dev.event_rd _ _ _ _ _ (by decide), Dev.rd_bump_counter _ 0 Reg.modulus_leakReclaimed,
    (Dev.Frees.freeCell d n c).regs _ _ (by decide)]
  rfl

theorem Dev.Frees.repairPools : d.Frees [.poolUsed] d.repairPools := .each fun d _ _ => .wr d _ _ (by decide)

/-- Cells owned twice or owned and free, put right. -/
def Dev.fixOwners (d : Dev) (n : Nat) : Dev :=
  let e := d.each (d.ownedCells.dedup.filter d.cellFree) fun d c => d.fixDoubleOwned n c
  e.each ((sharedCells e.ownedChains).filter fun c => !e.cellPoisoned c) fun d c => d.fixCrossOwned n c

/-- Leaked cells returned to the store, where there are any. -/
def Dev.reclaimAll (d : Dev) (n : Nat) (cells : List Nat) : Dev :=
  if cells.isEmpty then d
  else (({ d with buf := { d.buf with chains := d.ownedChains } } : Dev).each cells fun d c => d.reclaim n c).repairPools

theorem Dev.Frees.fixOwners (n : Nat) : d.Frees fixRegs (d.fixOwners n) :=
  (Dev.Frees.each fun d c _ => .fixDoubleOwned d n c).trans (.each fun d c _ => .fixCrossOwned d n c)

theorem Dev.Frees.reclaimAll (n : Nat) (cells : List Nat) : d.Frees mendRegs (d.reclaimAll n cells) := by
  unfold Dev.reclaimAll
  split
  · exact .refl d
  · exact ((Dev.Frees.cells d _ _ _).trans (.each fun d c _ => .reclaim d n c)).trans
      ((Dev.Frees.repairPools _).mono (by decide))

theorem Dev.reclaimAll_counts (n : Nat) (cells : List Nat) :
    (d.reclaimAll n cells).rd .leakReclaimed 0 = counted (d.rd .leakReclaimed 0) cells.length := by
  unfold Dev.reclaimAll
  split
  · next none => rw [List.isEmpty_iff.1 none, List.length_nil, counted_zero]
  · exact ((Dev.Frees.repairPools _).regs _ 0 (by decide)).trans (Dev.each_counted _ fun d c _ => d.reclaim_counts n c)

/-- The cells that the next sweep compares with. -/
def Dev.note (d : Dev) (cells : List Nat) : Dev := { d with buf := { d.buf with noted := cells } }

theorem Dev.Frees.note {l : List Reg} (cells : List Nat) : d.Frees l (d.note cells) :=
  ⟨⟨rfl, fun _ _ _ => rfl, fun _ => id, .of_faults rfl⟩, rfl⟩

theorem Dev.sweep_eq (n : Nat) : d.sweep n =
    ((((d.settleSends n).fixOwners n).reclaimAll n (d.settleSends n).leakedAgain).note
      ((d.settleSends n).leakedCells.filter fun c => !(d.settleSends n).leakedAgain.contains c)).bump .sweeps 0 := by
  unfold Dev.sweep
  generalize d.settleSends n = a
  extract_lets a' owned leaked again b c kept unowned returned e
  have fixed : a.fixOwners n = c := rfl
  have found : a.leakedAgain = again := rfl
  have leaks : a.leakedCells = leaked := rfl
  rw [fixed, found, leaks]
  have mended : c.reclaimAll n again = e := by
    clear_value c again
    rfl
  rw [mended]
  clear_value e again leaked
  rfl

/-- What a sweep leaves of the device that it finds. -/
structure Dev.Swept (d e : Dev) : Prop where
  frees : d.Frees (.sweeps :: mendRegs) e
  sweeps : e.rd .sweeps 0 = (d.rd .sweeps 0 + 1) % 2 ^ 64
  noted : e.buf.noted = d.leakedCells.filter fun c => !d.leakedAgain.contains c
  reclaimed : e.rd .leakReclaimed 0 = counted (d.rd .leakReclaimed 0) d.leakedAgain.length

theorem Dev.sweep_swept (n : Nat) : (d.settleSends n).Swept (d.sweep n) := by
  rw [Dev.sweep_eq]
  generalize d.settleSends n = a
  have fixed := Dev.Frees.fixOwners a n
  have noted := ((fixed.mono (m := mendRegs) (by decide)).trans (.reclaimAll _ n a.leakedAgain)).trans
    (.note _ (a.leakedCells.filter fun c => !a.leakedAgain.contains c))
  refine ⟨(noted.mono (List.subset_cons_self _ _)).trans (.bump _ 0 List.mem_cons_self), ?_, rfl, ?_⟩
  · rw [Dev.rd_bump_counter _ 0 Reg.modulus_sweeps, noted.regs _ 0 (by decide)]
  · rw [Dev.bump_rd_other _ _ _ (by decide), ← fixed.regs _ 0 (by decide)]
    exact (a.fixOwners n).reclaimAll_counts n a.leakedAgain

/-! ### LEAK_SWEEP and AUDIT_DONE -/

theorem Dev.sweep_mgmt (n : Nat) :
    (d.sweep n).mgmt.longOp = d.mgmt.longOp ∧ (d.sweep n).mgmt.waitingOps = d.mgmt.waitingOps := by
  have swept := (d.sweep_swept n).frees.rest
  have settled := d.settleSends_butBuffers n
  have longOp := (congrArg (·.mgmt.longOp) swept :).trans (congrArg (·.mgmt.longOp) settled :)
  have waiting := (congrArg (·.mgmt.waitingOps) swept :).trans (congrArg (·.mgmt.waitingOps) settled :)
  exact ⟨longOp, waiting⟩

theorem Dev.sweep_counts (n : Nat) : (d.sweep n).rd .sweeps 0 = (d.rd .sweeps 0 + 1) % 2 ^ 64 := by
  rw [(d.sweep_swept n).sweeps, Dev.rd_of_unbuffered (d.unbuffered_settleSends n) 0 (by decide)]

section
variable {s : State} {n : Nat}

theorem leakSweep_completes {p : Dev → Prop} (h : s.dev.opRuns 5 = false)
    (hp : ∀ e, (s.dev.settleSends (max s.now n)).Swept e → p e) : Completes (.leakSweep n) s n p := by
  refine completes_at rfl ?_
  rw [h]
  exact hp _ (s.dev.sweep_swept _)

theorem leakSweep_waits (h : s.dev.opRuns 5 = true) : Completes (.leakSweep n) s n fun e => e = s.dev :=
  completes_at rfl (if_pos h)

theorem auditDone_ends (h : s.dev.opRuns 5 = true) (hw : s.dev.mgmt.waitingOps = []) :
    Completes (.auditDone n) s n fun e =>
      e.rd .sweeps 0 = (s.dev.rd .sweeps 0 + 2) % 2 ^ 64 ∧ e.mgmt.longOp = none ∧
      e.rd .auditStatus 0 = (if e.repairs = s.dev.repairs then 1 else 2) := by
  obtain ⟨o, running, -⟩ := s.dev.opRuns_iff.1 h
  refine completes_at rfl ?_
  rw [if_pos h]
  generalize max s.now n = k
  have count := ((s.dev.sweep k).sweep_counts k).trans (by rw [s.dev.sweep_counts k, Nat.mod_add_mod])
  have running := ((s.dev.sweep k).sweep_mgmt k).1.trans ((s.dev.sweep_mgmt k).1.trans running)
  have waiting := ((s.dev.sweep k).sweep_mgmt k).2.trans ((s.dev.sweep_mgmt k).2.trans hw)
  generalize (s.dev.sweep k).sweep k = a at *
  change (fun e : Dev => e.rd .sweeps 0 = _ ∧ e.mgmt.longOp = none ∧ e.rd .auditStatus 0 = if e.repairs = _ then 1 else 2)
    ((a.wr .auditStatus 0 (if a.repairs = s.dev.repairs then 1 else 2)).endOp k)
  generalize hv : (if a.repairs = s.dev.repairs then 1 else 2) = v
  have kept := (a.wr .auditStatus 0 v).endOp_regsKept k running waiting
  have reads : ∀ r, (r, 0) ∉ [(Reg.longOps, 0), (.lastLongOp, 0), (.lastLongMs, 0)] → r ≠ .auditStatus →
      ((a.wr .auditStatus 0 v).endOp k).rd r 0 = a.rd r 0 := fun r hr hs =>
    (kept r 0 hr).trans (a.rd_wr_other 0 0 v hs)
  have repairs : ((a.wr .auditStatus 0 v).endOp k).repairs = a.repairs := by
    unfold Dev.repairs
    rw [reads _ (by decide) (by decide), reads _ (by decide) (by decide), reads _ (by decide) (by decide)]
  refine ⟨(reads _ (by decide) (by decide)).trans count, ((a.wr .auditStatus 0 v).endOp_rules k running waiting).2, ?_⟩
  rw [repairs, hv, kept _ _ (by decide), Dev.rd_wr_same, ← hv]
  split <;> decide +kernel

end

/-! ### Holds that end (R193, R194) -/

theorem Reg.modulus_holdState : Reg.modulus .holdState = 256 := by decide +kernel

/-- A port whose queues have been flushed. -/
structure Dev.PortFlushed (d e : Dev) (p : Nat) : Prop where
  state : e.rd .holdState p = 2
  hold : (e.port p).hold = none
  empty : ∀ q < 8, e.queue (upQueue p q) = []
  count : e.rd .flushedFrames p = counted (d.rd .flushedFrames p) (d.framesIn (131072 + p * 8))

theorem Dev.endPortHold_flushes (n p : Nat) : d.PortFlushed (d.endPortHold n p) p := by
  have flushed := ((d.wr .holdState p 2).modPort p fun x => { x with hold := none }).flushPort_flushed n p
  refine ⟨?_, ?_, fun q hq => ?_, ?_⟩
  · exact (flushed.drops.regs _ _ (by decide)).trans (d.rd_wr_same .holdState p 2)
  · rw [Dev.endPortHold, flushed.drops.port, Dev.port_modPort, if_pos rfl]
  · exact (flushed.queue _).trans (if_pos (mem_eightQueues hq))
  · refine flushed.count.trans ?_
    rw [Dev.framesIn_eq]
    exact congrArg (counted · (d.framesIn (131072 + p * 8))) (d.rd_wr_other (r := .holdState) p p 2 (by decide))

/-- A terminal whose queues have been flushed. -/
structure Dev.TermFlushed (d e : Dev) (g : Nat) : Prop where
  hold : (e.term g).hold = none
  empty : ∀ q < 8, e.queue (downQueue g q) = []
  count : e.rd .termFlushed g = counted (d.rd .termFlushed g) (d.framesIn (g * 8))

theorem Dev.endTermHold_flushes (n g : Nat) : d.TermFlushed (d.endTermHold n g) g := by
  have flushed := (d.modTerm g fun x => { x with hold := none }).flushTerm_flushed n g
  refine ⟨?_, fun q hq => (flushed.queue _).trans (if_pos (mem_eightQueues hq)), ?_⟩
  · rw [Dev.endTermHold, flushed.drops.term, Dev.term_modTerm, if_pos rfl]
  · refine flushed.count.trans ?_
    rw [Dev.framesIn_eq]
    rfl

section
variable {s : State} {n since ms : Nat}

theorem portHoldExpiry_flushes {p : Nat} {q : Dev → Prop} (hp : p < 16) (hh : (s.dev.port p).hold = some (since, ms))
    (hd : since + msTicks ms ≤ max s.now n) (hq : ∀ e, s.dev.PortFlushed e p → q e) :
    Completes (.portHoldExpiry n p) s n q := by
  refine completes_onElement rfl hp ?_
  rw [Dev.settlePortHold, hh]
  dsimp only
  rw [if_pos hd]
  exact hq _ (s.dev.endPortHold_flushes _ p)

theorem termHoldExpiry_flushes {g : Nat} {q : Dev → Prop} (hg : g < 16384) (hh : (s.dev.term g).hold = some (since, ms))
    (hd : since + msTicks ms ≤ max s.now n) (hq : ∀ e, s.dev.TermFlushed e g → q e) :
    Completes (.termHoldExpiry n g) s n q := by
  refine completes_onElement rfl hg ?_
  rw [Dev.settleTermHold, hh]
  dsimp only
  rw [if_pos hd]
  exact hq _ (s.dev.endTermHold_flushes _ g)

end

/-! ### Buckets that go back (R198) -/

theorem Dev.each_setWin_win (w v : Nat) (hw : w < 65536) (l : List Nat) (b : Nat) :
    (d.each l fun d k => d.setWin w k v).win w b = if b ∈ l then v else d.win w b := by
  induction l generalizing d with
  | nil => simp
  | cons k l ih =>
    rw [Dev.each_cons, ih, Dev.win_setWin _ _ _ _ hw hw]
    by_cases hb : b ∈ l <;> by_cases hk : b = k <;> simp [hb, hk]

theorem lagRevert_returns {s : State} {n g p due : Nat} (hg : g < 8) (hp : p < 16)
    (hr : (s.dev.port p).revertAt = some due) (hd : due ≤ max s.now n) (hm : s.dev.groupOfPort p = some g) :
    Completes (.lagRevert n g p) s n fun e =>
      (e.port p).revertAt = none ∧ (e.port p).lost = [] ∧ e.regs = s.dev.regs ∧
      ∀ b < 2048, e.win 0x3701 b = (if b ∈ (s.dev.port p).lost then p else s.dev.win 0x3701 b) := by
  refine completes_at (if_pos ⟨hg, hp⟩) ?_
  rw [hr]
  dsimp only
  rw [if_pos ⟨hd, hm⟩]
  have settled : ((s.dev.modPort p fun x => { x with revertAt := none }).port p).lost = (s.dev.port p).lost := by
    rw [Dev.port_modPort, if_pos rfl]
  unfold Dev.revertBuckets
  rw [settled]
  generalize hb : (s.dev.modPort p fun x => { x with revertAt := none }).modPort p (fun x => { x with lost := [] }) = b
  have port : (b.each (s.dev.port p).lost fun d k => d.setWin 0x3701 k p).port p = b.port p :=
    b.each_keeps (fun e => e.port p) fun _ _ _ => rfl
  have freed : b.port p = { s.dev.port p with revertAt := none, lost := [] } := by
    rw [← hb, Dev.port_modPort, if_pos rfl, Dev.port_modPort, if_pos rfl]
  have regs : (b.each (s.dev.port p).lost fun d k => d.setWin 0x3701 k p).regs = b.regs :=
    b.each_keeps Dev.regs fun _ _ _ => rfl
  refine ⟨?_, ?_, ?_, fun k _ => ?_⟩
  · rw [port, freed]
  · rw [port, freed]
  · rw [regs, ← hb]
    rfl
  · rw [Dev.each_setWin_win _ _ _ (by decide), ← hb]
    rfl

/-- Settles O44: a sweep repairs owners and returns cells without touching a queue, and a hold that ends counts each frame of its
eight queues once. -/
theorem bufferSweepsAndHolds : Obligations.BufferSweepsAndHolds := by
  unfold Obligations.BufferSweepsAndHolds
  refine ⟨fun s n => ⟨fun h => leakSweep_completes h fun e he => ⟨he.sweeps, he.noted, fun none => ?_, fun some => ?_,
      he.frees.queues, fun r i hr => he.frees.regs r i fun hx => hr ?_⟩, leakSweep_waits, auditDone_ends⟩,
    fun s n => ⟨fun p hp since ms hh hd => portHoldExpiry_flushes hp hh hd fun e he =>
        ⟨he.hold, he.state, he.empty, fun some => he.count.trans (counted_of_ne_zero some)⟩,
      fun g hg since ms hh hd => termHoldExpiry_flushes hg hh hd fun e he =>
        ⟨he.hold, he.empty, fun some => he.count.trans (counted_of_ne_zero some)⟩,
      fun g hg p hp due => lagRevert_returns hg hp⟩⟩
  · exact he.reclaimed.trans (by rw [show (s.dev.settleSends (max s.now n)).leakedAgain = [] from none]; rfl)
  · exact he.reclaimed.trans (counted_of_ne_zero fun h => some (List.length_eq_zero_iff.1 h))
  · have same : ∀ r ∈ Reg.sweeps :: mendRegs, r ∈ [Reg.sweeps, .leakReclaimed, .doubleOwned, .crossOwned, .doubleFree,
      .occurrences, .cellsFree, .bankCellsUsed, .poolUsed] := by decide
    exact same r hx

end Sys2Proof.Machine
end

section
/-!
PROOFS. What a schedule decision does with the head that it takes (R202, R203): it leaves, or it is dropped (R211, R212).
-/
namespace Sys2Proof.Machine
open Sys2Proof

variable (d : Dev)

theorem Reg.modulus_txFrames : Reg.modulus .txFrames = 2 ^ 64 := by decide +kernel
theorem Reg.modulus_treeTxFrames : Reg.modulus .treeTxFrames = 2 ^ 64 := by decide +kernel
theorem Reg.modulus_isolationDrop : Reg.modulus .isolationDrop = 2 ^ 64 := by decide +kernel
theorem Reg.modulus_permitEcc : Reg.modulus .permitEcc = 2 ^ 64 := by decide +kernel

/-! ### Taking a head changes queues, schedulers and samples alone -/

/-- The device but for its queues, schedulers and samples. -/
def Dev.butQueues (d : Dev) : Dev := { d with buf := { d.buf with queues := [] }, sched := {}, sampler := {} }

section
variable {d} {e : Dev} (h : e.butQueues = d.butQueues)
include h

theorem Dev.rd_of_butQueues (r : Reg) (i : Nat) : e.rd r i = d.rd r i := (congrArg (Dev.rd · r i) h :)

theorem Dev.wire_of_butQueues : e.wire = d.wire := (congrArg Dev.wire h :)

theorem Dev.trees_of_butQueues : e.trees = d.trees := (congrArg Dev.trees h :)

theorem Dev.desc_of_butQueues (k : Nat) : e.desc k = d.desc k := (congrArg (Dev.desc · k) h :)

theorem Dev.permitted_of_butQueues (q k : Nat) : e.permitted q k = d.permitted q k := (congrArg (Dev.permitted · q k) h :)

theorem Dev.finish_of_butQueues (x : Desc) : e.finish x (e.chainOf x).bytes = d.finish x (d.chainOf x).bytes :=
  (congrArg (fun y => Dev.finish y x (y.chainOf x).bytes) h :)

end

theorem Dev.setQueue_butQueues (q : Nat) (l : List Nat) : (d.setQueue q l).butQueues = d.butQueues := by
  unfold Dev.setQueue
  dsimp only
  split
  · split <;> rfl
  · rfl

theorem Dev.setQueue_permitBad (q : Nat) (l : List Nat) : (d.setQueue q l).sched.permitBad = d.sched.permitBad := by
  unfold Dev.setQueue
  dsimp only
  split
  · split <;> rfl
  · rfl

theorem Dev.follow_butQueues (id : Option Nat) (f : Followed → Followed) : (d.follow id f).butQueues = d.butQueues := by
  unfold Dev.follow
  split <;> rfl

theorem Dev.follow_sched (id : Option Nat) (f : Followed → Followed) : (d.follow id f).sched = d.sched := by
  unfold Dev.follow
  split <;> rfl

/-- The round-robin state is the schedulers' own. -/
theorem Dev.commitChoice_sched (c : Choice) :
    ∃ s, d.commitChoice c = { d with sched := s } ∧ s.permitBad = d.sched.permitBad := by
  obtain ⟨q, weighted, terminal, phase2, path⟩ := c
  cases weighted <;> cases terminal <;> cases phase2 <;> exact ⟨_, rfl, rfl⟩

/-! ### A frame that leaves -/

/-- The path of choice `c` charged with frame `x`, and the frame's delay kept (R202, R205, R214). -/
def Dev.charged (d : Dev) (n : Nat) (c : Choice) (x : Desc) : Dev :=
  let len := d.chargedLength c.queue x
  let d := d.each c.path fun d s => d.takeTokens n s len
  let charge : Tab Int → Nat → Tab Int := fun t i => Tab.set 0 t i (Tab.get 0 t i - len)
  let d := if c.weighted.isSome && !(d.queue c.queue).isEmpty then
      { d with sched := { d.sched with deficits := charge d.sched.deficits c.queue } } else d
  let d := match c.terminal with
    | some g =>
      if c.phase2.isSome && (List.range 8).any (fun q => !(d.queue (downQueue g q)).isEmpty) then
        { d with sched := { d.sched with termDeficits := charge d.sched.termDeficits g } }
      else d
    | none => d
  d.modStat c.queue fun y => y.sent n (delayNs ((n + 2 ^ 48 - x.arrival) % 2 ^ 48))

/-- The device but for its schedulers. -/
def Dev.butSched (d : Dev) : Dev := { d with sched := {} }

theorem Dev.takeTokens_butSched (n : Nat) (s : Shaper) (len : Nat) : (d.takeTokens n s len).butSched = d.butSched := by
  unfold Dev.takeTokens
  split <;> rfl

theorem Dev.charged_butSched (n : Nat) (c : Choice) (x : Desc) : (d.charged n c x).butSched = d.butSched := by
  have tokens : ∀ len, (d.each c.path fun d s => d.takeTokens n s len).butSched = d.butSched := fun len =>
    d.each_keeps Dev.butSched fun d s _ => d.takeTokens_butSched n s len
  have deficits : ∀ (e : Dev) (b : Bool) (s : Sched), (if b then { e with sched := s } else e : Dev).butSched = e.butSched :=
    fun e b s => by cases b <;> rfl
  unfold Dev.charged
  extract_lets len a charge _ b _ e
  have first : b.butSched = d.butSched := (deficits a _ _).trans (tokens len)
  have second : e.butSched = b.butSched := by
    unfold e
    split
    · exact deficits b _ _
    · rfl
  exact second.trans first

theorem Dev.charged_butQueues (n : Nat) (c : Choice) (x : Desc) : (d.charged n c x).butQueues = d.butQueues :=
  (congrArg Dev.butQueues (d.charged_butSched n c x) :)

theorem Dev.charged_queue (n : Nat) (c : Choice) (x : Desc) (q : Nat) : (d.charged n c x).queue q = d.queue q :=
  (congrArg (Dev.queue · q) (d.charged_butSched n c x) :)

/-- A frame to the host leaves with its bytes as finished. -/
theorem Dev.sendFrame_host (n ps k : Nat) (c : Choice) (x : Desc) :
    (d.sendFrame n ps k .host c x).wire = d.wire ++ [.hostFrame (d.finish x (d.chainOf x).bytes)] ∧
    ∀ q, (d.sendFrame n ps k .host c x).queue q = d.queue q := by
  have same := d.charged_butQueues n c x
  have queue := d.charged_queue n c x
  have sent : d.sendFrame n ps k .host c x =
      ((((d.charged n c x).follow x.sampled fun y => { y with outFirst := n - y.t0, outLast := n - y.t0 }).emit
        (.hostFrame ((d.charged n c x).finish x ((d.charged n c x).chainOf x).bytes))).sampleDone x.sampled 0).freeDesc n k := rfl
  rw [sent, Dev.finish_of_butQueues same]
  generalize d.charged n c x = a at *
  have followed := Dev.Frees.follow (l := []) a x.sampled fun y => { y with outFirst := n - y.t0, outLast := n - y.t0 }
  have left := (Dev.Frees.sampleDone ((a.follow x.sampled fun y => { y with outFirst := n - y.t0, outLast := n - y.t0 }).emit
    (.hostFrame (d.finish x (d.chainOf x).bytes))) x.sampled 0).trans (.freeDesc _ n k)
  refine ⟨left.wire.trans ?_, fun q => ((left.queue q).trans (followed.queue q)).trans (queue q)⟩
  exact congrArg (· ++ [Emission.hostFrame _]) (followed.wire.trans (Dev.wire_of_butQueues same))

/-- A frame of a tree enters its payload pipeline with its bytes as finished. -/
theorem Dev.sendFrame_tree (n ps k t : Nat) (c : Choice) (x : Desc) :
    (d.sendFrame n ps k (.tree t) c x).wire = d.wire ∧
    (∀ q, (d.sendFrame n ps k (.tree t) c x).queue q = d.queue q) ∧
    (d.sendFrame n ps k (.tree t) c x).rd .treeTxFrames t = (d.rd .treeTxFrames t + 1) % 2 ^ 64 ∧
    ∃ f : DownFrame, ((d.sendFrame n ps k (.tree t) c x).tree t).payload = (d.tree t).payload ++ [f] ∧
      f.terminal = x.dest / 4096 ∧ f.encPort = x.dest % 4096 ∧ f.placed = 0 ∧ f.bytes = d.finish x (d.chainOf x).bytes := by
  have same := d.charged_butQueues n c x
  have queue := d.charged_queue n c x
  have bytes := Dev.finish_of_butQueues same x
  have tree : (d.charged n c x).tree t = d.tree t := (congrArg (Dev.tree · t) same :)
  unfold Dev.sendFrame
  extract_lets len _ _ _ _ _ _ ns a b b' t0 f
  have a_eq : a = d.charged n c x := rfl
  have f_bytes : f.bytes = a.finish x (a.chainOf x).bytes := rfl
  have f_terminal : f.terminal = x.dest / 4096 := rfl
  have f_port : f.encPort = x.dest % 4096 := rfl
  have f_placed : f.placed = 0 := rfl
  clear_value a f
  rw [← a_eq] at same queue bytes tree
  have freed := Dev.Frees.freeDesc
    (((a.bump .treeTxFrames t).add .treeTxBytes t (b'.length + 4)).modTree t fun y => { y with payload := y.payload ++ [f] }) n k
  refine ⟨freed.wire.trans (Dev.wire_of_butQueues same :), fun q => (freed.queue q).trans (queue q), ?_, f, ?_, f_terminal,
    f_port, f_placed, f_bytes.trans bytes⟩
  · rw [freed.regs _ _ (by decide)]
    refine ((a.bump .treeTxFrames t).rd_wr_other (r := .treeTxBytes) (q := .treeTxFrames) t t _ (by decide)).trans ?_
    rw [Dev.rd_bump_counter _ t Reg.modulus_treeTxFrames, Dev.rd_of_butQueues same]
  · rw [freed.tree, Dev.tree_modTree, if_pos rfl]
    exact congrArg (·.payload ++ [f]) tree

/-! ### A frame that leaves a port (R232, R256) -/

theorem Dev.ptpTransmit_rd (n ps p : Nat) (x : Desc) (b : Bytes) {r : Reg} (i : Nat)
    (h : r ∉ [Reg.txStamp, .txStamps, .tcUpdated, .tcSaturated]) : (d.ptpTransmit n ps p x b).2.rd r i = d.rd r i := by
  simp only [List.mem_cons, List.not_mem_nil, or_false, not_or] at h
  obtain ⟨stamp, stamps, updated, saturated⟩ := h
  unfold Dev.ptpTransmit
  extract_lets time ringed
  have ringed_rd : ∀ e : Dev, (ringed e).rd r i = e.rd r i := fun e => by
    unfold ringed
    split
    · exact e.rd_wr_other _ _ _ stamp
    · rfl
  have counted : (ringed (d.bump .txStamps 0)).rd r i = d.rd r i := (ringed_rd _).trans (d.bump_rd_other _ _ stamps)
  clear_value ringed
  split
  · exact ringed_rd d
  · split
    · split
      · exact (Dev.when_bump_rd _ _ _ _ saturated).trans ((Dev.bump_rd_other _ _ _ updated).trans counted)
      · exact counted
    · split <;> exact counted

theorem Dev.mirrorCopy_rd (n k m : Nat) (edited : Bool) {r : Reg} (i : Nat) (h : r ∉ Reg.mirCopies :: bufferRegs) :
    (d.mirrorCopy n k m edited).rd r i = d.rd r i := by
  obtain ⟨copies, buffer⟩ := not_or.1 fun x => h (List.mem_cons.2 x)
  unfold Dev.mirrorCopy
  split
  · rfl
  · split
    · exact d.bump_rd_other _ _ fun e => buffer (e ▸ by decide)
    · refine (Dev.rd_of_unbuffered (Dev.unbuffered_enqueue _ n _) i buffer).trans ?_
      refine (Dev.rd_of_unbuffered (Dev.unbuffered_addDesc _ _) i buffer).trans ?_
      exact d.bump_rd_other _ _ copies

theorem Dev.lanesPerPort_pos : 0 < d.lanesPerPort := by
  unfold Dev.lanesPerPort
  split <;> decide

theorem Dev.wireTicks_pos (len : Nat) : 0 < d.wireTicks len := by
  have lanes := d.lanesPerPort_pos
  unfold Dev.wireTicks ceilDiv
  exact Nat.div_pos (by omega) (by omega)

/-- A frame of a port is on the wire and is the port's until its send ends. -/
theorem Dev.sendFrame_port (n ps k p : Nat) (c : Choice) (x : Desc) :
    (∃ b, (d.sendFrame n ps k (.port p) c x).wire.getLast? = some (.uplinkFrame p (c.queue % 8) b)) ∧
    (∃ y, ((d.sendFrame n ps k (.port p) c x).port p).sending = some y ∧ y.desc = k ∧ n < y.ends) ∧
    (d.sendFrame n ps k (.port p) c x).rd .txFrames p = (d.rd .txFrames p + 1) % 2 ^ 64 := by
  have same := Dev.rd_of_butQueues (d.charged_butQueues n c x) .txFrames p
  unfold Dev.sendFrame
  extract_lets len _ _ _ _ _ _ ns a b
  have a_eq : a = d.charged n c x := rfl
  clear_value a
  rw [← a_eq] at same
  dsimp only
  have copies : (if x.copy then a else a.each (a.mirrorSessions 2 p) fun d m => d.mirrorCopy n k m true).rd .txFrames p =
      a.rd .txFrames p := by
    split
    · rfl
    · exact a.each_keeps (fun d => d.rd .txFrames p) fun d m _ => d.mirrorCopy_rd n k m true p (by decide)
  generalize (if x.copy then a else a.each (a.mirrorSessions 2 p) fun d m => d.mirrorCopy n k m true) = e at copies
  have stamped := e.ptpTransmit_rd n ps p x b (r := .txFrames) p (by decide)
  generalize e.ptpTransmit n ps p x b = r at stamped
  refine ⟨⟨_, List.getLast?_concat⟩, ⟨_, by rw [Dev.emit_port, Dev.port_modPort, if_pos rfl], rfl,
    Nat.lt_add_of_pos_right (Dev.wireTicks_pos _ _)⟩, ?_⟩
  rw [Dev.emit_rd, Dev.modPort_rd, Dev.follow_rd, Dev.when_bump_rd _ _ _ _ (by decide),
    Dev.rd_bump_counter _ p Reg.modulus_txFrames, stamped, copies, same]

/-! ### Heads (R203, R211, R212) -/

section
variable {d} {n ps k : Nat} {g : Egress} {c : Choice} {rest : List Nat} {x : Desc}
  (hq : d.queue c.queue = k :: rest) (hx : d.desc k = some x)
include hq hx

/-- The device after the head of queue `q` has been taken from it, `rest` behind it. -/
def Dev.TakenFrom (d e : Dev) (q : Nat) (rest : List Nat) : Prop :=
  e.butQueues = d.butQueues ∧ e.queue q = rest ∧ e.sched.permitBad = d.sched.permitBad

/-- Only the checks say what becomes of a head that is taken. -/
theorem Dev.takeHead_checks : ∃ e, d.TakenFrom e c.queue rest ∧ d.takeHead n ps g c =
    if d.sched.permitBad.contains c.queue then
      (false, (((e.permitRead c.queue).bump .permitEcc 0).isolationFault n c.queue x).dropDesc n k 5)
    else if !d.permitted c.queue x.domain || !x.owns c.queue then (false, (e.isolationFault n c.queue x).dropDesc n k 5)
    else if x.poison then (false, e.dropDesc n k 7)
    else if x.length < x.editedLength && decide (d.rd .maxlen 0 < x.editedLength) then
      (false, (e.bump .editOversize 0).dropDesc n k 8)
    else (true, e.sendFrame n ps k g c x) := by
  have set := d.setQueue_butQueues c.queue rest
  have found : (d.setQueue c.queue rest).desc k = some x := (Dev.desc_of_butQueues set k).trans hx
  let e := (d.setQueue c.queue rest).follow x.sampled fun y => { y with dequeued := n - y.t0 }
  have taken : e.butQueues = d.butQueues := (Dev.follow_butQueues _ _ _).trans set
  have queue : e.queue c.queue = rest := (Dev.Frees.follow (l := []) (d.setQueue c.queue rest) x.sampled _).queue c.queue |>.trans
    ((d.queue_setQueue _ _ _).trans (if_pos rfl))
  have bad : e.sched.permitBad = d.sched.permitBad :=
    (congrArg Sched.permitBad (Dev.follow_sched _ _ _)).trans (d.setQueue_permitBad _ _)
  refine ⟨e, ⟨taken, queue, bad⟩, ?_⟩
  rw [← bad, ← Dev.permitted_of_butQueues taken, ← Dev.rd_of_butQueues taken]
  unfold Dev.takeHead
  rw [hq]
  dsimp only
  rw [found]

/-- A head that passes every check is sent. -/
theorem Dev.takeHead_sends (hb : d.sched.permitBad.contains c.queue = false) (hp : d.permitted c.queue x.domain = true)
    (ho : x.owns c.queue = true) (hs : x.poison = false)
    (hl : ¬(x.length < x.editedLength ∧ d.rd .maxlen 0 < x.editedLength)) :
    ∃ e, d.TakenFrom e c.queue rest ∧ d.takeHead n ps g c = (true, e.sendFrame n ps k g c x) := by
  obtain ⟨e, taken, checks⟩ := Dev.takeHead_checks (n := n) (ps := ps) (g := g) hq hx
  refine ⟨e, taken, ?_⟩
  simpa only [hb, hp, ho, hs, Bool.not_true, Bool.or_self, Bool.false_eq_true, if_false, Bool.and_eq_true, decide_eq_true_eq,
    if_neg hl] using checks

end

/-- Of a frame that fails the isolation check, ISOLATION_DROP counts; queues and the wire are left as they are. -/
theorem Dev.isolationFault_drops (n q k outcome : Nat) (x : Desc) :
    (d.bump .isolationDrop 0).Frees ([.destMismatch] ++ freeRegs) ((d.isolationFault n q x).dropDesc n k outcome) := by
  have counted : (d.bump .isolationDrop 0).Frees ([.destMismatch] ++ freeRegs) (d.isolationFault n q x) := by
    unfold Dev.isolationFault Dev.when
    dsimp only
    split
    · exact ((Dev.Frees.sched _ _).trans (.bump _ 0 (by decide))).trans (.raise _ n (by decide) (Nat.le_add_left 404 16))
    · exact (Dev.Frees.sched _ _).trans (.raise _ n (by decide) (Nat.le_add_left 404 16))
  exact counted.trans ((Dev.Frees.dropDesc _ n k outcome).mono (by decide))

/-- What a head that is dropped for isolation leaves. -/
structure Dev.Isolated (d e : Dev) (q : Nat) (rest : List Nat) : Prop where
  wire : e.wire = d.wire
  queue : e.queue q = rest
  trees : e.trees = d.trees
  drop : e.rd .isolationDrop 0 = (d.rd .isolationDrop 0 + 1) % 2 ^ 64

/-- A head that fails the isolation check is dropped and counted. -/
theorem Dev.takeHead_isolates {n ps k : Nat} {g : Egress} {c : Choice} {rest : List Nat} {x : Desc}
    (hq : d.queue c.queue = k :: rest) (hx : d.desc k = some x)
    (hf : d.sched.permitBad.contains c.queue = true ∨ ¬(d.permitted c.queue x.domain = true ∧ x.owns c.queue = true)) :
    ∃ e, d.takeHead n ps g c = (false, e) ∧ d.Isolated e c.queue rest ∧
      e.rd .permitEcc 0 = if d.sched.permitBad.contains c.queue then (d.rd .permitEcc 0 + 1) % 2 ^ 64 else d.rd .permitEcc 0 := by
  obtain ⟨a, ⟨taken, queue, -⟩, checks⟩ := Dev.takeHead_checks (n := n) (ps := ps) (g := g) hq hx
  have drops : ∀ b : Dev, b.wire = a.wire → b.queue c.queue = a.queue c.queue → b.trees = a.trees →
      b.rd .isolationDrop 0 = a.rd .isolationDrop 0 →
      d.Isolated ((b.isolationFault n c.queue x).dropDesc n k 5) c.queue rest ∧
      ((b.isolationFault n c.queue x).dropDesc n k 5).rd .permitEcc 0 = b.rd .permitEcc 0 := by
    intro b wire same trees drop
    have all := b.isolationFault_drops n c.queue k 5 x
    refine ⟨⟨all.wire.trans (wire.trans (Dev.wire_of_butQueues taken)), (all.queue _).trans (same.trans queue),
      all.trees.trans (trees.trans (Dev.trees_of_butQueues taken)), ?_⟩, ?_⟩
    · rw [all.regs _ 0 (by decide), Dev.rd_bump_counter _ 0 Reg.modulus_isolationDrop, drop, Dev.rd_of_butQueues taken]
    · rw [all.regs _ 0 (by decide), Dev.bump_rd_other _ _ _ (by decide)]
  rw [checks]
  by_cases bad : d.sched.permitBad.contains c.queue = true
  · rw [if_pos bad, if_pos bad]
    obtain ⟨isolated, ecc⟩ := drops ((a.permitRead c.queue).bump .permitEcc 0) rfl rfl rfl (Dev.bump_rd_other _ _ _ (by decide))
    refine ⟨_, rfl, isolated, ecc.trans ?_⟩
    rw [Dev.rd_bump_counter _ 0 Reg.modulus_permitEcc, ← Dev.rd_of_butQueues taken]
    rfl
  · have fails : (!d.permitted c.queue x.domain || !x.owns c.queue) = true := by
      simpa [imp_iff_not_or] using hf.resolve_left bad
    rw [if_neg bad, if_neg bad, if_pos fails]
    obtain ⟨isolated, ecc⟩ := drops a rfl rfl rfl rfl
    exact ⟨_, rfl, isolated, ecc.trans (Dev.rd_of_butQueues taken _ _)⟩

/-! ### Decisions -/

section
variable {n ps fuel : Nat} {g : Egress}

theorem Dev.serve_idle (h : d.choose n g = none) : d.serve n ps g (fuel + 1) = d := by
  rw [Dev.serve, h]

theorem Dev.serve_sends {c : Choice} {e : Dev} (h : d.choose n g = some c)
    (ht : (d.commitChoice c).takeHead n ps g c = (true, e)) : d.serve n ps g (fuel + 1) = e := by
  rw [Dev.serve, h]
  dsimp only
  rw [ht]

/-- A decision of an element that exists serves its request once the frames sent have left. -/
theorem scheduleDecision_serves {s : State} {p : Dev → Prop} (hg : egressExists g = true)
    (hp : p ((s.dev.settleSends (max s.now n)).serve (max s.now n) ps g (s.dev.buf.descs.length + 1))) :
    Completes (.scheduleDecision ⟨n, ps⟩ g) s n p :=
  completes_at (if_pos hg) hp

/-- An admitted head that is chosen leaves, the round-robin state and the queue alone having changed before. -/
theorem Dev.serve_admitted {c : Choice} {k : Nat} {rest : List Nat} {x : Desc} (hc : d.choose n g = some c)
    (hq : d.queue c.queue = k :: rest) (hx : d.desc k = some x) (hb : d.sched.permitBad.contains c.queue = false)
    (hp : d.permitted c.queue x.domain = true) (ho : x.owns c.queue = true) (hs : x.poison = false)
    (hl : ¬(x.length < x.editedLength ∧ d.rd .maxlen 0 < x.editedLength)) :
    ∃ e : Dev, e.butQueues = d.butQueues ∧ e.queue c.queue = rest ∧ d.serve n ps g (fuel + 1) = e.sendFrame n ps k g c x := by
  obtain ⟨s, committed, bad⟩ := d.commitChoice_sched c
  obtain ⟨e, ⟨taken, queue, -⟩, sends⟩ := Dev.takeHead_sends (n := n) (ps := ps) (g := g) (d := { d with sched := s }) hq hx
    (bad ▸ hb) hp ho hs hl
  exact ⟨e, taken, queue, d.serve_sends hc (by rw [committed, sends])⟩

end

/-- Settles O45: the checks of a head decide between sending it and dropping it; nothing else of a decision reaches the wire. -/
theorem scheduleDecides : Obligations.ScheduleDecides := by
  unfold Obligations.ScheduleDecides
  intro s n ps g hg a
  refine ⟨fun none => scheduleDecision_serves hg (a.serve_idle none), fun c k rest x hc hq hx hb hp ho hs hl =>
    scheduleDecision_serves hg ?_, fun d c k rest x hq hx hf => ?_⟩
  · obtain ⟨e, taken, queue, served⟩ :=
      a.serve_admitted (ps := ps) (fuel := s.dev.buf.descs.length) hc hq hx hb hp ho hs hl
    have bytes := Dev.finish_of_butQueues taken x
    have wire := Dev.wire_of_butQueues taken
    change (fun e : Dev => _) (a.serve (max s.now n) ps g (s.dev.buf.descs.length + 1))
    rw [served]
    refine ⟨?_, ?_, ?_⟩
    · rintro p rfl
      obtain ⟨sent, owned, count⟩ := e.sendFrame_port (max s.now n) ps k p c x
      exact ⟨sent, owned, by rw [count, Dev.rd_of_butQueues taken]⟩
    · rintro rfl
      obtain ⟨sent, queues⟩ := e.sendFrame_host (max s.now n) ps k c x
      exact ⟨(queues _).trans queue, by rw [sent, bytes, wire]⟩
    · rintro t rfl
      obtain ⟨sent, queues, count, f, payload, terminal, port, placed, finished⟩ := e.sendFrame_tree (max s.now n) ps k t c x
      have tree : e.tree t = a.tree t := (congrArg (Dev.tree · t) taken :)
      exact ⟨(queues _).trans queue, sent.trans wire, by rw [count, Dev.rd_of_butQueues taken], f, by rw [payload, tree],
        terminal, port, placed, finished.trans bytes⟩
  · obtain ⟨e, taken, isolated, ecc⟩ := d.takeHead_isolates (n := n) (ps := ps) (g := g) hq hx hf
    rw [taken]
    exact ⟨rfl, isolated.wire, isolated.queue, isolated.trees, isolated.drop, ecc⟩

end Sys2Proof.Machine
end

section
/-!
PROOFS. What a link that goes down changes (R193, R198, R239, R249-R251): registers, its frames and its lanes. What the collectors
have recorded stays recorded, and what a broken wire asserts stays asserted (R285, R286).
-/
namespace Sys2Proof.Machine
open Sys2Proof

variable (d : Dev)

/-! ### Records that stay -/

/-- What a source tells its collector is still told. -/
structure Source.Recorded (x y : Source) : Prop where
  sticky : x.sticky = true → y.sticky = true ∧ x.severity ≤ y.severity
  broken : x.broken = true → y.broken = true
  cutOff : x.cutOff = true → y.cutOff = true
  held : x.level = true → x.broken = true ∨ x.cutOff = true → y.level = true

theorem Source.Recorded.refl (x : Source) : x.Recorded x := ⟨fun h => ⟨h, le_rfl⟩, id, id, fun h _ => h⟩

theorem Source.Recorded.trans {x y z : Source} (h : x.Recorded y) (k : y.Recorded z) : x.Recorded z where
  sticky s := ⟨(k.sticky (h.sticky s).1).1, (h.sticky s).2.trans (k.sticky (h.sticky s).1).2⟩
  broken := k.broken ∘ h.broken
  cutOff := k.cutOff ∘ h.cutOff
  held l b := k.held (h.held l b) (b.imp h.broken h.cutOff)

/-- A capture is no record of a collector. -/
theorem Source.Recorded.capture (x : Source) (c : Option Capture) : x.Recorded { x with capture := c } :=
  ⟨fun h => ⟨h, le_rfl⟩, id, id, fun h _ => h⟩

/-- The first fault and the records of all sources are kept from `d` to `e`. -/
structure Dev.Recorded (d e : Dev) : Prop where
  first : ∀ f, d.faults.first = some f → e.faults.first = some f
  source : ∀ k, (d.source k).Recorded (e.source k)

namespace Dev.Recorded

variable {d e f : Dev}

theorem of_faults (h : e.faults = d.faults := by rfl) : d.Recorded e where
  first f hf := by rw [h, hf]
  source k := by
    have same : e.source k = d.source k := congrArg (fun x : Faults => Tab.get ({} : Source) x.sources k) h
    rw [same]
    exact .refl _

theorem refl (d : Dev) : d.Recorded d := of_faults rfl

theorem trans (h : d.Recorded e) (k : e.Recorded f) : d.Recorded f :=
  ⟨fun x hx => k.first x (h.first x hx), fun i => (h.source i).trans (k.source i)⟩

theorem each {α : Type} {l : List α} {g : Dev → α → Dev} (h : ∀ d : Dev, ∀ x ∈ l, d.Recorded (g d x)) :
    d.Recorded (d.each l g) :=
  Dev.each_holds (I := d.Recorded) (refl d) fun e he x hx => he.trans (h e x hx)

theorem of_catches (h : d.Catches e) : d.Recorded e where
  first f hf := by rw [h.rest, ← hf]
  source k := by
    obtain ⟨c, hc⟩ := h.source k
    rw [hc]
    exact .capture _ c

theorem modSource (d : Dev) (k : Nat) {g : Source → Source} (h : (d.source k).Recorded (g (d.source k))) :
    d.Recorded (d.modSource k g) := by
  refine ⟨fun _ => id, fun j => ?_⟩
  rw [Dev.source_modSource]
  split
  · next hj => rw [hj]; exact h
  · exact .refl _

theorem raiseAt (d : Dev) (n sev : Nat) (o : Occurrence) : d.Recorded (d.raiseAt n sev o) := by
  refine ⟨fun x hx => ?_, fun k => ?_⟩
  · unfold Dev.raiseAt
    split <;> exact hx
  · obtain ⟨c, hc⟩ := d.raiseAt_source n sev o k
    rw [hc]
    exact .capture _ c

theorem raise (d : Dev) (n : Nat) (o : Occurrence) : d.Recorded (d.raise n o) := raiseAt d n _ o

theorem raiseLevel (d : Dev) (n : Nat) (o : Occurrence) : d.Recorded (d.raiseLevel n o) := by
  unfold Dev.raiseLevel
  split
  · exact refl d
  · exact (modSource d _ ⟨fun h => ⟨h, le_rfl⟩, id, id, fun _ _ => rfl⟩).trans (raise _ n o)

/-- A condition that ends does not end what a broken wire asserts. -/
theorem dropLevel (d : Dev) (k : Nat) : d.Recorded (d.dropLevel k) := by
  unfold Dev.dropLevel
  split
  · next h =>
    simp only [Bool.and_eq_true, Bool.not_eq_true'] at h
    obtain ⟨⟨-, hb⟩, hc⟩ := h
    exact modSource d k ⟨fun h => ⟨h, le_rfl⟩, id, id, fun _ b => by simp [hb, hc] at b⟩
  · exact refl d

end Dev.Recorded

/-! ### The relations -/

/-- `e` is `d` with only the registers of `l` changed, no descriptor come and every record kept. -/
structure Dev.Lowers (l : List Reg) (d e : Dev) : Prop where
  regs : d.rdKept e l
  descs : ∀ k, d.desc k = none → e.desc k = none
  recorded : d.Recorded e

/-- The same, and the queues hold what they held and the holds run on. -/
structure Dev.Falls (l : List Reg) (d e : Dev) : Prop extends Dev.Lowers l d e where
  queues : e.buf.queues = d.buf.queues
  holds : ∀ p, (e.port p).hold = (d.port p).hold

namespace Dev.Lowers

variable {d e f : Dev} {l : List Reg}

theorem refl (d : Dev) : d.Lowers l d := ⟨fun _ _ _ => rfl, fun _ => id, .refl d⟩

theorem trans (h : d.Lowers l e) (k : e.Lowers l f) : d.Lowers l f :=
  ⟨fun r i hr => (k.regs r i hr).trans (h.regs r i hr), fun i => k.descs i ∘ h.descs i, h.recorded.trans k.recorded⟩

theorem each {α : Type} {xs : List α} {g : Dev → α → Dev} (h : ∀ d : Dev, ∀ x ∈ xs, d.Lowers l (g d x)) :
    d.Lowers l (d.each xs g) :=
  Dev.each_holds (I := d.Lowers l) (refl d) fun e he x hx => he.trans (h e x hx)

theorem mono (h : d.Lowers l e) {m : List Reg} (hs : l ⊆ m) : d.Lowers m e :=
  { h with regs := fun r i hr => h.regs r i fun x => hr (hs x) }

theorem of_drops (h : d.Drops l e) : d.Lowers l e := ⟨h.regs, h.descs, .of_catches h.catches⟩

/-- What neither the registers nor the buffer nor the collectors hold may change. -/
theorem of_eq (hr : e.regs = d.regs := by rfl) (hb : e.buf = d.buf := by rfl) (hf : e.faults = d.faults := by rfl) :
    d.Lowers l e where
  regs _ i _ := (congrArg (fun x => Tab.get (Reg.dflt _ i) x (regKey _ i)) hr :)
  descs k hk := by
    change Tab.find e.buf.descs k = none
    rw [hb]
    exact hk
  recorded := .of_faults hf

theorem wr (d : Dev) {r : Reg} (i v : Nat) (h : r ∈ l) : d.Lowers l (d.wr r i v) := of_drops (.wr d i v h)

end Dev.Lowers

namespace Dev.Falls

variable {d e f : Dev} {l : List Reg}

theorem refl (d : Dev) : d.Falls l d := ⟨.refl d, rfl, fun _ => rfl⟩

theorem trans (h : d.Falls l e) (k : e.Falls l f) : d.Falls l f :=
  ⟨h.toLowers.trans k.toLowers, k.queues.trans h.queues, fun p => (k.holds p).trans (h.holds p)⟩

theorem each {α : Type} {xs : List α} {g : Dev → α → Dev} (h : ∀ d : Dev, ∀ x ∈ xs, d.Falls l (g d x)) :
    d.Falls l (d.each xs g) :=
  Dev.each_holds (I := d.Falls l) (refl d) fun e he x hx => he.trans (h e x hx)

theorem mono (h : d.Falls l e) {m : List Reg} (hs : l ⊆ m) : d.Falls m e := { h with toLowers := h.toLowers.mono hs }

theorem of_frees (h : d.Frees l e) : d.Falls l e :=
  ⟨.of_drops h.toDrops, h.queues, fun p => congrArg Port.hold (h.port p)⟩

theorem queue (h : d.Falls l e) (q : Nat) : e.queue q = d.queue q :=
  congrArg (fun t => Tab.get ([] : List Nat) t q) h.queues

theorem wr (d : Dev) {r : Reg} (i v : Nat) (h : r ∈ l) : d.Falls l (d.wr r i v) := of_frees (.wr d i v h)

theorem bump (d : Dev) {r : Reg} (i : Nat) (h : r ∈ l) : d.Falls l (d.bump r i) := wr d i _ h

/-- Of what the registers, the buffer and the collectors do not hold, ports' holds alone are told of. -/
theorem of_eq (hr : e.regs = d.regs := by rfl) (hb : e.buf = d.buf := by rfl) (hf : e.faults = d.faults := by rfl)
    (hp : ∀ p, (e.port p).hold = (d.port p).hold := by exact fun _ => rfl) : d.Falls l e :=
  ⟨.of_eq hr hb hf, by rw [hb], hp⟩

theorem modPort (d : Dev) (p : Nat) {g : Port → Port} (h : ∀ x, (g x).hold = x.hold := by exact fun _ => rfl) :
    d.Falls l (d.modPort p g) := by
  refine of_eq (hp := fun q => ?_)
  rw [Dev.port_modPort]
  split
  · next hq => rw [hq]; exact h _
  · rfl

theorem modLane (d : Dev) (k : Nat) (g : Lane → Lane) : d.Falls l (d.modLane k g) := of_eq

theorem emit (d : Dev) (x : Emission) : d.Falls l (d.emit x) := of_eq

theorem withMate (d : Dev) (x : Mate) : d.Falls l { d with mate := x } := of_eq

theorem raiseLevel (d : Dev) (n : Nat) {o : Occurrence} (h : .occurrences ∈ l) : d.Falls l (d.raiseLevel n o) where
  regs _ i hr := d.raiseLevel_rd n o i fun e => hr (e ▸ h)
  descs k hk := ((congrArg (Dev.desc · k) (d.raiseLevel_butFaults n o) :) : (d.raiseLevel n o).desc k = d.desc k).trans hk
  recorded := .raiseLevel d n o
  queues := (congrArg (·.buf.queues) (d.raiseLevel_butFaults n o) :)
  holds p := (congrArg (fun x : Dev => (x.port p).hold) (d.raiseLevel_butFaults n o) :)

theorem dropLevel (d : Dev) (k : Nat) : d.Falls l (d.dropLevel k) where
  regs _ i _ := d.dropLevel_rd k i
  descs j hj := ((congrArg (Dev.desc · j) (d.dropLevel_butFaults k) :) : (d.dropLevel k).desc j = d.desc j).trans hj
  recorded := .dropLevel d k
  queues := (congrArg (·.buf.queues) (d.dropLevel_butFaults k) :)
  holds p := (congrArg (fun x : Dev => (x.port p).hold) (d.dropLevel_butFaults k) :)

end Dev.Falls

/-! ### Steps of a port that goes down -/

/-- The registers of a frame that is lost in its send. -/
def lossRegs : List Reg := [.partialLost, .txFrames] ++ freeRegs

/-- The registers of a link that begins again. -/
def relinkRegs : List Reg := [.rclkState, .squelches, .occurrences, .partnerFinuno, .laneState]

/-- The registers of a port that goes down. -/
def downRegs : List Reg := [.linkDowns, .portState, .holdState, .flushedFrames] ++ lossRegs ++ relinkRegs

namespace Dev.Falls

/-- A frame whose send has ended leaves the buffer. -/
theorem endSend (d : Dev) (n k : Nat) (id : Option Nat) (outcome : Nat) :
    d.Falls lossRegs ((d.sampleDone id outcome).freeDesc n k) :=
  of_frees (((Dev.Frees.sampleDone d id outcome).trans (.freeDesc _ n k)).mono (by decide))

theorem settleSend (d : Dev) (n p : Nat) : d.Falls lossRegs (d.settleSend n p) := by
  unfold Dev.settleSend
  split
  · exact refl d
  · split
    · exact (modPort d p).trans (endSend _ n _ _ _)
    · exact refl d

theorem loseSend (d : Dev) (n p : Nat) : d.Falls lossRegs (d.loseSend n p) := by
  unfold Dev.loseSend
  split
  · exact refl d
  · have counted := ((bump (l := lossRegs) d p (r := .partialLost) (by decide)).trans
      (wr _ p (d.rd .txFrames p - 1) (r := .txFrames) (by decide))).trans (emit _ (.cut p))
    have drawn : ∀ e : Dev, e.Falls lossRegs e.draw.2 := fun e => of_eq
    exact (((counted.trans (drawn _)).trans (of_frees (.follow _ _ _))).trans (modPort _ p)).trans
      (endSend _ n _ _ _)

theorem moveBuckets {l : List Reg} (d : Dev) (p : Nat) : d.Falls l (d.moveBuckets p) := by
  have moved : ∀ (d : Dev) q ks, d.Falls l (d.moveTo p q ks) := fun d q ks =>
    (modPort d p).trans (each fun _ _ _ => of_eq)
  refine each fun d a _ => ?_
  split
  · split
    · exact refl d
    · exact moved d _ _
  · exact refl d

theorem squelch (d : Dev) (n : Nat) : d.Falls relinkRegs (d.squelch n) := by
  unfold Dev.squelch
  split
  · exact refl d
  · exact (((wr d (r := .rclkState) 0 2 (by decide)).trans (bump _ (r := .squelches) 0 (by decide))).trans
      (raiseLevel _ n (by decide))).trans of_eq

/-- A lane that enters stage 0 or 1. -/
theorem setStage (d : Dev) (n k : Nat) {st : Nat} (h : st ≤ 1) : d.Falls relinkRegs (d.setStage n st k) := by
  rw [Dev.setStage_unlocked d n k (by omega)]
  exact (wr d k st (by decide)).trans (modLane _ k _)

theorem startLane (d : Dev) (n k : Nat) : d.Falls relinkRegs (d.startLane n k) := setStage d n k (by split <;> decide)

theorem negotiate {l : List Reg} (d : Dev) (n p : Nat) : d.Falls l (d.negotiate n p) := by
  unfold Dev.negotiate Dev.advertise
  split
  · exact (modPort d p).trans (emit _ _)
  · exact refl d

/-- Lanes that begin again, at stage 0 where the link may not run. -/
theorem restartLanes (d : Dev) (n : Nat) (ks : List Nat) (c : Dev → Bool) :
    d.Falls relinkRegs (d.each ks fun d k => if c d then d.startLane n k else d.setStage n 0 k) :=
  each fun d k _ => by
    split
    · exact startLane d n k
    · exact setStage d n k (by decide)

theorem restartPort (d : Dev) (n p : Nat) : d.Falls relinkRegs (d.restartPort n p) := by
  unfold Dev.restartPort
  split
  · exact refl d
  · exact (((wr d p 0 (by decide)).trans (restartLanes _ n _ fun d => d.portAllowed p)).trans (modPort _ p)).trans
      (negotiate _ n p)

theorem restartMate (d : Dev) (n : Nat) : d.Falls relinkRegs (d.restartMate n) :=
  (restartLanes d n mateLanes Dev.mateAllowed).trans (withMate _ _)

end Dev.Falls

/-! ### A port goes down (R251) -/

/-- The port's send has ended or is lost, and it is down. -/
def Dev.cutPort (d : Dev) (n p : Nat) : Dev :=
  ((((d.bump .linkDowns p).settleSend n p).loseSend n p).wr .portState p 0).modPort p fun x => { x with revertAt := none }

/-- A link fault is raised, and holds while the port is enabled. -/
def Dev.faultPort (d : Dev) (n p : Nat) (begins : Bool) : Dev :=
  let d := if begins then d.raiseLevel n { source := 304 + 4 * p, index := p } else d
  if d.on .portEnable p then d else d.dropLevel (304 + 4 * p)

/-- The buckets of a port leave it, and a clock recovered from it is squelched. -/
def Dev.leavePort (d : Dev) (n p : Nat) : Dev :=
  if (d.moveBuckets p).rd .rclkSrc 0 < 16 ∧ (d.moveBuckets p).portOfLane ((d.moveBuckets p).rd .rclkSrc 0) = p then
    (d.moveBuckets p).squelch n
  else d.moveBuckets p

theorem Dev.portDown_of_up {n p : Nat} (h : d.portUp p = true) :
    d.portDown n p = ((((d.cutPort n p).startPortHold n p).leavePort n p).restartPort n p).faultPort n p true := by
  unfold Dev.portDown
  rw [h]
  rfl

theorem Dev.portDown_of_down {n p : Nat} (h : d.portUp p = false) :
    d.portDown n p = (d.restartPort n p).faultPort n p ((d.restartPort n p).on .portEnable p) := by
  unfold Dev.portDown
  rw [h]
  rfl

theorem Dev.Falls.cutPort (n p : Nat) : d.Falls ([.linkDowns, .portState] ++ lossRegs) (d.cutPort n p) :=
  ((((Dev.Falls.bump d p (by decide)).trans ((Dev.Falls.settleSend _ n p).mono (by decide))).trans
    ((Dev.Falls.loseSend _ n p).mono (by decide))).trans (.wr _ p 0 (by decide))).trans (.modPort _ p)

theorem Dev.Falls.leavePort (n p : Nat) : d.Falls relinkRegs (d.leavePort n p) := by
  unfold Dev.leavePort
  split
  · exact (Dev.Falls.moveBuckets d p).trans (.squelch _ n)
  · exact .moveBuckets d p

theorem Dev.Falls.faultPort (n p : Nat) (begins : Bool) : d.Falls relinkRegs (d.faultPort n p begins) := by
  unfold Dev.faultPort
  extract_lets e
  have raised : d.Falls relinkRegs e := by
    unfold e
    split
    · exact .raiseLevel d n (by decide)
    · exact .refl d
  split
  · exact raised
  · exact raised.trans (.dropLevel _ _)

theorem Dev.Lowers.startPortHold (n p : Nat) :
    d.Lowers ([.holdState, .flushedFrames] ++ freeRegs) (d.startPortHold n p) := by
  have plain : ∀ (e : Dev) (g : Port → Port), e.Lowers ([.holdState, .flushedFrames] ++ freeRegs) (e.modPort p g) :=
    fun _ _ => .of_eq
  unfold Dev.startPortHold
  dsimp only
  split
  · exact ((Dev.Lowers.wr d p 2 (by decide)).trans (plain _ _)).trans
      (.of_drops ((Dev.flushPort_flushed _ n p).drops.mono (by decide)))
  · exact (Dev.Lowers.wr d p 1 (by decide)).trans (plain _ _)

theorem Dev.Lowers.portDown (n p : Nat) : d.Lowers downRegs (d.portDown n p) := by
  have restart : ∀ (e : Dev) b, e.Lowers downRegs ((e.restartPort n p).faultPort n p b) := fun e b =>
    (((Dev.Falls.restartPort e n p).trans (.faultPort _ n p b)).mono (by decide)).toLowers
  cases h : d.portUp p with
  | false =>
    rw [d.portDown_of_down h]
    exact restart d _
  | true =>
    rw [d.portDown_of_up h]
    exact ((((Dev.Falls.cutPort d n p).mono (by decide)).toLowers.trans ((Dev.Lowers.startPortHold _ n p).mono (by decide))).trans
      (((Dev.Falls.leavePort _ n p).mono (by decide)).toLowers)).trans (restart _ _)

/-! ### The mate link goes down (R251, R261) -/

/-- The mate link hunts, and its LOS is timed. -/
def Dev.huntMate (d : Dev) (n : Nat) : Dev :=
  { d with mate := { d.mate with
    hunt := true, huntSince := n, held := none, lastBad := false, losSet := some ⟨n, d.rd .mateLineLosSet 0⟩, losClr := none } }

theorem Dev.mateDown_eq (n : Nat) : d.mateDown n =
    if (((d.wr .mateState 0 0).restartMate n).huntMate n).on .mateEnable 0 then
      (((d.wr .mateState 0 0).restartMate n).huntMate n).raiseLevel n { source := 398 }
    else (((d.wr .mateState 0 0).restartMate n).huntMate n).dropLevel 398 := rfl

theorem Dev.Falls.huntMate (n : Nat) : d.Falls (.mateState :: relinkRegs) (((d.wr .mateState 0 0).restartMate n).huntMate n) :=
  ((Dev.Falls.wr d (r := .mateState) 0 0 (by decide)).trans ((Dev.Falls.restartMate _ n).mono (by decide))).trans
    (.withMate _ _)

theorem Dev.Falls.mateDown (n : Nat) : d.Falls (.mateState :: relinkRegs) (d.mateDown n) := by
  rw [Dev.mateDown_eq]
  split
  · exact (Dev.Falls.huntMate d n).trans (.raiseLevel _ n (by decide))
  · exact (Dev.Falls.huntMate d n).trans (.dropLevel _ _)

end Sys2Proof.Machine
end

section
/-!
PROOFS. Links that go down (R193, R251, R261), lanes that idle (R254), their errors (R252) and their eye scans (R320).
-/
namespace Sys2Proof.Machine
open Sys2Proof

variable (d : Dev)

theorem Reg.modulus_linkDowns : Reg.modulus .linkDowns = 2 ^ 64 := by decide +kernel
theorem Reg.modulus_fecSymbols : Reg.modulus .fecSymbols = 2 ^ 64 := by decide +kernel
theorem Reg.modulus_fecCorr : Reg.modulus .fecCorr = 2 ^ 64 := by decide +kernel
theorem Reg.modulus_portFecUncorr : Reg.modulus .portFecUncorr = 2 ^ 64 := by decide +kernel
theorem Reg.modulus_eyeHeightMv : Reg.modulus .eyeHeightMv = 2 ^ 16 := by decide +kernel
theorem Reg.modulus_eyeWidthMui : Reg.modulus .eyeWidthMui = 2 ^ 16 := by decide +kernel

variable {d} in
theorem Dev.lanesOf_of_width {e : Dev} (h : e.rd .portWidth 0 = d.rd .portWidth 0) (p : Nat) : e.lanesOf p = d.lanesOf p := by
  unfold Dev.lanesOf Dev.lanesPerPort
  rw [h]

variable {d} in
theorem Dev.portCount_of_width {e : Dev} (h : e.rd .portWidth 0 = d.rd .portWidth 0) : e.portCount = d.portCount := by
  unfold Dev.portCount
  rw [h]

variable {d} in
theorem Dev.on_of_rd {e : Dev} {r : Reg} {i : Nat} (h : e.rd r i = d.rd r i) : e.on r i = d.on r i := by
  unfold Dev.on
  rw [h]

/-! ### Lanes that begin again -/

theorem Dev.setStage_low (n l : Nat) {st : Nat} (h : st ≤ 1) : (d.setStage n st l).rd .laneState l ≤ 1 := by
  rw [Dev.setStage_unlocked d n l (by omega), Dev.modLane_rd, Dev.rd_wr_same]
  exact (Nat.mod_le _ _).trans h

/-- Every lane of a list that begins again is in stage 0 or 1. -/
theorem Dev.restartLanes_low (n : Nat) (c : Dev → Bool) (ks : List Nat) :
    ∀ l ∈ ks, (d.each ks fun d k => if c d then d.startLane n k else d.setStage n 0 k).rd .laneState l ≤ 1 := by
  have first : ∀ (e : Dev) k, (if c e then e.startLane n k else e.setStage n 0 k).rd .laneState k ≤ 1 := fun e k => by
    split
    · exact e.setStage_low n k (by split <;> decide)
    · exact e.setStage_low n k (by decide)
  have steps : ∀ (e : Dev) k, e.Restarts (if c e then e.startLane n k else e.setStage n 0 k) := fun e k => by
    split
    · exact .startLane e n k
    · exact .setStage e n k (by decide)
  induction ks generalizing d with
  | nil => exact nofun
  | cons k ks ih =>
    intro l hl
    rcases List.mem_cons.1 hl with rfl | hl
    · have rest := Dev.Restarts.each (d := if c d then d.startLane n l else d.setStage n 0 l) (l := ks) fun e k _ => steps e k
      rw [Dev.each_cons]
      exact (rest.lanes l).elim id fun h => h ▸ first d l
    · exact ih _ l hl

theorem Dev.restartPort_low (n : Nat) {p : Nat} (h : p < d.portCount) :
    ∀ l ∈ d.lanesOf p, (d.restartPort n p).rd .laneState l ≤ 1 := by
  intro l hl
  have low := (d.wr .partnerFinuno p 0).restartLanes_low n (fun d => d.portAllowed p) (d.lanesOf p) l hl
  unfold Dev.restartPort
  rw [if_neg (Nat.not_le.2 h)]
  dsimp only
  rw [(Dev.Falls.negotiate (l := []) _ n p).regs _ _ List.not_mem_nil, Dev.modPort_rd]
  exact low

theorem Dev.restartMate_low (n : Nat) : ∀ l ∈ mateLanes, (d.restartMate n).rd .laneState l ≤ 1 := by
  intro l hl
  have kept : (d.each mateLanes fun d k => if d.mateAllowed then d.startLane n k else d.setStage n 0 k).Falls []
      (d.restartMate n) := .withMate _ _
  rw [kept.regs _ _ List.not_mem_nil]
  exact d.restartLanes_low n Dev.mateAllowed mateLanes l hl

/-! ### A port that goes down (R193, R251) -/

theorem Dev.faultPort_of_on {n p : Nat} (h : d.on .portEnable p = true) :
    d.faultPort n p true = d.raiseLevel n { source := 304 + 4 * p, index := p } := by
  have enabled : (d.raiseLevel n { source := 304 + 4 * p, index := p }).on .portEnable p = true :=
    (Dev.on_of_rd (d.raiseLevel_rd n _ p (by decide))).trans h
  unfold Dev.faultPort
  rw [if_pos rfl]
  dsimp only
  rw [if_pos enabled]

/-- The hold of a port begins, or its queues are flushed at once. -/
theorem Dev.startPortHold_holds (n p : Nat) :
    (d.rd .holdMs p ≠ 0 → (d.startPortHold n p).rd .holdState p = 1 ∧
      ((d.startPortHold n p).port p).hold = some (n, d.rd .holdMs p)) ∧
    (d.rd .holdMs p = 0 → (d.startPortHold n p).rd .holdState p = 2 ∧
      ∀ q < 8, (d.startPortHold n p).queue (upQueue p q) = []) := by
  refine ⟨fun some => ?_, fun none => ?_⟩
  · unfold Dev.startPortHold
    dsimp only
    rw [if_neg some]
    refine ⟨?_, by rw [Dev.port_modPort, if_pos rfl]⟩
    rw [Dev.modPort_rd, Dev.rd_wr_same, Reg.modulus_holdState]
  · have flushed := d.endPortHold_flushes n p
    have same : d.startPortHold n p = d.endPortHold n p := if_pos none
    rw [same]
    exact ⟨flushed.state, flushed.empty⟩

/-- What a port that was up leaves as it goes down. -/
structure Dev.WentDown (d e : Dev) (n p : Nat) : Prop where
  state : e.rd .portState p = 0
  downs : e.rd .linkDowns p = (d.rd .linkDowns p + 1) % 2 ^ 64
  lanes : ∀ l ∈ d.lanesOf p, e.rd .laneState l ≤ 1
  fault : (e.source (304 + 4 * p)).level = true
  held : d.rd .holdMs p ≠ 0 → e.rd .holdState p = 1 ∧ (e.port p).hold = some (n, d.rd .holdMs p)
  flushed : d.rd .holdMs p = 0 → e.rd .holdState p = 2 ∧ ∀ q < 8, e.queue (upQueue p q) = []

theorem Dev.cutPort_counts (n p : Nat) :
    (d.cutPort n p).rd .portState p = 0 ∧ (d.cutPort n p).rd .linkDowns p = (d.rd .linkDowns p + 1) % 2 ^ 64 := by
  unfold Dev.cutPort
  rw [Dev.modPort_rd, Dev.modPort_rd, Dev.rd_wr_same, Dev.rd_wr_other _ _ _ _ (by decide)]
  have lost := (Dev.Falls.settleSend (d.bump .linkDowns p) n p).trans (.loseSend _ n p)
  exact ⟨Nat.zero_mod _, (lost.regs _ p (by decide)).trans (d.rd_bump_counter p Reg.modulus_linkDowns)⟩

theorem Dev.portDown_goes {n p : Nat} (hp : p < d.portCount) (hu : d.portUp p = true) (he : d.on .portEnable p = true) :
    d.WentDown (d.portDown n p) n p := by
  have cut := Dev.Falls.cutPort d n p
  have hold := Dev.Lowers.startPortHold (d.cutPort n p) n p
  have left := Dev.Falls.leavePort ((d.cutPort n p).startPortHold n p) n p
  have restarted := Dev.Falls.restartPort (((d.cutPort n p).startPortHold n p).leavePort n p) n p
  have faulted := Dev.Falls.faultPort ((((d.cutPort n p).startPortHold n p).leavePort n p).restartPort n p) n p true
  have after := (left.trans restarted).trans faulted
  have whole : ∀ r i, r ∉ downRegs →
      (((d.cutPort n p).startPortHold n p).leavePort n p).rd r i = d.rd r i := fun r i hr =>
    (((cut.mono (by decide)).toLowers.trans (hold.mono (by decide))).trans (left.mono (by decide)).toLowers).regs r i hr
  obtain ⟨state, downs⟩ := d.cutPort_counts n p
  obtain ⟨held, flushed⟩ := (d.cutPort n p).startPortHold_holds n p
  rw [cut.regs .holdMs p (by decide)] at held flushed
  rw [d.portDown_of_up hu]
  refine ⟨?_, ?_, fun l hl => ?_, ?_, fun some => ?_, fun none => ?_⟩
  · rw [after.regs _ _ (by decide), hold.regs _ _ (by decide), state]
  · rw [after.regs _ _ (by decide), hold.regs _ _ (by decide), downs]
  · rw [Dev.faultPort_of_on _ (by rw [Dev.on_of_rd ((restarted.regs _ _ (by decide)).trans (whole _ _ (by decide))), he]),
      Dev.raiseLevel_rd _ _ _ _ (by decide)]
    refine Dev.restartPort_low _ n ?_ l ?_
    · rwa [Dev.portCount_of_width (whole _ _ (by decide))]
    · rwa [Dev.lanesOf_of_width (whole _ _ (by decide))]
  · rw [Dev.faultPort_of_on _ (by rw [Dev.on_of_rd ((restarted.regs _ _ (by decide)).trans (whole _ _ (by decide))), he])]
    exact Dev.raiseLevel_level _ n { source := 304 + 4 * p, index := p }
      (Dev.unevaluated_of_le _ (show 256 ≤ 304 + 4 * p by omega))
  · exact ⟨(after.regs _ _ (by decide)).trans (held some).1, (after.holds p).trans (held some).2⟩
  · exact ⟨(after.regs _ _ (by decide)).trans (flushed none).1, fun q hq => (after.queue _).trans ((flushed none).2 q hq)⟩

/-! ### The mate link goes down (R251, R261) -/

theorem Dev.mateDown_goes {n : Nat} (he : d.on .mateEnable 0 = true) :
    (d.mateDown n).rd .mateState 0 = 0 ∧ (d.mateDown n).mate.hunt = true ∧
    (∀ l ∈ mateLanes, (d.mateDown n).rd .laneState l ≤ 1) ∧ ((d.mateDown n).source 398).level = true := by
  have restarted := Dev.Falls.restartMate (d.wr .mateState 0 0) n
  have lanes := (d.wr .mateState 0 0).restartMate_low n
  have state : ((d.wr .mateState 0 0).restartMate n).rd .mateState 0 = 0 :=
    (restarted.regs _ _ (by decide)).trans ((d.rd_wr_same _ _ _).trans (Nat.zero_mod _))
  have enabled : (((d.wr .mateState 0 0).restartMate n).huntMate n).on .mateEnable 0 = true :=
    (Dev.on_of_rd ((Dev.Falls.huntMate d n).regs .mateEnable 0 (by decide))).trans he
  rw [Dev.mateDown_eq, if_pos enabled]
  generalize (d.wr .mateState 0 0).restartMate n = a at *
  have mate : ((a.huntMate n).raiseLevel n { source := 398 }).mate = (a.huntMate n).mate :=
    (congrArg Dev.mate ((a.huntMate n).raiseLevel_butFaults n { source := 398 }) :)
  refine ⟨?_, ?_, fun l hl => ?_, ?_⟩
  · rw [Dev.raiseLevel_rd _ _ _ _ (by decide)]
    exact state
  · rw [mate]
    rfl
  · rw [Dev.raiseLevel_rd _ _ _ _ (by decide)]
    exact lanes l hl
  · exact (a.huntMate n).raiseLevel_level n { source := 398 } (Dev.unevaluated_of_le _ (by decide))

section
variable {s : State} {n : Nat}

theorem linkDown_port {p : Nat} (hp : p < 16) (hc : p < s.dev.portCount) (ha : s.dev.portAllowed p = true)
    (hu : s.dev.portUp p = true) : Completes (.linkDown n (.port p)) s n fun e => s.dev.WentDown e (max s.now n) p := by
  have enabled : s.dev.on .portEnable p = true := by
    unfold Dev.portAllowed at ha
    simp only [Bool.and_eq_true] at ha
    exact ha.1.1
  refine completes_onElement rfl hp ?_
  rw [if_pos (by simp [hc, ha])]
  exact s.dev.portDown_goes hc hu enabled

theorem linkDown_mate (ha : s.dev.mateAllowed = true) : Completes (.linkDown n .mate) s n fun e =>
    e.rd .mateState 0 = 0 ∧ e.mate.hunt = true ∧ (∀ l ∈ mateLanes, e.rd .laneState l ≤ 1) ∧ (e.source 398).level = true := by
  refine completes_at rfl ?_
  rw [if_pos ha]
  exact s.dev.mateDown_goes (Bool.and_eq_true_iff.1 ha).1

end

/-! ### Electrical idle (R254) -/

/-- Showing a link idle or awake changes its state alone. -/
theorem Dev.showIdle_state (k : LinkId) : ∃ r i v, (r = .portState ∨ r = .mateState) ∧
    (d.showIdle k = d ∨ d.showIdle k = d.wr r i v) := by
  unfold Dev.showIdle
  dsimp only
  cases k with
  | port p =>
    dsimp only
    split
    · exact ⟨_, 0, 0, .inl rfl, .inl rfl⟩
    · exact ⟨_, _, _, .inl rfl, .inr rfl⟩
  | mate =>
    dsimp only
    split
    · exact ⟨_, 0, 0, .inl rfl, .inl rfl⟩
    · exact ⟨_, _, _, .inr rfl, .inr rfl⟩

theorem Dev.showIdle_keeps (k : LinkId) : (d.showIdle k).lanes = d.lanes ∧ (d.showIdle k).wire = d.wire ∧
    ∀ r i, r ∉ [Reg.portState, .mateState] → (d.showIdle k).rd r i = d.rd r i := by
  obtain ⟨q, j, v, hq, shown | shown⟩ := d.showIdle_state k
  · rw [shown]
    exact ⟨rfl, rfl, fun _ _ _ => rfl⟩
  · rw [shown]
    refine ⟨rfl, rfl, fun r i hr => d.rd_wr_other _ _ _ fun e => hr ?_⟩
    rw [e]
    simpa using hq

variable {d} in
theorem Dev.lane_of_lanes {e : Dev} (h : e.lanes = d.lanes) (l : Nat) : e.lane l = d.lane l :=
  congrArg (fun t => Tab.get ({} : Lane) t l) h

section
variable {s : State} {n l : Nat}

theorem idleEntry_idles (hl : l < 20) (h : s.dev.mayIdle (max s.now n) l = true) : Completes (.idleEntry n l) s n fun e =>
    (e.lane l).idle = true ∧ (e.lane l).exitAt = none ∧ e.wire = s.dev.wire ∧
    ∀ r i, r ∉ [.portState, .mateState] → e.rd r i = s.dev.rd r i := by
  refine completes_onElement rfl hl ?_
  rw [if_pos h]
  obtain ⟨lanes, wire, regs⟩ :=
    (s.dev.modLane l fun x => { x with idle := true, exitAt := none }).showIdle_keeps (s.dev.laneHome l)
  refine ⟨?_, ?_, wire, regs⟩ <;> rw [Dev.lane_of_lanes lanes, Dev.lane_modLane, if_pos rfl]

theorem idleExit_wakes (hl : l < 20) (h : (s.dev.lane l).idle = true) : Completes (.idleExit n l) s n fun e =>
    (e.lane l).idle = false ∧ (e.lane l).exitAt = some (max s.now n + 2489) ∧
    e.wire = s.dev.wire ++ [.trainingBurst l] ∧ ∀ r i, r ∉ [.portState, .mateState] → e.rd r i = s.dev.rd r i := by
  refine completes_onElement rfl hl ?_
  rw [if_pos h, Dev.wakeLane, if_pos h]
  obtain ⟨lanes, wire, regs⟩ := ((s.dev.modLane l fun x => { x with idle := false, exitAt := some (max s.now n + 2489) }).emit
    (.trainingBurst l)).showIdle_keeps (s.dev.laneHome l)
  refine ⟨?_, ?_, wire, regs⟩ <;> rw [Dev.lane_of_lanes lanes, Dev.emit_lane, Dev.lane_modLane, if_pos rfl]

end

/-! ### A lane's second (R252) -/

/-- The symbols and codewords of a lane's second counted. -/
def Dev.fecCounted (l symbols corrected uncorrectable : Nat) : Dev :=
  match d.laneHome l with
  | .port p => ((d.add .fecSymbols l symbols).add .fecCorr p corrected).add .portFecUncorr p uncorrectable
  | .mate => (d.add .fecSymbols l symbols).mateCodewords l uncorrectable

/-- Counting reaches the counters and the mate link's second alone. -/
theorem Dev.fecCounted_counts (l symbols corrected uncorrectable : Nat) :
    let e := d.fecCounted l symbols corrected uncorrectable
    e.faults = d.faults ∧ e.lanes = d.lanes ∧ (∀ r ∉ [Reg.fecSymbols, .fecCorr, .portFecUncorr], ∀ i, e.rd r i = d.rd r i) ∧
    e.rd .fecSymbols l = (d.rd .fecSymbols l + symbols) % 2 ^ 64 ∧
    ∀ p, d.laneHome l = .port p → e.rd .fecCorr p = (d.rd .fecCorr p + corrected) % 2 ^ 64 ∧
      e.rd .portFecUncorr p = (d.rd .portFecUncorr p + uncorrectable) % 2 ^ 64 := by
  have symbol : (d.add .fecSymbols l symbols).rd .fecSymbols l = (d.rd .fecSymbols l + symbols) % 2 ^ 64 := by
    rw [Dev.add_eq, Dev.rd_wr_same, Reg.modulus_fecSymbols]
  unfold Dev.fecCounted
  cases d.laneHome l with
  | port p =>
    dsimp only
    simp only [Dev.add_eq] at symbol ⊢
    refine ⟨rfl, rfl, fun r hr i => ?_, ?_, ?_⟩
    · simp only [List.mem_cons, List.not_mem_nil, or_false, not_or] at hr
      obtain ⟨h₁, h₂, h₃⟩ := hr
      rw [Dev.rd_wr_other _ _ _ _ h₃, Dev.rd_wr_other _ _ _ _ h₂, Dev.rd_wr_other _ _ _ _ h₁]
    · rw [Dev.rd_wr_other _ _ _ _ (by decide), Dev.rd_wr_other _ _ _ _ (by decide), symbol]
    · rintro q ⟨⟩
      rw [Dev.rd_wr_same, Dev.rd_wr_other _ _ _ _ (by decide), Dev.rd_wr_same, Reg.modulus_portFecUncorr, Reg.modulus_fecCorr,
        Dev.rd_wr_other _ _ _ _ (by decide), Dev.rd_wr_other _ _ _ _ (by decide), Dev.rd_wr_other _ _ _ _ (by decide)]
      exact ⟨rfl, rfl⟩
  | mate =>
    have mate : ∀ e : Dev, (e.mateCodewords l uncorrectable).regs = e.regs ∧
        (e.mateCodewords l uncorrectable).faults = e.faults ∧ (e.mateCodewords l uncorrectable).lanes = e.lanes := fun e => by
      unfold Dev.mateCodewords
      split <;> exact ⟨rfl, rfl, rfl⟩
    obtain ⟨regs, faults, lanes⟩ := mate (d.add .fecSymbols l symbols)
    have reads : ∀ r i, ((d.add .fecSymbols l symbols).mateCodewords l uncorrectable).rd r i =
        (d.add .fecSymbols l symbols).rd r i := fun r i => congrArg (fun x => Tab.get (r.dflt i) x (regKey r i)) regs
    refine ⟨faults, lanes, fun r hr i => ?_, (reads _ _).trans symbol, nofun⟩
    exact (reads r i).trans (d.rd_wr_other _ _ _ fun h => hr (h ▸ List.mem_cons_self))

theorem Dev.mem_linkLanes {l : Nat} (h : l < 20) : l ∈ d.linkLanes (d.laneHome l) := by
  by_cases hl : l < 16
  · have home : d.laneHome l = .port (d.portOfLane l) := if_pos hl
    rw [home]
    refine List.mem_map.2 ⟨l % d.lanesPerPort, List.mem_range.2 (Nat.mod_lt _ d.lanesPerPort_pos), ?_⟩
    exact Nat.div_add_mod' l d.lanesPerPort
  · have home : d.laneHome l = .mate := if_neg hl
    rw [home]
    have : l = 16 ∨ l = 17 ∨ l = 18 ∨ l = 19 := by omega
    simpa [Dev.linkLanes, mateLanes] using this

variable {d} in
theorem Dev.linkLanes_of_width {e : Dev} (h : e.rd .portWidth 0 = d.rd .portWidth 0) (k : LinkId) :
    e.linkLanes k = d.linkLanes k := by
  cases k with
  | port p => exact Dev.lanesOf_of_width h p
  | mate => rfl

theorem degradeSource_le (k : LinkId) : 256 ≤ degradeSource k := by
  cases k with
  | port p => change 256 ≤ 304 + 4 * p + 1; omega
  | mate => decide

section
variable {s : State} {n l symbols corrected uncorrectable : Nat}

/-- A lane's second is counted, and its link is degraded while one of its lanes is. -/
theorem fecDegradeCheck_judges (hl : l < 20) : Completes (.fecDegradeCheck n l symbols corrected uncorrectable) s n fun e =>
    e.rd .fecSymbols l = (s.dev.rd .fecSymbols l + symbols) % 2 ^ 64 ∧
    (∀ p, s.dev.laneHome l = .port p → e.rd .fecCorr p = (s.dev.rd .fecCorr p + corrected) % 2 ^ 64 ∧
      e.rd .portFecUncorr p = (s.dev.rd .portFecUncorr p + uncorrectable) % 2 ^ 64) ∧
    (s.dev.rd .serDegrade l < symbols → (e.source (degradeSource (s.dev.laneHome l))).level = true) ∧
    ((∀ j ∈ s.dev.linkLanes (s.dev.laneHome l), j ≠ l → (s.dev.lane j).degraded = false) →
      symbols ≤ s.dev.rd .serDegrade l → s.dev.released e (degradeSource (s.dev.laneHome l))) := by
  obtain ⟨faults, lanes, kept, count, counts⟩ := s.dev.fecCounted_counts l symbols corrected uncorrectable
  refine completes_onElement (f := fun n d =>
    let c := (d.fecCounted l symbols corrected uncorrectable).modLane l fun x => { x with
      degraded := decide ((d.fecCounted l symbols corrected uncorrectable).rd .serDegrade l < symbols) }
    if (c.linkLanes (d.laneHome l)).any fun l => (c.lane l).degraded then
      c.raiseLevel n { source := degradeSource (d.laneHome l), index := match d.laneHome l with | .port p => p | .mate => 0 }
    else c.dropLevel (degradeSource (d.laneHome l))) rfl hl ?_
  dsimp only
  generalize s.dev.fecCounted l symbols corrected uncorrectable = b at *
  rw [kept .serDegrade (by decide)]
  have home := s.dev.mem_linkLanes hl
  have links : (b.modLane l fun x => { x with degraded := decide (s.dev.rd .serDegrade l < symbols) }).linkLanes
      (s.dev.laneHome l) = s.dev.linkLanes (s.dev.laneHome l) := Dev.linkLanes_of_width (kept .portWidth (by decide) 0) _
  have degraded : ∀ j, ((b.modLane l fun x => { x with degraded := decide (s.dev.rd .serDegrade l < symbols) }).lane j).degraded =
      if j = l then decide (s.dev.rd .serDegrade l < symbols) else (s.dev.lane j).degraded := fun j => by
    rw [Dev.lane_modLane]
    split
    · rfl
    · rw [Dev.lane_of_lanes lanes]
  have source : ∀ k, (b.modLane l fun x => { x with degraded := decide (s.dev.rd .serDegrade l < symbols) }).source k =
      s.dev.source k := fun k => congrArg (fun x : Faults => Tab.get ({} : Source) x.sources k) faults
  have reads : ∀ r i, (b.modLane l fun x => { x with degraded := decide (s.dev.rd .serDegrade l < symbols) }).rd r i = b.rd r i :=
    fun _ _ => rfl
  generalize (b.modLane l fun x => { x with degraded := decide (s.dev.rd .serDegrade l < symbols) }) = c at *
  rw [links]
  split
  · next bad =>
    refine ⟨?_, fun p hp => ?_, fun _ => ?_, fun none few => absurd bad ?_⟩
    · rw [Dev.raiseLevel_rd _ _ _ _ (by decide), reads, count]
    · rw [Dev.raiseLevel_rd _ _ _ _ (by decide), Dev.raiseLevel_rd _ _ _ _ (by decide), reads, reads]
      exact counts p hp
    · exact c.raiseLevel_level _ _ (c.unevaluated_of_le (degradeSource_le _))
    · rw [Bool.not_eq_true, List.any_eq_false]
      intro j hj
      rw [degraded]
      split
      · simpa using few
      · next other => simp [none j hj other]
  · next good =>
    refine ⟨?_, fun p hp => ?_, fun many => absurd (List.any_eq_true.2 ⟨l, home, ?_⟩) good, fun _ _ => ?_⟩
    · rw [Dev.dropLevel_rd, reads, count]
    · rw [Dev.dropLevel_rd, Dev.dropLevel_rd, reads, reads]
      exact counts p hp
    · rw [degraded, if_pos rfl]
      exact decide_eq_true many
    · have released := c.dropLevel_released (degradeSource (s.dev.laneHome l))
      unfold Dev.released at released ⊢
      rwa [source] at released

/-! ### Eye scans (R320) -/

theorem eyeScanDone_reads {height width : Nat} (hl : l < 20) (h : (s.dev.lane l).scanning = true) :
    Completes (.eyeScanDone n l height width) s n fun e =>
      (e.lane l).scanning = false ∧ e.rd .eyeHeightMv l = height % 2 ^ 16 ∧ e.rd .eyeWidthMui l = width % 2 ^ 16 ∧
      s.dev.regsKept e [(.eyeHeightMv, l), (.eyeWidthMui, l)] := by
  refine completes_onElement rfl hl ?_
  rw [if_pos h]
  refine ⟨by rw [Dev.lane_modLane, if_pos rfl], ?_, ?_, fun r i hr => ?_⟩
  · rw [Dev.modLane_rd, Dev.rd_wr_other _ _ _ _ (by decide), Dev.rd_wr_same, Reg.modulus_eyeHeightMv]
  · rw [Dev.modLane_rd, Dev.rd_wr_same, Reg.modulus_eyeWidthMui]
  · simp only [List.mem_cons, Prod.mk.injEq, List.not_mem_nil, or_false, not_or] at hr
    obtain ⟨other₁, other₂⟩ := hr
    rw [Dev.modLane_rd, Dev.rd_wr, if_neg other₂, Dev.rd_wr, if_neg other₁]

end

/-- Settles O51: a link's own registers, lanes and source are what going down, idling and its errors change. -/
theorem linksAreWatched : Obligations.LinksAreWatched := by
  unfold Obligations.LinksAreWatched
  refine ⟨fun s n => ⟨fun p hp hc ha hu => ?_, linkDown_mate⟩,
    fun s n l hl => ⟨idleEntry_idles hl, idleExit_wakes hl, fun _ _ _ => fecDegradeCheck_judges hl,
      fun _ _ => eyeScanDone_reads hl⟩⟩
  obtain ⟨t, step, now, queue, down⟩ := linkDown_port (n := n) hp hc ha hu
  exact ⟨t, step, now, queue, down.state, down.downs, down.lanes, down.fault, down.held, down.flushed⟩

end Sys2Proof.Machine
end

section
/-!
PROOFS. Reactions keep what the collectors have recorded (R283, R285, R286): whatever a tree, a port or the mate link does as it
is shut, a sticky bit stays set and a source that a broken wire asserts stays asserted.
-/
namespace Sys2Proof.Machine
open Sys2Proof

/-! ### Frames that are stored (R183) -/

section
variable {d : Dev}

theorem Dev.faults_takeFromBank {b c : Nat} {e : Dev} (h : d.takeFromBank b = some (c, e)) : e.faults = d.faults := by
  unfold Dev.takeFromBank at h
  dsimp only at h
  split at h
  · split at h
    · cases h
      rfl
    · split at h <;> cases h
      rfl
  · split at h <;> cases h
    rfl

theorem Dev.faults_takeInTurn {tries b c : Nat} {e : Dev} (h : d.takeInTurn tries b = some (c, e)) : e.faults = d.faults := by
  induction tries generalizing b with
  | zero => cases h
  | succ tries ih =>
    unfold Dev.takeInTurn at h
    split at h
    · next f hf =>
      have taken := Dev.faults_takeFromBank hf
      cases h
      exact taken
    · exact ih h

end

theorem Dev.faults_takeCells (d : Dev) (pool k : Nat) (got : List Nat) : (d.takeCells pool k got).2.2.faults = d.faults := by
  induction k generalizing d got with
  | zero => rfl
  | succ k ih =>
    unfold Dev.takeCells
    split
    · rfl
    · split
      · rfl
      · next e he =>
        have first : e.faults = d.faults := Dev.faults_takeInTurn he
        exact (ih (e.charge pool) _).trans first

theorem Dev.faults_badRead (d : Dev) : d.badRead.faults = d.faults := by
  unfold Dev.badRead
  dsimp only
  split
  · rfl
  · next e he =>
    have taken := Dev.faults_takeInTurn he
    exact taken

theorem Dev.faults_setQueue (d : Dev) (q : Nat) (l : List Nat) : (d.setQueue q l).faults = d.faults :=
  (congrArg Dev.faults (d.setQueue_butQueues q l) :)

namespace Dev.Recorded

theorem storeFrame (d : Dev) (n pool length : Nat) (bytes : Bytes) :
    d.Recorded (d.storeFrame n pool length bytes).2 ∧
      ∀ c e, (d.storeFrame n pool length bytes).1 = some (c, e) → d.Recorded e := by
  have taken := d.faults_takeCells pool (cellsOf length) []
  unfold Dev.storeFrame
  split
  · exact ⟨of_faults d.faults_badRead, fun c e h => absurd h.symm (Option.some_ne_none _)⟩
  · split
    · next e he =>
      rw [he] at taken
      refine ⟨refl d, fun c f h => ?_⟩
      cases h
      exact of_faults taken
    · next e he =>
      rw [he] at taken
      have freed : ∀ cells : List Nat, e.Recorded (e.each cells fun d c => d.freeCell n c) := fun cells =>
        each fun d c _ => of_catches (Dev.Frees.freeCell d n c).catches
      exact ⟨((of_faults taken).trans (freed _)).trans of_faults, fun c e h => absurd h.symm (Option.some_ne_none _)⟩

/-! ### Frames that are queued (R191-R195) -/

theorem dropDesc (d : Dev) (n k outcome : Nat) : d.Recorded (d.dropDesc n k outcome) :=
  of_catches (Dev.Frees.dropDesc d n k outcome).catches

theorem flushPort (d : Dev) (n p : Nat) : d.Recorded (d.flushPort n p) := of_catches (d.flushPort_flushed n p).drops.catches
theorem flushTerm (d : Dev) (n g : Nat) : d.Recorded (d.flushTerm n g) := of_catches (d.flushTerm_flushed n g).drops.catches

theorem settleHold (d : Dev) (n : Nat) (x : Desc) : d.Recorded (d.settleHold n x) := by
  have port : ∀ p, d.Recorded (d.settlePortHold n p) := fun p => by
    unfold Dev.settlePortHold
    split
    · split
      · exact trans of_faults (flushPort _ n p)
      · exact refl d
    · exact refl d
  have term : ∀ g, d.Recorded (d.settleTermHold n g) := fun g => by
    unfold Dev.settleTermHold
    split
    · split
      · exact trans of_faults (flushTerm _ n g)
      · exact refl d
    · exact refl d
  unfold Dev.settleHold
  split
  · exact port _
  · exact term _
  · exact refl d

theorem pushQueue (d : Dev) (q k : Nat) : d.Recorded (d.pushQueue q k) :=
  of_faults (d.faults_setQueue q (d.queue q ++ [k]))

/-- A step of which the collectors see nothing, then a frame dropped. -/
theorem drops {d e : Dev} (h : d.Recorded e) (n k outcome : Nat) : d.Recorded (e.dropDesc n k outcome) :=
  h.trans (dropDesc e n k outcome)

theorem enqueue (d : Dev) (n k : Nat) : d.Recorded (d.enqueue n k).2 := by
  unfold Dev.enqueue
  split
  · exact refl d
  · next x _ =>
    have settled := settleHold d n x
    generalize d.settleHold n x = a at settled
    have metered : d.Recorded (if x.meterEn then a.metered n x.meter x.length x.colour else (x.colour, false, a)).2.2 := by
      split <;> exact settled.trans of_faults
    dsimp only
    split
    · refine drops ?_ n k 6
      split
      · split
        · exact settled
        · exact settled.trans of_faults
      · exact settled
    · generalize (if x.meterEn then a.metered n x.meter x.length x.colour else (x.colour, false, a)) = m at metered
      obtain ⟨colour, drop, e⟩ := m
      have followed := metered.trans (of_catches (Dev.Frees.follow (l := []) e x.sampled fun f =>
        { f with marks := f.marks / 4 * 4 + colour }).catches)
      dsimp only at followed ⊢
      generalize e.follow x.sampled (fun f => { f with marks := f.marks / 4 * 4 + colour }) = f at followed
      split
      · exact drops (followed.trans of_faults) n k 4
      · split
        · exact (followed.trans of_faults).trans (pushQueue _ _ k)
        · generalize hg : ((f.setDesc k { x with colour := colour }).drawNoise).2.updateAvg x.queueNo
            (field ((f.setDesc k { x with colour := colour }).win 0x3700 x.queueNo) 27 5) = g
          have averaged : d.Recorded g := followed.trans (of_faults (by rw [← hg]; rfl))
          split
          · exact averaged.trans (pushQueue _ _ _)
          · exact (averaged.trans of_faults).trans (pushQueue _ _ _)
          · exact drops (averaged.trans of_faults) n k 3
          · exact drops (averaged.trans of_faults) n k 3

theorem queueDevice (d : Dev) (n pool kind dest queue domain : Nat) (bytes : Bytes) (oneStep : Bool) (ring : Option Nat) :
    d.Recorded (d.queueDevice n pool kind dest queue domain bytes oneStep ring).2 := by
  obtain ⟨left, stored⟩ := storeFrame d n pool (max 64 (bytes.length + 4)) bytes
  unfold Dev.queueDevice
  dsimp only
  split
  · next e he =>
    rw [he] at left
    exact left
  · next c e f he =>
    rw [he] at stored
    have added : ∀ x, e.Recorded (e.addDesc x).2 := fun x => of_faults
    exact ((stored c e rfl).trans (added _)).trans (enqueue _ n _)

/-! ### Indications and defects (R53-R60) -/

theorem orderIndication (d : Dev) (n t q : Nat) : d.Recorded (d.orderIndication n t q) := by
  unfold Dev.orderIndication
  split
  · exact refl d
  · next k rest _ =>
    dsimp only
    have queued : ∀ (e : Dev) l, e.Recorded (e.setQueue q l) := fun e l => of_faults (e.faults_setQueue q l)
    split
    · exact trans of_faults (queued _ _)
    · exact queued d _

/-- A step taken only under a condition. -/
theorem when (d : Dev) (c : Bool) {f : Dev → Dev} (h : ∀ d : Dev, d.Recorded (f d)) : d.Recorded (d.when c f) := by
  cases c
  · exact refl d
  · exact h d

theorem indicate (d : Dev) (n t event : Nat) : d.Recorded (d.indicate n t event) := by
  unfold Dev.indicate
  dsimp only
  generalize hm : (if 14 ≤ d.rd .indicationOffset t ∧ d.rd .indicationOffset t + 4 ≤ d.rd .indLength t then _ else _) = m
  have drawn : m.2.faults = d.faults := by
    rw [← hm]
    split <;> rfl
  generalize ha : m.2.modTree t (fun x => { x with indSeq := (x.indSeq + 1) % 256, indAt := n, indEvent := event }) = a
  have marked : d.Recorded a := of_faults (by rw [← ha]; exact drawn)
  have queued := marked.trans (queueDevice a n 33 0 (a.rd .indPort t) (a.rd .indQueue t) (a.rd .indDomain t) m.1 false none)
  generalize a.queueDevice n 33 0 (a.rd .indPort t) (a.rd .indQueue t) (a.rd .indDomain t) m.1 false none = b at queued
  have ordered := queued.trans (when b.2 b.1 fun e =>
    orderIndication e n t (upQueue (e.rd .indPort t) (e.rd .indQueue t)))
  split
  · exact ordered.trans of_faults
  · exact ordered.trans of_faults

theorem setTreeDefect (d : Dev) (n t b : Nat) (on : Bool) : d.Recorded (d.setTreeDefect n t b on) := by
  unfold Dev.setTreeDefect
  dsimp only
  split
  · exact when d on fun d => raiseLevel d n _
  · generalize ha : (d.wr .treeDefects t (setBit (d.rd .treeDefects t) b on)).when on
      (fun d => d.modTree t fun x => { x with pm := x.pm.mark b }) = a
    have marked : d.Recorded a := by
      rw [← ha]
      exact trans of_faults (when _ on fun _ => of_faults)
    have declared : d.Recorded
        (if on then (a.bump .defectEvents t).raiseLevel n { source := 8 * t + b } else a.dropLevel (8 * t + b)) := by
      split
      · exact (marked.trans of_faults).trans (raiseLevel _ n _)
      · exact marked.trans (dropLevel a _)
    exact declared.trans (when _ _ fun d => indicate d n t _)

/-! ### Trees that go dark (R67, R361) -/

theorem judgeRdi (d : Dev) (n t : Nat) : d.Recorded (d.judgeRdi n t) := setTreeDefect d n t 3 _

theorem startTermHold (d : Dev) (n g : Nat) : d.Recorded (d.startTermHold n g) := by
  unfold Dev.startTermHold
  dsimp only
  split
  · exact flushTerm d n g
  · exact of_faults

theorem flushTermAddrs (d : Dev) (g : Nat) : d.Recorded (d.flushTermAddrs g) := by
  unfold Dev.flushTermAddrs
  split <;> exact of_faults

theorem mirrorTerm (d : Dev) (n g : Nat) : d.Recorded (d.mirrorTerm n g) := by
  unfold Dev.mirrorTerm Dev.durable
  split <;> exact of_faults

theorem setTermState_empty (d : Dev) (n g : Nat) : d.Recorded (d.setTermState n g 0) := by
  have held : d.Recorded (if d.rd .termState g = 2 ∧ 0 ≠ 4 then (d.wr .termState g 0).startTermHold n g
      else d.wr .termState g 0) := by
    split
    · exact trans of_faults (startTermHold _ n g)
    · exact of_faults
  unfold Dev.setTermState
  dsimp only
  split
  · exact refl d
  · rw [if_neg (by decide : ¬(0 : Nat) = 2), if_neg (by decide : ¬(0 : Nat) = 4), if_pos (Or.inl rfl)]
    refine trans ?_ (mirrorTerm _ n g)
    split
    · exact (held.trans (flushTermAddrs _ g)).trans (judgeRdi _ n _)
    · exact held.trans (flushTermAddrs _ g)

theorem forgetTerm (d : Dev) (g : Nat) : d.Recorded (d.forgetTerm g) := by
  have updated : (d.dropUpdate g).faults = d.faults := by
    unfold Dev.dropUpdate
    dsimp only
    split <;> rfl
  exact of_faults updated

theorem toEmpty (d : Dev) (n g : Nat) : d.Recorded (d.toEmpty n g false) :=
  (forgetTerm d g).trans (setTermState_empty _ n g)

theorem darken (d : Dev) (n t : Nat) : d.Recorded (d.darken n t false) := by
  unfold Dev.darken
  extract_lets a b c
  have dark : d.Recorded b := of_faults
  have empty : b.Recorded c := each fun d g _ => by
    split
    · exact refl d
    · exact toEmpty d n g
  exact dark.trans empty

/-! ### Reactions (R283) -/

theorem portDown (d : Dev) (n p : Nat) : d.Recorded (d.portDown n p) := (Dev.Lowers.portDown d n p).recorded

theorem shutElement (d : Dev) (n e : Nat) : d.Recorded (d.shutElement n e) := by
  unfold Dev.shutElement
  split
  · exact refl d
  · extract_lets new a shown b
    have trees : d.Recorded a := each fun d t _ => (darken d n t).trans (each fun d k _ => dropLevel d _)
    have shut : d.Recorded b := trees.trans ⟨fun _ => id, fun _ => .refl _⟩
    split
    · exact shut.trans (portDown b n _)
    · split
      · exact shut.trans (Dev.Falls.mateDown b n).recorded
      · exact shut

end Dev.Recorded

/-! ### The DEVICE reaction (R283) -/

/-- The registers of a device reaction. -/
def reactRegs : List Reg := downRegs ++ .mateState :: cipherRegs

/-- A reaction is noted where the collectors keep no record. -/
theorem Dev.Lowers.device (d : Dev) (k : Nat) {l : List Reg} : d.Lowers l { d with faults := { d.faults with device := k } } :=
  ⟨fun _ _ _ => rfl, fun _ => id, fun _ => id, fun _ => .refl _⟩

theorem Dev.Lowers.of_sends {d e : Dev} (h : d.Sends e) : d.Lowers (.mateState :: cipherRegs) e where
  regs := h.regs
  descs k hk := by exact (congrArg (Dev.desc · k) h.rest :).trans hk
  recorded := .of_faults (congrArg Dev.faults h.rest :)

theorem Dev.Lowers.uplinksDown (d : Dev) (n : Nat) : d.Lowers reactRegs (d.uplinksDown n) :=
  (Dev.Lowers.device d 2).trans (.each fun d p _ => (Dev.Lowers.portDown d n p).mono (by decide))

theorem Dev.Lowers.startRelinquish (d : Dev) (n : Nat) (fault : Bool) (m : Option Master) :
    d.Lowers reactRegs (d.startRelinquish n fault m) := by
  unfold Dev.startRelinquish
  extract_lets k _ a b
  have asked : d.Lowers reactRegs a := .of_eq
  have sent : a.Lowers reactRegs b := (Dev.Lowers.of_sends (.sendSealed a n 3 false [] 8 _)).mono (by decide)
  exact (asked.trans sent).trans .of_eq

theorem Dev.Lowers.deviceReaction (d : Dev) (n : Nat) : d.Lowers reactRegs (d.deviceReaction n) := by
  unfold Dev.deviceReaction
  split
  · exact .refl d
  · split
    · exact .uplinksDown d n
    · split
      · exact (Dev.Lowers.device d 1).trans (.startRelinquish _ n true none)
      · exact .uplinksDown d n
    · exact .refl d

/-! ### Collection (R285) -/

namespace Dev.Recorded

theorem react (d : Dev) (n s sev : Nat) : d.Recorded (d.react n s sev) := by
  unfold Dev.react
  split
  · split
    · exact shutElement d n _
    · exact refl d
  · split
    · exact (Dev.Lowers.deviceReaction d n).recorded
    · exact refl d

theorem setSticky (d : Dev) (s sev : Nat) : d.Recorded (d.setSticky s sev) :=
  modSource d s ⟨fun h => ⟨rfl, by simp [h]⟩, id, id, fun h _ => h⟩

/-- What waits for the collectors, and how much they have lost, is no record of a fault. -/
theorem waiting (d : Dev) (a : List (Nat × Nat × Occurrence)) (o : Nat) :
    d.Recorded { d with faults := { d.faults with arriving := a, overflow := o } } := ⟨fun _ => id, fun _ => .refl _⟩

theorem overflowFault (d : Dev) (n : Nat) : d.Recorded (d.overflowFault n) := by
  unfold Dev.overflowFault
  extract_lets _ a sev b _ c
  have counted : d.Recorded a := waiting d d.faults.arriving _
  have caught : a.Recorded c := (raise a n _).trans (waiting b _ b.faults.overflow)
  split
  · exact counted
  · exact ((counted.trans caught).trans (setSticky c 443 sev)).trans (react _ n 443 sev)

/-- A record that is empty is filled. -/
theorem fill (d : Dev) (h : d.faults.first = none) (x : Option FirstFault) :
    d.Recorded { d with faults := { d.faults with first := x } } :=
  ⟨fun f hf => (Option.some_ne_none f (hf.symm.trans h)).elim, fun _ => .refl _⟩

end Dev.Recorded

/-- The first-fault record of a cycle's occurrences, where it is empty (R288). -/
def Dev.noteFirst (d : Dev) (c : Nat) (occs : List (Nat × Nat)) : Dev :=
  match d.faults.first.isNone, occs with
  | true, o :: os =>
    let b := os.foldl betterFault o
    let cap := d.captureOf c b.1
    { d with faults := { d.faults with first := some ⟨cap, b.2, false, (occs.map Prod.fst).dedup.length - 1⟩ } }
  | _, _ => d

theorem Dev.Recorded.noteFirst (d : Dev) (c : Nat) (occs : List (Nat × Nat)) : d.Recorded (d.noteFirst c occs) := by
  unfold Dev.noteFirst
  split
  · next h => exact .fill d (Option.isNone_iff_eq_none.1 h) _
  · exact .refl d

/-- Occurrences that find the record full advance OVERFLOW (R289). -/
def Dev.noteOverflow (d : Dev) (c : Nat) (fresh : List Nat) : Dev := d.each (fresh.filter (· != 443)) fun d _ => d.overflowFault c

/-- The sources of a cycle that were not sticky. -/
def Dev.freshOf (d : Dev) (occs : List (Nat × Nat)) : List Nat := (occs.map Prod.fst).dedup.filter fun s => !(d.source s).sticky

/-- A cycle is recorded, then reacted to. -/
theorem Dev.collectCycle_eq (d : Dev) (n c : Nat) (occs : List (Nat × Nat)) : d.collectCycle n c occs =
    (if d.faults.first.isNone then (d.noteFirst c occs).each occs fun d o => d.setSticky o.1 o.2
      else ((d.noteFirst c occs).each occs fun d o => d.setSticky o.1 o.2).noteOverflow c (d.freshOf occs)).each occs
      fun d o => d.react n o.1 o.2 := rfl

namespace Dev.Recorded

theorem afterSticky (d : Dev) (c : Nat) (fresh : List Nat) (b : Bool) :
    d.Recorded (if b then d else d.noteOverflow c fresh) := by
  split
  · exact refl d
  · exact each fun d _ _ => overflowFault d c

theorem collectCycle (d : Dev) (n c : Nat) (occs : List (Nat × Nat)) : d.Recorded (d.collectCycle n c occs) := by
  rw [Dev.collectCycle_eq]
  exact (((noteFirst d c occs).trans (each fun d o _ => setSticky d o.1 o.2)).trans (afterSticky _ c _ _)).trans
    (each fun d o _ => react d n o.1 o.2)

end Dev.Recorded

end Sys2Proof.Machine
end

section
/-!
PROOFS. What the Fault Collectors make of the occurrences that have arrived (R283, R285, R288, R289): every one of them is
recorded, one alone fills the first-fault record, and those of severity S1 or below change nothing else.
-/
namespace Sys2Proof.Machine
open Sys2Proof

variable (d : Dev)

/-! ### A collection -/

/-- The device whose collectors have taken what waited. -/
def Dev.taken : Dev := { d with faults := { d.faults with arriving := [] } }

/-- The occurrences captured at tick `c` that wait. -/
def Dev.occsAt (c : Nat) : List (Nat × Nat) := (d.faults.arriving.filter fun p => p.1 == c).map fun p => (p.2.2.source, p.2.1)

theorem Dev.collect_eq (n : Nat) :
    d.collect n = (d.taken.each d.arrivalTicks fun e c => e.collectCycle n c (d.occsAt c)).judgePins := rfl

/-- The pins follow the collectors, and nothing follows the pins. -/
theorem Dev.judgePins_chip : ∃ x, d.judgePins = { d with chip := x } := by
  unfold Dev.judgePins
  split
  · exact ⟨_, rfl⟩
  · split <;> exact ⟨_, rfl⟩

theorem Dev.collect_idle (n : Nat) (h : d.faults.arriving = []) : d.collect n = d.judgePins := by
  have ticks : d.arrivalTicks = [] := by
    unfold Dev.arrivalTicks
    rw [h]
    rfl
  have same : d.taken = d := by
    unfold Dev.taken
    rw [← h]
  rw [Dev.collect_eq, ticks, same]
  rfl

namespace Dev.Recorded

theorem taken : d.Recorded d.taken := waiting d [] d.faults.overflow

theorem judgePins : d.Recorded d.judgePins := by
  obtain ⟨x, hx⟩ := d.judgePins_chip
  rw [hx]
  exact of_faults

theorem collect (n : Nat) : d.Recorded (d.collect n) := by
  rw [Dev.collect_eq]
  exact ((taken d).trans (each fun e c _ => collectCycle e n c _)).trans (judgePins _)

/-- What a step of a list reaches, and what records keep, the list reaches. -/
theorem each_reaches {α : Type} {P : Dev → Prop} {d : Dev} {xs : List α} {g : Dev → α → Dev} {x : α} (hx : x ∈ xs)
    (hg : ∀ (d : Dev) y, d.Recorded (g d y)) (hp : ∀ d, P (g d x)) (keep : ∀ d e : Dev, d.Recorded e → P d → P e) :
    P (d.each xs g) := by
  induction xs generalizing d with
  | nil => cases hx
  | cons y ys ih =>
    rcases List.mem_cons.1 hx with rfl | hx
    · exact keep (g d x) _ (each fun e z _ => hg e z) (hp d)
    · exact ih hx

end Dev.Recorded

/-- Source `s` is recorded, under severity `sev` at least. -/
def Dev.Sticks (s sev : Nat) : Prop := (d.source s).sticky = true ∧ sev ≤ (d.source s).severity

variable {d} in
theorem Dev.Sticks.kept {e : Dev} {s sev : Nat} (h : d.Recorded e) (k : d.Sticks s sev) : e.Sticks s sev :=
  ⟨((h.source s).sticky k.1).1, k.2.trans ((h.source s).sticky k.1).2⟩

theorem Dev.setSticky_sticks (s sev : Nat) : (d.setSticky s sev).Sticks s sev := by
  unfold Dev.Sticks Dev.setSticky
  rw [Dev.source_modSource, if_pos rfl]
  refine ⟨rfl, ?_⟩
  dsimp only
  split
  · exact le_max_right _ _
  · exact le_rfl

theorem Dev.collectCycle_sticks (n c : Nat) {occs : List (Nat × Nat)} {s sev : Nat} (h : (s, sev) ∈ occs) :
    (d.collectCycle n c occs).Sticks s sev := by
  have set : ((d.noteFirst c occs).each occs fun d o => d.setSticky o.1 o.2).Sticks s sev :=
    Dev.Recorded.each_reaches (P := fun e => e.Sticks s sev) h (fun d o => .setSticky d o.1 o.2)
      (fun d => d.setSticky_sticks s sev) fun _ _ h k => k.kept h
  rw [Dev.collectCycle_eq]
  exact set.kept ((Dev.Recorded.afterSticky _ c _ _).trans (.each fun d o _ => .react d n o.1 o.2))

/-- Every occurrence that waits is recorded (R285). -/
theorem Dev.collect_sticks (n : Nat) {x : Nat × Nat × Occurrence} (h : x ∈ d.faults.arriving) :
    (d.collect n).Sticks x.2.2.source x.2.1 := by
  have tick : x.1 ∈ d.arrivalTicks := by
    unfold Dev.arrivalTicks
    rw [List.mem_insertionSort, List.mem_dedup]
    exact List.mem_map_of_mem h
  have occ : (x.2.2.source, x.2.1) ∈ d.occsAt x.1 :=
    List.mem_map.2 ⟨x, List.mem_filter.2 ⟨h, beq_self_eq_true x.1⟩, rfl⟩
  have cycles : (d.taken.each d.arrivalTicks fun e c => e.collectCycle n c (d.occsAt c)).Sticks x.2.2.source x.2.1 :=
    Dev.Recorded.each_reaches (P := fun e => e.Sticks x.2.2.source x.2.1) tick (fun e c => .collectCycle e n c _)
      (fun e => e.collectCycle_sticks n x.1 occ) fun _ _ h k => k.kept h
  rw [Dev.collect_eq]
  exact cycles.kept (.judgePins _)

/-! ### One occurrence alone (R288) -/

/-- The first-fault record names source `s`, captured by tick `c`. -/
def Dev.recordFirst (c s sev : Nat) : Dev :=
  { d with faults := { d.faults with first := some ⟨d.captureOf c s, sev, false, 0⟩ } }

variable {d} in
theorem Dev.collect_single {c sev : Nat} {o : Occurrence} (n : Nat) (ha : d.faults.arriving = [(c, sev, o)])
    (hf : d.faults.first = none) : d.collect n =
      (((d.taken.recordFirst c o.source sev).setSticky o.source sev).react n o.source sev).judgePins := by
  have ticks : d.arrivalTicks = [c] := by
    unfold Dev.arrivalTicks
    rw [ha]
    rfl
  have occs : d.occsAt c = [(o.source, sev)] := by
    unfold Dev.occsAt
    simp [ha]
  have empty : d.taken.faults.first.isNone = true := by
    rw [show d.taken.faults.first = none from hf]
    rfl
  have noted : d.taken.noteFirst c [(o.source, sev)] = d.taken.recordFirst c o.source sev := by
    unfold Dev.noteFirst
    rw [empty]
    rfl
  rw [Dev.collect_eq, ticks, Dev.each_cons, Dev.each_nil, occs, Dev.collectCycle_eq, if_pos empty, noted]
  rfl

theorem Dev.react_quiet (n s : Nat) {sev : Nat} (h : sev ≤ 1) : d.react n s sev = d := by
  unfold Dev.react
  rw [if_neg (by omega), if_neg (by omega)]

variable {d} in
/-- One occurrence of severity S1 or below reaches the collectors and the pins alone. -/
theorem Dev.collect_single_quiet {c sev : Nat} {o : Occurrence} (n : Nat) (ha : d.faults.arriving = [(c, sev, o)])
    (hf : d.faults.first = none) (hs : sev ≤ 1) : ∃ f x, d.collect n = { d with faults := f, chip := x } := by
  rw [Dev.collect_single n ha hf, Dev.react_quiet _ _ _ hs]
  obtain ⟨x, hx⟩ := ((d.taken.recordFirst c o.source sev).setSticky o.source sev).judgePins_chip
  exact ⟨_, x, hx⟩

variable {d} in
/-- One occurrence fills an empty record. -/
theorem Dev.collect_single_first {c sev : Nat} {o : Occurrence} (n : Nat) (ha : d.faults.arriving = [(c, sev, o)])
    (hf : d.faults.first = none) : (d.collect n).faults.first = some ⟨d.captureOf c o.source, sev, false, 0⟩ := by
  rw [Dev.collect_single n ha hf]
  have kept := ((Dev.Recorded.setSticky (d.taken.recordFirst c o.source sev) o.source sev).trans
    (.react _ n o.source sev)).trans (.judgePins _)
  exact kept.first _ rfl

/-- Severity S2 of a tree's source shuts the tree (R283). -/
theorem Dev.react_shuts (n : Nat) {s : Nat} (h : s < 256) : s / 8 ∈ (d.react n s 2).faults.shut := by
  have element : d.element s = some (s / 8) := by
    unfold Dev.element elementOf
    rw [if_neg (by omega), if_neg (by omega), if_pos h]
  unfold Dev.react
  rw [if_pos rfl, element]
  dsimp only
  unfold Dev.shutElement
  split
  · next shut => exact List.contains_iff_mem.1 shut
  · dsimp only
    rw [if_neg (by omega), if_neg (by omega)]
    exact List.mem_append_right _ (List.mem_singleton_self _)

/-! ### Occurrences of severity S1 or below -/

/-- A source's condition and its wires are as they were. -/
def Source.Asserts (x y : Source) : Prop := y.level = x.level ∧ y.broken = x.broken ∧ y.cutOff = x.cutOff

/-- `e` is `d` after records have been made and no reaction has been taken. -/
structure Dev.Calm (d e : Dev) : Prop where
  rest : e.butFaults = d.butFaults
  regs : d.rdKept e [.occurrences]
  source : ∀ k, (d.source k).Asserts (e.source k)

namespace Dev.Calm

variable {d} {e f : Dev}

theorem refl (d : Dev) : d.Calm d := ⟨rfl, fun _ _ _ => rfl, fun _ => ⟨rfl, rfl, rfl⟩⟩

theorem trans (h : d.Calm e) (k : e.Calm f) : d.Calm f where
  rest := k.rest.trans h.rest
  regs r i hr := (k.regs r i hr).trans (h.regs r i hr)
  source i := by
    obtain ⟨l, b, c⟩ := h.source i
    obtain ⟨l', b', c'⟩ := k.source i
    exact ⟨l'.trans l, b'.trans b, c'.trans c⟩

theorem severity (h : d.Calm e) (s : Nat) : e.severity s = d.severity s := (congrArg (Dev.severity · s) h.rest :)

/-- The first-fault record, what waits and how much is lost reach neither a source nor a register. -/
theorem records (d : Dev) (x : Option FirstFault) (a : List (Nat × Nat × Occurrence)) (o : Nat) :
    d.Calm { d with faults := { d.faults with first := x, arriving := a, overflow := o } } :=
  ⟨rfl, fun _ _ _ => rfl, fun _ => ⟨rfl, rfl, rfl⟩⟩

theorem setSticky (d : Dev) (s sev : Nat) : d.Calm (d.setSticky s sev) := by
  refine ⟨rfl, fun _ _ _ => rfl, fun k => ?_⟩
  unfold Dev.setSticky
  rw [Dev.source_modSource]
  split
  · next h => rw [h]; exact ⟨rfl, rfl, rfl⟩
  · exact ⟨rfl, rfl, rfl⟩

theorem raise (d : Dev) (n : Nat) (o : Occurrence) : d.Calm (d.raise n o) := by
  refine ⟨d.raise_butFaults n o, fun r i hr => d.raise_rd n o i fun e => hr (e ▸ List.mem_cons_self), fun k => ?_⟩
  obtain ⟨c, hc⟩ := d.raiseAt_source n (d.severity o.source) o k
  rw [Dev.raise, hc]
  exact ⟨rfl, rfl, rfl⟩

theorem noteFirst (d : Dev) (c : Nat) (occs : List (Nat × Nat)) : d.Calm (d.noteFirst c occs) := by
  unfold Dev.noteFirst
  split
  · exact records d _ d.faults.arriving d.faults.overflow
  · exact refl d

theorem overflowFault (d : Dev) (n : Nat) (h : d.severity 443 ≤ 1) : d.Calm (d.overflowFault n) := by
  unfold Dev.overflowFault
  extract_lets _ a sev b _ c
  have counted : d.Calm a := records d d.faults.first d.faults.arriving _
  have caught : a.Calm c := (raise a n _).trans (records b b.faults.first _ b.faults.overflow)
  have low : sev ≤ 1 := h
  split
  · exact counted
  · rw [Dev.react_quiet _ n 443 low]
    exact (counted.trans caught).trans (setSticky c 443 sev)

theorem noteOverflow (d : Dev) (c : Nat) (fresh : List Nat) (h : d.severity 443 ≤ 1) : d.Calm (d.noteOverflow c fresh) :=
  Dev.each_holds (I := d.Calm) (refl d) fun e he _ _ => he.trans (overflowFault e c (by rwa [he.severity]))

theorem collectCycle (d : Dev) (n c : Nat) {occs : List (Nat × Nat)} (h : d.severity 443 ≤ 1) (ho : ∀ o ∈ occs, o.2 ≤ 1) :
    d.Calm (d.collectCycle n c occs) := by
  have set : d.Calm ((d.noteFirst c occs).each occs fun d o => d.setSticky o.1 o.2) :=
    (noteFirst d c occs).trans
      (Dev.each_holds (I := Dev.Calm (d.noteFirst c occs)) (refl _) fun e he o _ => he.trans (setSticky e o.1 o.2))
  rw [Dev.collectCycle_eq]
  generalize (d.noteFirst c occs).each occs (fun d o => d.setSticky o.1 o.2) = a at set
  have overflown : d.Calm (if d.faults.first.isNone then a else a.noteOverflow c (d.freshOf occs)) := by
    split
    · exact set
    · exact set.trans (noteOverflow a c _ (by rwa [set.severity]))
  exact Dev.each_holds (I := d.Calm) overflown fun e he o hm => by rwa [Dev.react_quiet e n o.1 (ho o hm)]

/-- Occurrences of severity S1 or below, OVERFLOW's among them, reach the collectors and the pins alone. -/
theorem collect (n : Nat) (h : d.severity 443 ≤ 1) (ha : ∀ x ∈ d.faults.arriving, x.2.1 ≤ 1) :
    ∃ e x, d.Calm e ∧ d.collect n = { e with chip := x } := by
  have quiet : ∀ c, ∀ o ∈ d.occsAt c, o.2 ≤ 1 := fun c o ho => by
    obtain ⟨x, hx, rfl⟩ := List.mem_map.1 ho
    exact ha x (List.mem_filter.1 hx).1
  have all : d.Calm (d.taken.each d.arrivalTicks fun e c => e.collectCycle n c (d.occsAt c)) :=
    Dev.each_holds (I := d.Calm) (records d d.faults.first [] d.faults.overflow)
      fun e he c _ => he.trans (collectCycle e n c (by rwa [he.severity]) (quiet c))
  obtain ⟨x, hx⟩ := (d.taken.each d.arrivalTicks fun e c => e.collectCycle n c (d.occsAt c)).judgePins_chip
  exact ⟨_, x, all, hx⟩

end Dev.Calm

/-! ### Occurrences of the hub's own sources -/

theorem Dev.element_hub {s : Nat} (h : 404 ≤ s) : d.element s = none := by
  unfold Dev.element elementOf
  rw [if_neg (by omega), if_neg (by omega), if_neg (by omega), if_neg (by omega), if_neg (by omega), if_neg (by omega),
    if_neg (by omega), if_neg (by omega)]

namespace Dev.Lowers

variable {d} {l : List Reg}

theorem of_calm {e : Dev} (h : d.Calm e) (hr : d.Recorded e) (ho : .occurrences ∈ l) : d.Lowers l e where
  regs r i hi := h.regs r i fun x => hi (List.mem_singleton.1 x ▸ ho)
  descs k hk := (congrArg (Dev.desc · k) h.rest :).trans hk
  recorded := hr

/-- A source of the hub shuts no element: what it may bring is the DEVICE reaction. -/
theorem react (d : Dev) (n : Nat) {s : Nat} (sev : Nat) (h : 404 ≤ s) : d.Lowers reactRegs (d.react n s sev) := by
  unfold Dev.react
  rw [d.element_hub h]
  split
  · exact refl d
  · split
    · exact deviceReaction d n
    · exact refl d

theorem overflowFault (d : Dev) (n : Nat) : d.Lowers reactRegs (d.overflowFault n) := by
  unfold Dev.overflowFault
  extract_lets _ a sev b _ c
  have counted : d.Lowers reactRegs a :=
    of_calm (.records d d.faults.first d.faults.arriving _) (.waiting d d.faults.arriving _) (by decide)
  have caught : a.Lowers reactRegs c :=
    of_calm ((Dev.Calm.raise a n _).trans (.records b b.faults.first _ b.faults.overflow))
      ((Dev.Recorded.raise a n _).trans (.waiting b _ b.faults.overflow)) (by decide)
  split
  · exact counted
  · exact ((counted.trans caught).trans (of_calm (.setSticky c 443 sev) (.setSticky c 443 sev) (by decide))).trans
      (react _ n sev (by decide))

theorem collectCycle (d : Dev) (n c : Nat) {occs : List (Nat × Nat)} (h : ∀ o ∈ occs, 404 ≤ o.1) :
    d.Lowers reactRegs (d.collectCycle n c occs) := by
  have first : d.Lowers reactRegs (d.noteFirst c occs) := of_calm (.noteFirst d c occs) (.noteFirst d c occs) (by decide)
  have set : (d.noteFirst c occs).Lowers reactRegs ((d.noteFirst c occs).each occs fun d o => d.setSticky o.1 o.2) :=
    each fun e o _ => of_calm (.setSticky e o.1 o.2) (.setSticky e o.1 o.2) (by decide)
  rw [Dev.collectCycle_eq]
  generalize (d.noteFirst c occs).each occs (fun d o => d.setSticky o.1 o.2) = a at set
  have overflown : a.Lowers reactRegs (if d.faults.first.isNone then a else a.noteOverflow c (d.freshOf occs)) := by
    split
    · exact refl a
    · exact each fun e _ _ => overflowFault e c
  exact ((first.trans set).trans overflown).trans (each fun e o ho => react e n o.2 (h o ho))

theorem collect (n : Nat) (h : ∀ x ∈ d.faults.arriving, 404 ≤ x.2.2.source) : d.Lowers reactRegs (d.collect n) := by
  have hub : ∀ c, ∀ o ∈ d.occsAt c, 404 ≤ o.1 := fun c o ho => by
    obtain ⟨x, hx, rfl⟩ := List.mem_map.1 ho
    exact h x (List.mem_filter.1 hx).1
  have taken : d.Lowers reactRegs d.taken :=
    of_calm (.records d d.faults.first [] d.faults.overflow) (.taken d) (by decide)
  have cycles : d.taken.Lowers reactRegs (d.taken.each d.arrivalTicks fun e c => e.collectCycle n c (d.occsAt c)) :=
    each fun e c _ => collectCycle e n c (hub c)
  rw [Dev.collect_eq]
  obtain ⟨x, hx⟩ := (d.taken.each d.arrivalTicks fun e c => e.collectCycle n c (d.occsAt c)).judgePins_chip
  rw [hx]
  exact (taken.trans cycles).trans .of_eq

end Dev.Lowers

end Sys2Proof.Machine
end

section
/-!
PROOFS. What the silicon reports, broken wires and lossy counters bring (R187, R188, R212, R282-R288, R292-R295).
-/
namespace Sys2Proof.Machine
open Sys2Proof

variable (d : Dev)

theorem Reg.modulus_bridgeCrc : Reg.modulus .bridgeCrc = 2 ^ 64 := by decide +kernel
theorem Reg.modulus_ptrBad : Reg.modulus .ptrBad = 2 ^ 64 := by decide +kernel
theorem Reg.modulus_bufEccCorr : Reg.modulus .bufEccCorr = 2 ^ 64 := by decide +kernel
theorem Reg.modulus_bankEccCorr : Reg.modulus .bankEccCorr = 2 ^ 64 := by decide +kernel
theorem Reg.modulus_bufEccUncorr : Reg.modulus .bufEccUncorr = 2 ^ 64 := by decide +kernel
theorem Reg.modulus_pllUnlocks : Reg.modulus .pllUnlocks = 2 ^ 64 := by decide +kernel
theorem Reg.modulus_tjMc : Reg.modulus .tjMc = 2 ^ 32 := by decide +kernel

/-! ### Occurrences captured (R285, R287) -/

section
variable {d} {n : Nat} {o : Occurrence}

theorem Dev.raise_arriving (hd : d.disabled o.source = false) (hu : d.unevaluated o.source = false) :
    (d.raise n o).faults.arriving = d.faults.arriving ++ [(n, d.severity o.source, o)] := by
  unfold Dev.raise Dev.raiseAt
  rw [hd, hu]
  rfl

theorem Dev.raise_disabled (hd : d.disabled o.source = true) : d.raise n o = d := by
  unfold Dev.raise Dev.raiseAt
  rw [hd, Bool.true_or, if_pos rfl]

theorem Dev.raise_first : (d.raise n o).faults.first = d.faults.first := by
  unfold Dev.raise Dev.raiseAt
  split <;> rfl

/-- A source that is armed captures its first occurrence. -/
theorem Dev.raise_captures (hd : d.disabled o.source = false) (hu : d.unevaluated o.source = false)
    (hc : (d.source o.source).capture = none) : ∃ c, ((d.raise n o).source o.source).capture = some c ∧
      c.source = o.source ∧ c.tick = n ∧ c.index = o.index := by
  unfold Dev.raise Dev.raiseAt
  rw [hd, hu, Bool.or_self, if_neg Bool.false_ne_true]
  dsimp only
  rw [Dev.source_arriving, Dev.bump_eq, Dev.wr_source, Dev.source_modSource, if_pos rfl, hc]
  exact ⟨_, rfl, rfl, rfl, rfl⟩

/-- An occurrence adds to what waits no severity but its source's. -/
theorem Dev.raise_waits {x : Nat × Nat × Occurrence} (h : x ∈ (d.raise n o).faults.arriving) :
    x ∈ d.faults.arriving ∨ x.2.1 = d.severity o.source := by
  unfold Dev.raise Dev.raiseAt at h
  split at h
  · exact .inl h
  · exact (List.mem_append.1 h).imp id fun hx => by rw [List.mem_singleton.1 hx]

end

/-! ### Reports -/

section
variable {s : State} {n : Nat}

theorem faultOccurrence_collects {r : HwReport} {p : Dev → Prop} (hr : reportExists r = true)
    (hp : p (((s.dev.settleSends (max s.now n)).hwReport (max s.now n) r).collect (max s.now n))) :
    Completes (.faultOccurrence n [r]) s n p :=
  completes_at (if_pos (by simp [hr])) hp

end

/-! ### An occurrence as its engine reports it (R282, R283, R288) -/

/-- The condition of a level source that begins to hold. -/
def Dev.asserted (o : Occurrence) : Dev :=
  if isLevel o.source && !(d.source o.source).level then d.modSource o.source fun x => { x with level := true } else d

theorem Dev.asserted_keeps (o : Occurrence) : ∃ t, d.asserted o = { d with faults := { d.faults with sources := t } } := by
  unfold Dev.asserted
  split <;> exact ⟨_, rfl⟩

theorem Dev.asserted_source (o : Occurrence) (k : Nat) : ∃ l, (d.asserted o).source k = { d.source k with level := l } := by
  unfold Dev.asserted
  split
  · rw [Dev.source_modSource]
    split
    · next h => rw [h]; exact ⟨_, rfl⟩
    · exact ⟨_, rfl⟩
  · exact ⟨_, rfl⟩

/-- A condition that began before is raised again where it is no level source's. -/
theorem Dev.faultReport_plain (n : Nat) {o : Occurrence} (h : o.source ∉ [289, 297]) : d.faultReport n o =
    if isLevel o.source && !(d.source o.source).level then d.raiseLevel n o else d.raise n o := by
  simp only [List.mem_cons, List.not_mem_nil, or_false, not_or] at h
  unfold Dev.faultReport
  split
  · next h' => exact absurd h' h.1
  · next h' => exact absurd h' h.2
  · rfl

theorem Dev.faultReport_evaluated (n : Nat) {o : Occurrence} (h : o.source ∉ [289, 297]) (hu : d.unevaluated o.source = false) :
    d.faultReport n o = (d.asserted o).raise n o := by
  rw [d.faultReport_plain n h]
  unfold Dev.asserted
  split
  · next begins =>
    have quiet : (d.source o.source).level = false := by simpa using (Bool.and_eq_true_iff.1 begins).2
    unfold Dev.raiseLevel
    rw [quiet, hu, Bool.or_self, if_neg Bool.false_ne_true]
  · rfl

/-- An occurrence that is caught with nothing else waiting is the one that waits. -/
theorem Dev.raise_alone {n : Nat} {o : Occurrence} (ha : d.faults.arriving = []) (hd : d.disabled o.source = false)
    (hu : d.unevaluated o.source = false) : (d.raise n o).faults.arriving = [(n, d.severity o.source, o)] := by
  rw [Dev.raise_arriving hd hu, ha]
  rfl

section
variable {d} {n : Nat} {o : Occurrence} (ha : d.faults.arriving = []) (hf : d.faults.first = none)
  (hd : d.disabled o.source = false) (hu : d.unevaluated o.source = false)
include ha hf hd hu

/-- An occurrence alone, of severity S1 or below, counts once and is collected. -/
theorem Dev.raise_collects (hs : d.severity o.source ≤ 1) :
    ∃ f x, (d.raise n o).collect n = { d.raise n o with faults := f, chip := x } :=
  Dev.collect_single_quiet n (d.raise_alone ha hd hu) (Dev.raise_first.trans hf) hs

omit hf in
theorem Dev.raise_sticks : ((d.raise n o).collect n).Sticks o.source (d.severity o.source) :=
  Dev.collect_sticks _ n (x := (n, d.severity o.source, o)) (by rw [d.raise_alone ha hd hu]; exact List.mem_singleton_self _)

theorem Dev.raise_recorded (hc : (d.source o.source).capture = none) : ∃ f, ((d.raise n o).collect n).faults.first = some f ∧
    f.capture.source = o.source ∧ f.capture.tick = n ∧ f.capture.index = o.index ∧ f.severity = d.severity o.source ∧
    f.refilled = false := by
  obtain ⟨c, held, source, tick, index⟩ := Dev.raise_captures (n := n) hd hu hc
  refine ⟨_, Dev.collect_single_first n (d.raise_alone ha hd hu) (Dev.raise_first.trans hf), ?_⟩
  have capture : (d.raise n o).captureOf n o.source = c := by
    unfold Dev.captureOf
    rw [held]
    rfl
  rw [capture]
  exact ⟨source, tick, index, rfl, rfl⟩

theorem Dev.raise_shuts (hs : d.severity o.source = 2) (hk : o.source < 256) :
    o.source / 8 ∈ ((d.raise n o).collect n).faults.shut := by
  have alone := d.raise_alone (n := n) ha hd hu
  rw [hs] at alone
  rw [Dev.collect_single n alone (Dev.raise_first.trans hf)]
  obtain ⟨x, hx⟩ := ((((d.raise n o).taken.recordFirst n o.source 2).setSticky o.source 2).react n o.source 2).judgePins_chip
  rw [hx]
  exact Dev.react_shuts _ n hk

/-- Of the registers, OCCURRENCES of its source alone counts an occurrence that is collected quietly. -/
theorem Dev.raise_counts (hs : d.severity o.source ≤ 1) :
    ((d.raise n o).collect n).rd .occurrences o.source = (d.rd .occurrences o.source + 1) % 2 ^ 64 ∧
    d.regsKept ((d.raise n o).collect n) [(.occurrences, o.source)] := by
  obtain ⟨f, x, hx⟩ := Dev.raise_collects (n := n) ha hf hd hu hs
  have reads : ∀ r i, ((d.raise n o).collect n).rd r i = (d.bump .occurrences o.source).rd r i := fun r i => by
    rw [hx]
    exact Dev.raise_rd_enabled hd hu r i
  refine ⟨(reads _ _).trans (d.rd_bump_counter _ Reg.modulus_occurrences), fun r i hr => (reads r i).trans ?_⟩
  rw [Dev.rd_bump, if_neg fun h => hr (by rw [h.1, h.2]; exact List.mem_singleton_self _)]

end

/-! ### Conditions that are judged (R282) -/

/-- A level source as what is measured says. -/
def Dev.judge (n : Nat) (o : Occurrence) (on : Bool) : Dev := if on then d.raiseLevel n o else d.dropLevel o.source

/-- Nothing that waits is above severity S1. -/
def Dev.Quiet : Prop := ∀ x ∈ d.faults.arriving, x.2.1 ≤ 1

/-- `e` is `d` after source `k`'s condition has been judged. -/
structure Dev.Judged (d e : Dev) (k : Nat) : Prop where
  rest : e.butFaults = d.butFaults
  regs : d.rdKept e [.occurrences]
  others : ∀ j, j ≠ k → (d.source j).Asserts (e.source j)
  quiet : d.severity k ≤ 1 → d.Quiet → e.Quiet

theorem Dev.judge_judged (n : Nat) (o : Occurrence) (on : Bool) : d.Judged (d.judge n o on) o.source := by
  unfold Dev.judge
  split
  · refine ⟨d.raiseLevel_butFaults n o, fun r i hr => d.raiseLevel_rd n o i fun e => hr (e ▸ List.mem_cons_self), fun j hj => ?_,
      fun low quiet => ?_⟩
    · unfold Dev.raiseLevel
      split
      · exact ⟨rfl, rfl, rfl⟩
      · obtain ⟨level, broken, cutOff⟩ := (Dev.Calm.raise (d.modSource o.source fun x => { x with level := true }) n o).source j
        rw [Dev.source_modSource, if_neg hj] at level broken cutOff
        exact ⟨level, broken, cutOff⟩
    · unfold Dev.raiseLevel
      split
      · exact quiet
      · intro x hx
        rcases Dev.raise_waits hx with hx | hx
        · exact quiet x hx
        · rw [hx]
          exact low
  · refine ⟨d.dropLevel_butFaults _, fun r i _ => d.dropLevel_rd _ i, fun j hj => ?_, fun _ quiet => ?_⟩
    · rw [d.dropLevel_source _ hj]
      exact ⟨rfl, rfl, rfl⟩
    · unfold Dev.dropLevel
      split <;> exact quiet

/-- A condition judged and collected quietly: the source holds as it was judged, and OCCURRENCES alone counts. -/
theorem Dev.judge_collects (n : Nat) {o : Occurrence} (on : Bool) (hk : 256 ≤ o.source) (hs : d.severity o.source ≤ 1)
    (h443 : d.severity 443 ≤ 1) (hq : d.Quiet) :
    d.rdKept ((d.judge n o on).collect n) [.occurrences] ∧
    (on = true → (((d.judge n o on).collect n).source o.source).level = true) ∧
    (on = false → d.released ((d.judge n o on).collect n) o.source) := by
  have judged := d.judge_judged n o on
  have severity : (d.judge n o on).severity 443 = d.severity 443 := (congrArg (Dev.severity · 443) judged.rest :)
  obtain ⟨e, x, calm, same⟩ := Dev.Calm.collect n (by rwa [severity]) (judged.quiet hs hq)
  obtain ⟨level, -, -⟩ := calm.source o.source
  rw [same]
  refine ⟨fun r i hr => (calm.regs r i hr).trans (judged.regs r i hr), fun h => ?_, fun h => ?_⟩
  · subst h
    exact level.trans (d.raiseLevel_level n o (d.unevaluated_of_le hk))
  · subst h
    intro holds
    exact d.dropLevel_released o.source (level.symm.trans holds)

/-- What is released after a source's wires have been left as they were is released. -/
theorem Dev.released_of_asserts {d a e : Dev} {k : Nat} (h : (d.source k).Asserts (a.source k)) (hr : a.released e k) :
    d.released e k := by
  obtain ⟨-, broken, cutOff⟩ := h
  unfold Dev.released at hr ⊢
  rwa [broken, cutOff] at hr

/-! ### Junctions (R282, R356) -/

/-- A signed number of 32 bits reads as it was written. -/
theorem toSigned_ofSigned {v : Int} (h : -2147483648 ≤ v) (h' : v < 2147483648) :
    toSigned 32 (ofSigned 32 v % 2 ^ 32) = v := by
  unfold toSigned ofSigned
  have whole : ((2 ^ 32 : Nat) : Int) = 4294967296 := by norm_num
  rw [whole]
  norm_num
  split <;> omega

/-- A junction as it is measured, with its peak. -/
def Dev.junctionRead (d : Dev) (k : Nat) (mC : Int) : Dev :=
  (d.wrS .tjMc k mC).wrS .tjPeakMc k (max (d.rdS .tjPeakMc k) mC)

theorem Dev.junctionRead_regs (k : Nat) (mC : Int) : ∃ x, d.junctionRead k mC = { d with regs := x } := ⟨_, rfl⟩

theorem Dev.junctionRead_reads (k : Nat) {mC : Int} (h : -2147483648 ≤ mC) (h' : mC < 2147483648) (j : Nat) :
    (d.junctionRead k mC).rdS .tjMc j = if j = k then mC else d.rdS .tjMc j := by
  have other : (d.junctionRead k mC).rdS .tjMc j = (d.wrS .tjMc k mC).rdS .tjMc j :=
    congrArg (toSigned 32) (Dev.rd_wr_other _ _ _ _ (by decide))
  rw [other]
  split
  · next hj =>
    subst hj
    unfold Dev.rdS
    rw [Dev.wrS_eq, Dev.rd_wr_same, Reg.modulus_tjMc]
    exact toSigned_ofSigned h h'
  · next hj =>
    unfold Dev.rdS
    rw [Dev.wrS_eq, Dev.rd_wr_elsewhere _ _ hj]

/-- The junctions' sources are judged one after the other. -/
theorem Dev.judgeJunctions_eq (n : Nat) : d.judgeJunctions n =
    (((d.judge n { source := 295 } (decide (115000 < d.rdS .tjMc 0))).judge n { source := 303 }
      (decide (115000 < d.rdS .tjMc 1))).judge n { source := 435 }
      ((List.range 3).any fun e => decide (115000 < d.rdS .tjMc e))).judge n { source := 436 }
      ((List.range 3).any fun e => decide (125000 < d.rdS .tjMc e)) := rfl

theorem Dev.Judged.severity {d e : Dev} {k : Nat} (h : d.Judged e k) (s : Nat) : e.severity s = d.severity s :=
  (congrArg (Dev.severity · s) h.rest :)

theorem Dev.judgeJunctions_collects (n : Nat) (ha : d.Quiet) (hs : ∀ k ∈ [295, 303, 435, 436, 443], d.severity k ≤ 1) :
    d.rdKept ((d.judgeJunctions n).collect n) [.occurrences] ∧
    ((∃ j < 3, 125000 < d.rdS .tjMc j) → (((d.judgeJunctions n).collect n).source 436).level = true) ∧
    ((∀ j < 3, d.rdS .tjMc j ≤ 125000) → d.released ((d.judgeJunctions n).collect n) 436) := by
  rw [Dev.judgeJunctions_eq]
  have first := d.judge_judged n { source := 295 } (decide (115000 < d.rdS .tjMc 0))
  generalize d.judge n { source := 295 } _ = a at *
  have second := a.judge_judged n { source := 303 } (decide (115000 < d.rdS .tjMc 1))
  generalize a.judge n { source := 303 } _ = b at *
  have third := b.judge_judged n { source := 435 } ((List.range 3).any fun e => decide (115000 < d.rdS .tjMc e))
  generalize b.judge n { source := 435 } _ = c at *
  have severity : ∀ k, c.severity k = d.severity k := fun k =>
    (third.severity k).trans ((second.severity k).trans (first.severity k))
  have quiet : c.Quiet := third.quiet (by rw [second.severity, first.severity]; exact hs _ (by decide))
    (second.quiet (by rw [first.severity]; exact hs _ (by decide)) (first.quiet (hs _ (by decide)) ha))
  obtain ⟨regs, level, released⟩ := c.judge_collects n (o := { source := 436 })
    ((List.range 3).any fun e => decide (125000 < d.rdS .tjMc e)) (by decide) (by rw [severity]; exact hs _ (by decide))
    (by rw [severity]; exact hs _ (by decide)) quiet
  refine ⟨fun r i hr => ?_, fun hot => level ?_, fun cool => ?_⟩
  · exact (regs r i hr).trans ((third.regs r i hr).trans ((second.regs r i hr).trans (first.regs r i hr)))
  · obtain ⟨j, hj, hot⟩ := hot
    exact List.any_eq_true.2 ⟨j, List.mem_range.2 hj, decide_eq_true hot⟩
  · refine Dev.released_of_asserts (first.others 436 (by decide)) (Dev.released_of_asserts (second.others 436 (by decide))
      (Dev.released_of_asserts (third.others 436 (by decide)) (released ?_)))
    rw [List.any_eq_false]
    intro j hj
    simpa using cool j (List.mem_range.1 hj)

end Sys2Proof.Machine
end

section
/-!
PROOFS. Occurrences as their engines report them (R282, R285, R288, R291), and cell addresses and descriptor numbers that fail
their check (R187, R188).
-/
namespace Sys2Proof.Machine
open Sys2Proof

variable (d : Dev)

/-- Whatever reaches no collector reaches the pins alone. -/
theorem Dev.collect_idle_chip (n : Nat) (h : d.faults.arriving = []) : ∃ x, d.collect n = { d with chip := x } := by
  rw [d.collect_idle n h]
  exact d.judgePins_chip

/-! ### Occurrences (R285, R288, R291) -/

section
variable {d} {n : Nat} {o : Occurrence}

/-- An occurrence of a disabled source is not caught (R291). -/
theorem Dev.faultReport_disabled (h : o.source ∉ [289, 297]) (ha : d.faults.arriving = []) (hd : d.disabled o.source = true) :
    ((d.faultReport n o).collect n).regs = d.regs ∧
    ∀ k, (((d.faultReport n o).collect n).source k).sticky = (d.source k).sticky := by
  have level : ∀ k, ((d.modSource o.source fun x => { x with level := true }).source k).sticky =
      (d.source k).sticky := fun k => by
    rw [Dev.source_modSource]
    split
    · next hk => rw [hk]
    · rfl
  have reported : d.faultReport n o = d ∨ d.faultReport n o = d.modSource o.source fun x => { x with level := true } := by
    rw [d.faultReport_plain n h]
    split
    · unfold Dev.raiseLevel
      split
      · exact .inl rfl
      · exact .inr (Dev.raise_disabled (d := d.modSource o.source fun x => { x with level := true }) hd)
    · exact .inl (Dev.raise_disabled hd)
  obtain same | same := reported
  · rw [same]
    obtain ⟨x, hx⟩ := d.collect_idle_chip n ha
    rw [hx]
    exact ⟨rfl, fun _ => rfl⟩
  · rw [same]
    obtain ⟨x, hx⟩ := (d.modSource o.source fun x => { x with level := true }).collect_idle_chip n ha
    rw [hx]
    exact ⟨rfl, level⟩

/-- What an occurrence brings that finds its source armed and the first-fault record empty. -/
structure Dev.Reported (d e : Dev) (n : Nat) (o : Occurrence) : Prop where
  sticks : e.Sticks o.source (d.severity o.source)
  first : ∃ f, e.faults.first = some f ∧ f.capture.source = o.source ∧ f.capture.tick = n ∧ f.capture.index = o.index ∧
    f.severity = d.severity o.source ∧ f.refilled = false
  shuts : d.severity o.source = 2 → o.source < 256 → o.source / 8 ∈ e.faults.shut
  counts : d.severity o.source ≤ 1 → e.rd .occurrences o.source = (d.rd .occurrences o.source + 1) % 2 ^ 64 ∧
    d.regsKept e [(.occurrences, o.source)]

theorem Dev.faultReport_reported (h : o.source ∉ [289, 297]) (ha : d.faults.arriving = []) (hd : d.disabled o.source = false)
    (hu : d.unevaluated o.source = false) (hf : d.faults.first = none) (hc : (d.source o.source).capture = none) :
    d.Reported ((d.faultReport n o).collect n) n o := by
  rw [d.faultReport_evaluated n h hu]
  obtain ⟨t, same⟩ := d.asserted_keeps o
  obtain ⟨l, armed⟩ := d.asserted_source o o.source
  rw [same] at armed ⊢
  replace armed := (congrArg Source.capture armed).trans hc
  exact ⟨Dev.raise_sticks (d := { d with faults := { d.faults with sources := t } }) ha hd hu,
    Dev.raise_recorded (d := { d with faults := { d.faults with sources := t } }) ha hf hd hu armed,
    Dev.raise_shuts (d := { d with faults := { d.faults with sources := t } }) ha hf hd hu,
    Dev.raise_counts (d := { d with faults := { d.faults with sources := t } }) ha hf hd hu⟩

/-- A CRC error of a bridge counts, and is collected as an event (R13). -/
theorem Dev.faultReport_bridge {b : Nat} (hb : b < 2) (ho : o.source = 289 + 8 * b) (ha : d.faults.arriving = [])
    (hd : d.disabled o.source = false) (hs : d.severity o.source ≤ 1) (hf : d.faults.first = none) :
    ((d.faultReport n o).collect n).rd .bridgeCrc b = (d.rd .bridgeCrc b + 1) % 2 ^ 64 ∧
    (((d.faultReport n o).collect n).source o.source).sticky = true ∧
    d.regsKept ((d.faultReport n o).collect n) [(.bridgeCrc, b), (.occurrences, o.source)] := by
  have event : isLevel o.source = false := by
    rw [ho]
    obtain rfl | rfl : b = 0 ∨ b = 1 := by omega
    all_goals decide
  have reported : d.faultReport n o = (d.bump .bridgeCrc b).raise n o := by
    unfold Dev.faultReport
    rw [event, ho]
    obtain rfl | rfl : b = 0 ∨ b = 1 := by omega
    all_goals rfl
  have hu : (d.bump .bridgeCrc b).unevaluated o.source = false := Dev.unevaluated_of_le _ (by omega)
  obtain ⟨-, kept⟩ := Dev.raise_counts (d := d.bump .bridgeCrc b) (n := n) ha hf hd hu hs
  obtain ⟨sticky, -⟩ := Dev.raise_sticks (d := d.bump .bridgeCrc b) (n := n) ha hd hu
  rw [reported]
  refine ⟨?_, sticky, fun r i hr => ?_⟩
  · rw [kept _ _ (by simp), Dev.rd_bump_counter _ b Reg.modulus_bridgeCrc]
  · obtain ⟨other, counted⟩ : (r, i) ≠ (.bridgeCrc, b) ∧ (r, i) ∉ [(Reg.occurrences, o.source)] := by simpa using hr
    rw [kept r i counted, Dev.rd_bump, if_neg fun h => other (by rw [h.1, h.2])]

/-! ### Cell addresses and descriptor numbers (R187, R188) -/

/-- A frame that is given up leaves as a frame does; of the faults it brings the hub's own alone are caught. -/
theorem Dev.orphanFrame_leaves (n k : Nat) : d.rdKept (d.orphanFrame n k) freeRegs ∧ d.Catches (d.orphanFrame n k) := by
  unfold Dev.orphanFrame
  split
  · exact ⟨fun _ _ _ => rfl, .of_faults rfl⟩
  · split
    · exact ⟨fun _ _ _ => rfl, .of_faults rfl⟩
    · next x _ _ _ =>
      dsimp only
      have dropped : ∀ e e' : Dev, e.Drops freeRegs e' → e.regs = d.regs → e.faults = d.faults →
          d.rdKept e' freeRegs ∧ d.Catches e' := fun e e' h hr hf =>
        ⟨fun r i hi => (h.regs r i hi).trans (congrArg (fun x => Tab.get (r.dflt i) x (regKey r i)) hr),
          (Dev.Catches.of_faults hf).trans h.catches⟩
      split
      · exact dropped _ _ (Dev.Frees.dropDesc _ n k 7).toDrops rfl rfl
      · exact dropped _ _ ((Dev.Drops.setQueue _ x.queueNo _).trans (Dev.Frees.dropDesc _ n k 7).toDrops) rfl rfl

/-- A frame that no port sends is gone. -/
theorem Dev.orphanFrame_gone {n k : Nat} (h : ∀ p ∈ d.ports, ∀ y ∈ p.2.sending, y.desc ≠ k) :
    (d.orphanFrame n k).desc k = none := by
  have idle : d.ports.find? (fun p => p.2.sending.any fun s => s.desc == k) = none := by
    rw [List.find?_eq_none]
    intro p hp sends
    obtain ⟨y, hy, same⟩ := Option.any_eq_true .. |>.1 sends
    exact h p hp y hy (beq_iff_eq.1 same)
  unfold Dev.orphanFrame
  split
  · assumption
  · rw [idle]
    exact Dev.dropDesc_gone _ n k 7

/-- An address or number that fails its check, counted and raised. -/
def Dev.countBad (d : Dev) (n : Nat) (stage : PtrStage) (v : Nat) : Dev :=
  (d.bump .ptrBad 0).raise n { source := 417, index := v, aux := ptrStageNo stage }

theorem Dev.countBad_counts (n : Nat) (stage : PtrStage) (v : Nat) :
    (d.countBad n stage v).rd .ptrBad 0 = (d.rd .ptrBad 0 + 1) % 2 ^ 64 :=
  (Dev.raise_rd _ n _ 0 (by decide)).trans (d.rd_bump_counter 0 Reg.modulus_ptrBad)

theorem Dev.countBad_alone {n : Nat} {stage : PtrStage} {v : Nat} (ha : d.faults.arriving = []) (hd : d.disabled 417 = false) :
    ∃ o : Occurrence, o.source = 417 ∧ (d.countBad n stage v).faults.arriving = [(n, d.severity 417, o)] :=
  ⟨{ source := 417, index := v, aux := ptrStageNo stage }, rfl,
    (d.bump .ptrBad 0).raise_alone ha hd (Dev.unevaluated_of_le _ (by decide : 256 ≤ 417))⟩

theorem Dev.badPointer_frame {n v k : Nat} {stage : PtrStage} (bad : pointerGood stage v = false)
    (h : stage = .descriptor ∨ stage = .link) : d.badPointer n stage v k = (d.countBad n stage v).orphanFrame n k := by
  unfold Dev.badPointer
  rw [bad, if_neg Bool.false_ne_true]
  rcases h with rfl | rfl <;> rfl

/-- The frame of a bad address is given up, and the address is counted and recorded. -/
theorem Dev.orphaned_collects {n k v : Nat} {stage : PtrStage} (ha : d.faults.arriving = []) (hd : d.disabled 417 = false) :
    let e := ((d.countBad n stage v).orphanFrame n k).collect n
    e.rd .ptrBad 0 = (d.rd .ptrBad 0 + 1) % 2 ^ 64 ∧ (e.source 417).sticky = true ∧
    ((∀ p ∈ d.ports, ∀ y ∈ p.2.sending, y.desc ≠ k) → e.desc k = none) := by
  obtain ⟨o, source, alone⟩ := d.countBad_alone (n := n) (stage := stage) (v := v) ha hd
  have count := d.countBad_counts n stage v
  have ports : (d.countBad n stage v).ports = d.ports := (congrArg Dev.ports (Dev.raise_butFaults (d.bump .ptrBad 0) n _) :)
  generalize d.countBad n stage v = c at *
  obtain ⟨kept, catches⟩ := Dev.orphanFrame_leaves (d := c) n k
  obtain ⟨new, arriving, hub⟩ := catches.arriving
  rw [alone] at arriving
  have lowers := Dev.Lowers.collect (d := c.orphanFrame n k) n fun x hx => by
    rw [arriving] at hx
    rcases List.mem_append.1 hx with hx | hx
    · rw [List.mem_singleton.1 hx, source]
      decide
    · exact hub x hx
  have sticks := (c.orphanFrame n k).collect_sticks n (x := (n, d.severity 417, o))
    (by rw [arriving]; exact List.mem_append_left _ (List.mem_singleton_self _))
  rw [source] at sticks
  exact ⟨(lowers.regs _ _ (by decide)).trans ((kept _ _ (by decide)).trans count), sticks.1,
    fun idle => lowers.descs k (Dev.orphanFrame_gone (ports ▸ idle))⟩

/-- The next write meets a bad address or number. -/
def Dev.spoilStore (d : Dev) : Dev := { d with buf := { d.buf with badReads := d.buf.badReads + 1 } }

theorem Dev.badPointer_store {n v k : Nat} {stage : PtrStage} (bad : pointerGood stage v = false)
    (h : stage = .ring ∨ stage = .descriptorStore) : d.badPointer n stage v k = (d.countBad n stage v).spoilStore := by
  unfold Dev.badPointer
  rw [bad, if_neg Bool.false_ne_true]
  rcases h with rfl | rfl <;> rfl

/-- A bad address or number of a free store is counted and recorded, and the next frame that is written meets it. -/
theorem Dev.spoiled_collects {n v : Nat} {stage : PtrStage} (ha : d.faults.arriving = []) (hd : d.disabled 417 = false)
    (hs : d.severity 417 ≤ 1) (hf : d.faults.first = none) :
    let e := (d.countBad n stage v).spoilStore.collect n
    e.rd .ptrBad 0 = (d.rd .ptrBad 0 + 1) % 2 ^ 64 ∧ (e.source 417).sticky = true ∧ e.buf.badReads = d.buf.badReads + 1 := by
  obtain ⟨o, source, alone⟩ := d.countBad_alone (n := n) (stage := stage) (v := v) ha hd
  have count := d.countBad_counts n stage v
  have buf : (d.countBad n stage v).buf = d.buf := (congrArg Dev.buf (Dev.raise_butFaults (d.bump .ptrBad 0) n _) :)
  have first : (d.countBad n stage v).faults.first = none := Dev.raise_first.trans hf
  generalize d.countBad n stage v = c at *
  have waits : (n, d.severity 417, o) ∈ c.spoilStore.faults.arriving := by
    change _ ∈ c.faults.arriving
    rw [alone]
    exact List.mem_singleton_self _
  have sticks := c.spoilStore.collect_sticks n waits
  rw [source] at sticks
  obtain ⟨f, x, quiet⟩ := Dev.collect_single_quiet (d := c.spoilStore) n alone first hs
  refine ⟨?_, sticks.1, ?_⟩
  · rw [quiet]
    exact count
  · rw [quiet]
    exact congrArg (·.badReads + 1) buf

end

end Sys2Proof.Machine
end

section
/-!
PROOFS. The buffer's memory (R188), sensors and PLLs (R282, R329, R334), broken wires (R286) and the Counter Reader (R292, R293,
R295).
-/
namespace Sys2Proof.Machine
open Sys2Proof

variable (d : Dev)

/-! ### The buffer's memory (R188) and permit sets (R212) -/

section
variable {d} {n : Nat}

theorem Dev.eccCorrected_collects (b : Nat) (ha : d.faults.arriving = []) :
    let e := ((d.bump .bufEccCorr 0).bump .bankEccCorr b).collect n
    e.rd .bufEccCorr 0 = (d.rd .bufEccCorr 0 + 1) % 2 ^ 64 ∧ e.rd .bankEccCorr b = (d.rd .bankEccCorr b + 1) % 2 ^ 64 ∧
    d.regsKept e [(.bufEccCorr, 0), (.bankEccCorr, b)] := by
  obtain ⟨x, hx⟩ := ((d.bump .bufEccCorr 0).bump .bankEccCorr b).collect_idle_chip n ha
  have reads : ∀ r i, (((d.bump .bufEccCorr 0).bump .bankEccCorr b).collect n).rd r i =
      ((d.bump .bufEccCorr 0).bump .bankEccCorr b).rd r i := fun r i => by
    rw [hx]
    rfl
  refine ⟨?_, ?_, fun r i hr => ?_⟩
  · rw [reads, Dev.bump_rd_other _ _ _ (by decide), Dev.rd_bump_counter _ 0 Reg.modulus_bufEccCorr]
  · rw [reads, Dev.rd_bump_counter _ b Reg.modulus_bankEccCorr, Dev.bump_rd_other _ _ _ (by decide)]
  · simp only [List.mem_cons, Prod.mk.injEq, List.not_mem_nil, or_false, not_or] at hr
    obtain ⟨buffer, bank⟩ := hr
    rw [reads, Dev.rd_bump, if_neg bank, Dev.rd_bump, if_neg buffer]

theorem Dev.eccHost_collects (ha : d.faults.arriving = []) (hd : d.disabled 418 = false) (hs : d.severity 418 ≤ 1)
    (hf : d.faults.first = none) :
    let e := (d.badData n .host).collect n
    e.rd .bufEccUncorr 0 = (d.rd .bufEccUncorr 0 + 1) % 2 ^ 64 ∧ (e.source 418).sticky = true ∧
    e.wire = d.wire ++ [.inverted .host] ∧ d.regsKept e [(.bufEccUncorr, 0), (.occurrences, 418)] := by
  have hu : (d.bump .bufEccUncorr 0).unevaluated 418 = false := Dev.unevaluated_of_le _ (by decide)
  have alone := (d.bump .bufEccUncorr 0).raise_alone (n := n) (o := { source := 418 }) ha hd hu
  have first : ((d.bump .bufEccUncorr 0).raise n { source := 418 }).faults.first = none := Dev.raise_first.trans hf
  have wire : ((d.bump .bufEccUncorr 0).raise n { source := 418 }).wire = d.wire :=
    (congrArg Dev.wire (Dev.raise_butFaults (d.bump .bufEccUncorr 0) n _) :)
  have reads : ∀ r i, ((d.bump .bufEccUncorr 0).raise n { source := 418 }).rd r i =
      ((d.bump .bufEccUncorr 0).bump .occurrences 418).rd r i := Dev.raise_rd_enabled hd hu
  have same : d.badData n .host = ((d.bump .bufEccUncorr 0).raise n { source := 418 }).emit (.inverted .host) := rfl
  intro e
  unfold e
  rw [same]
  generalize (d.bump .bufEccUncorr 0).raise n { source := 418 } = c at *
  have sticks := (c.emit (.inverted .host)).collect_sticks n (x := (n, d.severity 418, { source := 418 }))
    (by change _ ∈ c.faults.arriving; rw [alone]; exact List.mem_singleton_self _)
  obtain ⟨f, x, quiet⟩ := Dev.collect_single_quiet (d := c.emit (.inverted .host)) n alone first hs
  have kept : ∀ r i, ((c.emit (.inverted .host)).collect n).rd r i =
      ((d.bump .bufEccUncorr 0).bump .occurrences 418).rd r i := fun r i => by
    rw [quiet]
    exact reads r i
  refine ⟨?_, sticks.1, ?_, fun r i hr => ?_⟩
  · rw [kept, Dev.bump_rd_other _ _ _ (by decide), Dev.rd_bump_counter _ 0 Reg.modulus_bufEccUncorr]
  · rw [quiet]
    exact congrArg (· ++ [Emission.inverted .host]) wire
  · simp only [List.mem_cons, Prod.mk.injEq, List.not_mem_nil, or_false, not_or] at hr
    obtain ⟨count, occurrence⟩ := hr
    rw [kept, Dev.rd_bump, if_neg occurrence, Dev.rd_bump, if_neg count]

theorem Dev.permitWord_collects (q : Nat) (ha : d.faults.arriving = []) :
    let e := (d.hwReport n (.permitWord q)).collect n
    q ∈ e.sched.permitBad ∧ e.regs = d.regs := by
  obtain ⟨x, hx⟩ := (d.hwReport n (.permitWord q)).collect_idle_chip n ha
  intro e
  unfold e
  rw [hx]
  exact ⟨List.mem_append_right _ (List.mem_singleton_self q), rfl⟩

/-! ### Conditions that end (R286), addresses that are good (R187) -/

theorem Dev.ends_collects (k : Nat) (ha : d.faults.arriving = []) :
    let e := (d.dropLevel k).collect n
    d.released e k ∧ e.regs = d.regs := by
  have idle : (d.dropLevel k).faults.arriving = [] ∧ (d.dropLevel k).regs = d.regs := by
    unfold Dev.dropLevel
    split <;> exact ⟨ha, rfl⟩
  obtain ⟨x, hx⟩ := (d.dropLevel k).collect_idle_chip n idle.1
  intro e
  unfold e
  rw [hx]
  exact ⟨d.dropLevel_released k, idle.2⟩

theorem Dev.goodPointer_collects {stage : PtrStage} {v k : Nat} (good : pointerGood stage v = true)
    (ha : d.faults.arriving = []) :
    let e := (d.badPointer n stage v k).collect n
    e.regs = d.regs ∧ e.buf = d.buf := by
  have same : d.badPointer n stage v k = d := if_pos good
  obtain ⟨x, hx⟩ := d.collect_idle_chip n ha
  intro e
  unfold e
  rw [same, hx]
  exact ⟨rfl, rfl⟩

/-! ### Sensors (R282, R334) -/

theorem Dev.quiet_of_none (h : d.faults.arriving = []) : d.Quiet := by
  unfold Dev.Quiet
  rw [h]
  exact nofun

theorem Dev.readJunction_collects {k : Nat} {mC : Int} (hk : k < 3) (h : -2147483648 ≤ mC) (h' : mC < 2147483648)
    (ha : d.faults.arriving = []) (hs : ∀ s ∈ [295, 303, 435, 436, 443], d.severity s ≤ 1) :
    let e := (d.readJunction n k mC).collect n
    e.rdS .tjMc k = mC ∧ (125000 < mC → (e.source 436).level = true) ∧
    ((∀ j < 3, j ≠ k → d.rdS .tjMc j ≤ 125000) → mC ≤ 125000 → d.released e 436) := by
  have read : d.readJunction n k mC = (d.junctionRead k mC).judgeJunctions n := rfl
  have reads := d.junctionRead_reads k h h'
  obtain ⟨x, hx⟩ := d.junctionRead_regs k mC
  intro e
  unfold e
  rw [read]
  rw [hx] at reads ⊢
  obtain ⟨regs, hot, cool⟩ := Dev.judgeJunctions_collects { d with regs := x } n (Dev.quiet_of_none ha) hs
  have temperature := (reads k).trans (if_pos rfl)
  refine ⟨(congrArg (toSigned 32) (regs .tjMc k (by decide))).trans temperature, fun high => hot ⟨k, hk, ?_⟩,
    fun others low => cool fun j hj => ?_⟩
  · rwa [temperature]
  · rw [reads]
    split
    · exact low
    · next other => exact others j hj other

theorem Dev.readRail_collects (r mV : Nat) (ha : d.faults.arriving = []) (hs : d.severity 437 ≤ 1) (h443 : d.severity 443 ≤ 1) :
    let e := (d.readRail n r mV).collect n
    e.rd .railMv r = mV % Reg.railMv.modulus ∧
    (mV < Reg.railMv.modulus → mV < d.rd .railLowMv r ∨ d.rd .railHighMv r < mV → (e.source 437).level = true) := by
  intro e
  let c : Dev := { d.wr .railMv r mV with chip := { d.chip with railsRead := r :: d.chip.railsRead.filter (· != r) } }
  let off : Nat → Bool := fun r => decide (c.rd .railMv r < c.rd .railLowMv r) || decide (c.rd .railHighMv r < c.rd .railMv r)
  have judged : d.readRail n r mV = c.judge n { source := 437 } (c.chip.railsRead.any off) := rfl
  have quiet : c.Quiet := Dev.quiet_of_none ha
  obtain ⟨regs, level, -⟩ := c.judge_collects n (o := { source := 437 }) (c.chip.railsRead.any off) (by decide) hs h443 quiet
  have volts : c.rd .railMv r = mV % Reg.railMv.modulus := d.rd_wr_same .railMv r mV
  have low : c.rd .railLowMv r = d.rd .railLowMv r := d.rd_wr_other _ _ _ (by decide)
  have high : c.rd .railHighMv r = d.rd .railHighMv r := d.rd_wr_other _ _ _ (by decide)
  unfold e
  rw [judged]
  refine ⟨(regs .railMv r (by decide)).trans volts, fun fits out => level (List.any_eq_true.2 ⟨r, List.mem_cons_self, ?_⟩)⟩
  unfold off
  rw [volts, low, high, Nat.mod_eq_of_lt fits, Bool.or_eq_true, decide_eq_true_eq, decide_eq_true_eq]
  exact out

end

/-! ### PLLs (R282, R329) -/

/-- Whether a PLL is locked is a matter of registers. -/
theorem Dev.setPll_regs (k v : Nat) : ∃ x, d.setPll k v = { d with regs := x } :=
  Dev.each_holds (I := fun e => ∃ x, e = { d with regs := x }) ⟨_, rfl⟩ fun _ he _ _ => by
    obtain ⟨x, rfl⟩ := he
    exact ⟨_, rfl⟩

theorem Dev.setPll_rd (k v : Nat) {r : Reg} (i : Nat) (h : r ≠ .domainLocked) :
    (d.setPll k v).rd r i = (d.wr .pllLocked k v).rd r i :=
  Dev.each_keeps _ (fun e : Dev => e.rd r i) fun e _ _ => e.rd_wr_other _ _ _ h

/-- A PLL as it is reported, a loss of lock counted. -/
def Dev.pllSet (d : Dev) (k : Nat) (locked : Bool) : Dev :=
  (d.setPll k (ofBool locked)).when (!locked) fun d => d.bump .pllUnlocks k

theorem Dev.pllSet_regs (k : Nat) (locked : Bool) : ∃ x, d.pllSet k locked = { d with regs := x } := by
  obtain ⟨x, hx⟩ := d.setPll_regs k (ofBool locked)
  unfold Dev.pllSet
  rw [hx]
  cases locked <;> exact ⟨_, rfl⟩

theorem Dev.pllSet_on (k : Nat) (locked : Bool) : (d.pllSet k locked).on .pllLocked k = locked := by
  have kept : (d.pllSet k locked).rd .pllLocked k = (d.setPll k (ofBool locked)).rd .pllLocked k := by
    cases locked
    · exact Dev.bump_rd_other _ _ _ (by decide)
    · rfl
  rw [Dev.on_of_rd (kept.trans (d.setPll_rd k _ k (by decide))), Dev.on, Dev.rd_wr_same]
  cases locked <;> decide +kernel

theorem Dev.pllSet_unlocks (k : Nat) : (d.pllSet k false).rd .pllUnlocks k = (d.rd .pllUnlocks k + 1) % 2 ^ 64 := by
  have kept : (d.setPll k (ofBool false)).rd .pllUnlocks k = d.rd .pllUnlocks k :=
    (d.setPll_rd k _ k (by decide)).trans (d.rd_wr_other _ _ _ (by decide))
  exact (Dev.rd_bump_counter _ k Reg.modulus_pllUnlocks).trans (by rw [kept])

section
variable {d} {n : Nat}

theorem Dev.pllReport_collects {k : Nat} (hk : k < 8) (locked : Bool) (ha : d.faults.arriving = [])
    (hs : d.severity (256 + 4 * k + 2) ≤ 1) (h443 : d.severity 443 ≤ 1) :
    let e := (d.pllReport n k locked).collect n
    e.on .pllLocked k = locked ∧
    (d.on .pllLocked k = true → locked = false → (e.source (256 + 4 * k + 2)).level = true ∧
      e.rd .pllUnlocks k = (d.rd .pllUnlocks k + 1) % 2 ^ 64) ∧
    (d.on .pllLocked k = false → locked = true → d.released e (256 + 4 * k + 2)) := by
  intro e
  by_cases same : d.on .pllLocked k = locked
  · have idle : d.pllReport n k locked = d := if_pos same
    obtain ⟨x, hx⟩ := d.collect_idle_chip n ha
    unfold e
    rw [idle, hx]
    refine ⟨same, fun on off => ?_, fun off on => ?_⟩
    · rw [same, off] at on
      cases on
    · rw [same, on] at off
      cases off
  · have judged : d.pllReport n k locked =
        (d.pllSet k locked).judge n { source := 256 + 4 * k + 2, index := k } (!locked) := by
      unfold Dev.pllReport
      rw [if_neg same]
      dsimp only
      rw [if_pos hk]
      cases locked <;> rfl
    have set := d.pllSet_on k locked
    have unlocks : locked = false → (d.pllSet k locked).rd .pllUnlocks k = (d.rd .pllUnlocks k + 1) % 2 ^ 64 := by
      rintro rfl
      exact d.pllSet_unlocks k
    obtain ⟨x, hx⟩ := d.pllSet_regs k locked
    have quiet : ({ d with regs := x } : Dev).Quiet := Dev.quiet_of_none ha
    unfold e
    rw [judged]
    rw [hx] at set unlocks ⊢
    obtain ⟨regs, level, released⟩ := Dev.judge_collects { d with regs := x } n
      (o := { source := 256 + 4 * k + 2, index := k }) (!locked) (show 256 ≤ 256 + 4 * k + 2 by omega) hs h443 quiet
    exact ⟨(Dev.on_of_rd (regs .pllLocked k (by decide))).trans set,
      fun _ off => ⟨level (by rw [off]; rfl), (regs .pllUnlocks k (by decide)).trans (unlocks off)⟩,
      fun _ on => released (by rw [on]; rfl)⟩

end

/-! ### Broken wires (R286) -/

/-- A source that its own wire asserts, or its die's. -/
def Source.Stuck (x : Source) (own : Bool) : Prop := (if own then x.broken else x.cutOff) = true ∧ x.level = true

theorem Source.Recorded.stuck {x y : Source} {own : Bool} (h : x.Recorded y) (k : x.Stuck own) : y.Stuck own := by
  obtain ⟨wire, level⟩ := k
  cases own with
  | true => exact ⟨h.broken wire, h.held level (.inl wire)⟩
  | false => exact ⟨h.cutOff wire, h.held level (.inr wire)⟩

theorem Dev.assertBroken_stuck (n k : Nat) : ((d.assertBroken n k).source k).Stuck true := by
  unfold Dev.assertBroken
  obtain ⟨c, hc⟩ := Dev.raiseAt_source (d.modSource k fun x => { x with broken := true, level := true }) n _
    { source := k, detail := 0xFF, index := k } k
  rw [Dev.raise, hc, Dev.source_modSource, if_pos rfl]
  exact ⟨rfl, rfl⟩

theorem Dev.assertCutOff_stuck (n k : Nat) : ((d.assertCutOff n k).source k).Stuck false := by
  unfold Dev.assertCutOff
  dsimp only
  split
  · rw [Dev.source_modSource, if_pos rfl]
    exact ⟨rfl, rfl⟩
  · obtain ⟨c, hc⟩ := Dev.raiseAt_source (d.modSource k fun x => { x with cutOff := true, level := true }) n 2
      { source := k, detail := 0xFF, index := k } k
    rw [hc, Dev.source_modSource, if_pos rfl]
    exact ⟨rfl, rfl⟩

theorem Dev.Recorded.assertCutOff (n k : Nat) : d.Recorded (d.assertCutOff n k) := by
  have cut : d.Recorded (d.modSource k fun x => { x with cutOff := true, level := true }) :=
    .modSource d k ⟨fun h => ⟨h, le_rfl⟩, id, fun _ => rfl, fun _ _ => rfl⟩
  unfold Dev.assertCutOff
  dsimp only
  split
  · exact cut
  · exact cut.trans (.raiseAt _ n 2 _)

section
variable {s : State} {n : Nat}

theorem brokenWire_breaks {collector source : Nat} (hc : collector ∈ [290, 298, 428]) (hs : source < 448) :
    Completes (.brokenWire n collector source) s n fun e => (e.source source).broken = true ∧ (e.source source).level = true := by
  have known : [290, 298, 428, 444, 445].contains collector = true := by
    simp only [List.mem_cons, List.not_mem_nil, or_false] at hc
    rcases hc with rfl | rfl | rfl <;> rfl
  have own : ¬(collector = 444 ∨ collector = 445) := by
    simp only [List.mem_cons, List.not_mem_nil, or_false] at hc
    omega
  refine completes_at (if_pos ⟨hs, known⟩) ?_
  dsimp only
  rw [if_neg own]
  generalize s.dev.raiseLevel (max s.now n) { source := collector, index := source, detail := 0xFF } = a
  have still : (((a.assertBroken (max s.now n) source).collect (max s.now n)).source source).Stuck true :=
    ((Dev.Recorded.collect (a.assertBroken (max s.now n) source) (max s.now n)).source source).stuck
      (a.assertBroken_stuck (max s.now n) source)
  exact still

theorem brokenWire_cutsOff {k source : Nat} (hk : k < 2) (hs : source < 448) :
    Completes (.brokenWire n (444 + k) source) s n fun e =>
      ∀ x ∈ dieSources k, (e.source x).cutOff = true ∧ (e.source x).level = true := by
  have bridge : 444 + k = 444 ∨ 444 + k = 445 := by omega
  have known : [290, 298, 428, 444, 445].contains (444 + k) = true := by
    rcases bridge with h | h <;> rw [h] <;> rfl
  refine completes_at (if_pos ⟨hs, known⟩) ?_
  dsimp only
  rw [if_pos bridge, Nat.add_sub_cancel_left]
  generalize s.dev.raiseLevel (max s.now n) { source := 444 + k, index := source, detail := 0xFF } = a
  intro x hx
  have stuck : ((a.each (dieSources k) fun d y => d.assertCutOff (max s.now n) y).source x).Stuck false :=
    Dev.Recorded.each_reaches (P := fun e => (e.source x).Stuck false) hx (fun d y => .assertCutOff d _ y)
      (fun d => d.assertCutOff_stuck _ x) fun _ _ h k => (h.source x).stuck k
  generalize (a.each (dieSources k) fun d y => d.assertCutOff (max s.now n) y) = b at stuck ⊢
  have still : ((b.collect (max s.now n)).source x).Stuck false :=
    ((Dev.Recorded.collect b (max s.now n)).source x).stuck stuck
  exact still

/-! ### The Counter Reader (R292, R293, R295) -/

theorem Reg.modulus_counter {r : Reg} (h : r.row.flags.counter = true) : r.modulus = 2 ^ 64 := if_pos h

/-- A loss is no matter of faults or of windows. -/
theorem Dev.loseCounts_keeps (d : Dev) (index inst sub : Nat) (lost : List Nat) :
    (d.loseCounts index inst sub lost).faults = d.faults ∧ (d.loseCounts index inst sub lost).wins = d.wins := by
  unfold Dev.loseCounts
  split
  · exact ⟨rfl, rfl⟩
  · split <;> exact ⟨rfl, rfl⟩

theorem counterVisit_passes {index inst sub : Nat} {lost : List Nat} (hc : isCounter index inst sub = true)
    (h : ∀ x ∈ lost, x = 0) : Completes (.counterVisit n index inst ⟨sub, lost⟩) s n fun e => e = s.dev := by
  refine completes_at (if_pos hc) ?_
  have all : lost.all (· == 0) = true := List.all_eq_true.2 fun x hx => beq_iff_eq.2 (h x hx)
  dsimp only
  rw [if_pos all]

theorem counterVisit_loses {index inst sub : Nat} {lost : List Nat} (hc : isCounter index inst sub = true)
    (hd : s.dev.disabled 442 = false) (h : ∃ x ∈ lost, x ≠ 0) : Completes (.counterVisit n index inst ⟨sub, lost⟩) s n fun e =>
      e.faults.arriving = s.dev.faults.arriving ++
        [(max s.now n, s.dev.severity 442, { source := 442, index := index * 256 + sub, aux := inst })] ∧
      ∀ r, Reg.ofAddr index sub = some r → r ≠ .occurrences →
        e.rd r inst = (s.dev.rd r inst - lost.headD 0) % 2 ^ 64 ∧ s.dev.regsKept e [(r, inst), (.occurrences, 442)] := by
  have some : ¬lost.all (· == 0) = true := by
    obtain ⟨x, hx, nonzero⟩ := h
    exact fun all => nonzero (beq_iff_eq.1 (List.all_eq_true.1 all x hx))
  refine completes_at (if_pos hc) ?_
  dsimp only
  rw [if_neg some]
  obtain ⟨faults, wins⟩ := s.dev.loseCounts_keeps index inst sub lost
  have disabled : (s.dev.loseCounts index inst sub lost).disabled 442 = false := by
    unfold Dev.disabled Dev.win at hd ⊢
    rwa [wins]
  have severity : (s.dev.loseCounts index inst sub lost).severity 442 = s.dev.severity 442 := by
    unfold Dev.severity Dev.win
    rw [wins]
  have evaluated : (s.dev.loseCounts index inst sub lost).unevaluated 442 = false := Dev.unevaluated_of_le _ (by decide)
  have waits := Dev.raise_arriving (n := max s.now n)
    (o := { source := 442, index := index * 256 + sub, aux := inst }) disabled evaluated
  have reads := Dev.raise_rd_enabled (n := max s.now n)
    (o := { source := 442, index := index * 256 + sub, aux := inst }) disabled evaluated
  refine ⟨by rw [waits, faults, severity], fun r hr other => ?_⟩
  have counter : r.row.flags.counter = true := by
    unfold isCounter at hc
    rw [hr] at hc
    exact (Bool.and_eq_true_iff.1 hc).1
  have lose : s.dev.loseCounts index inst sub lost = s.dev.wr r inst (s.dev.rd r inst - lost.headD 0) := by
    unfold Dev.loseCounts
    rw [hr]
  refine ⟨?_, fun q i hq => ?_⟩
  · rw [reads, Dev.bump_rd_other _ _ _ other, lose, Dev.rd_wr_same, Reg.modulus_counter counter]
  · simp only [List.mem_cons, Prod.mk.injEq, List.not_mem_nil, or_false, not_or] at hq
    obtain ⟨lost, counted⟩ := hq
    rw [reads, Dev.rd_bump, if_neg counted, lose, Dev.rd_wr, if_neg lost]

theorem snapReady_readies (h : s.dev.rd .snapState 0 = 1) : Completes (.snapReady n) s n fun e =>
    e.rd .snapState 0 = 2 ∧ s.dev.onlyRegs e [(.snapState, 0)] := by
  refine completes_at rfl ?_
  rw [if_pos h]
  refine ⟨?_, s.dev.onlyRegs_wr .snapState 0 2⟩
  rw [Dev.rd_wr_same]
  decide +kernel

end

/-- Settles O59: every report is recorded by its collector, and only reactions above severity S1 reach further than what it counts
and measures. -/
theorem faultsAreCollected : Obligations.FaultsAreCollected := by
  unfold Obligations.FaultsAreCollected
  refine ⟨fun s n => ?_, fun s n => ⟨fun _ _ hc hs => brokenWire_breaks hc hs, fun _ hk _ hs => brokenWire_cutsOff hk hs,
    fun _ _ _ _ hc => ⟨counterVisit_passes hc, counterVisit_loses hc⟩, snapReady_readies⟩⟩
  intro a reports calm ha
  have collects : ∀ r (p : Dev → Prop), reportExists r = true → p ((a.hwReport (max s.now n) r).collect (max s.now n)) →
      reports r p := fun _ _ hr hp => faultOccurrence_collects hr hp
  clear_value reports a
  generalize max s.now n = k at *
  refine ⟨fun o ho hp => ⟨fun hd hu hf hc => ?_, fun hd => ?_⟩, fun b hb o ho hc hf => ?_, fun x hx => ?_,
    fun stage v j hj => ⟨fun good => ?_, fun bad hc hf => ?_⟩, fun b hb => ?_, fun hc hf => ?_, fun q hq => ?_,
    fun j hj mC h h' hc => ?_, fun r hr mV hc => ?_, fun j hj locked hc => ?_⟩
  · obtain ⟨sticks, first, shuts, counts⟩ := Dev.faultReport_reported (n := k) hp ha hd hu hf hc
    exact collects _ _ (decide_eq_true ho) ⟨sticks.1, sticks.2, first, shuts, counts⟩
  · exact collects _ _ (decide_eq_true ho) (Dev.faultReport_disabled hp ha hd)
  · exact collects _ _ (decide_eq_true (by omega)) (Dev.faultReport_bridge hb ho ha hc.1 hc.2.1 hf)
  · exact collects _ _ (decide_eq_true hx) (Dev.ends_collects x ha)
  · exact collects _ _ (decide_eq_true hj) (Dev.goodPointer_collects good ha)
  · refine collects _ _ (decide_eq_true hj) ?_
    have orphaned := Dev.orphaned_collects (n := k) (k := j) (v := v) (stage := stage) ha hc.1
    have spoiled := Dev.spoiled_collects (n := k) (v := v) (stage := stage) ha hc.1 hc.2.1 hf
    dsimp only [Dev.hwReport]
    cases stage with
    | descriptor =>
      rw [a.badPointer_frame bad (.inl rfl)]
      exact ⟨orphaned.1, orphaned.2.1, fun _ idle _ => orphaned.2.2 idle, by simp⟩
    | link =>
      rw [a.badPointer_frame bad (.inr rfl)]
      exact ⟨orphaned.1, orphaned.2.1, fun _ idle _ => orphaned.2.2 idle, by simp⟩
    | ring =>
      rw [a.badPointer_store bad (.inl rfl)]
      exact ⟨spoiled.1, spoiled.2.1, by simp, fun _ => spoiled.2.2⟩
    | descriptorStore =>
      rw [a.badPointer_store bad (.inr rfl)]
      exact ⟨spoiled.1, spoiled.2.1, by simp, fun _ => spoiled.2.2⟩
  · exact collects _ _ (decide_eq_true hb) (Dev.eccCorrected_collects b ha)
  · exact collects _ _ rfl (Dev.eccHost_collects ha hc.1 hc.2.1 hf)
  · exact collects _ _ (decide_eq_true hq) (Dev.permitWord_collects q ha)
  · have low : ∀ x ∈ [295, 303, 435, 436, 443], a.severity x ≤ 1 := fun x hx => by
      rcases List.mem_append.1 (show x ∈ [295, 303, 435, 436] ++ [443] from hx) with hx | hx
      · exact (hc x hx).2.1
      · rw [List.mem_singleton.1 hx]
        exact (hc 295 (by decide)).2.2
    have read := Dev.readJunction_collects (d := a) (n := k) hj h h' ha low
    exact collects _ _ (decide_eq_true hj) read
  · exact collects _ _ (decide_eq_true hr) (Dev.readRail_collects r mV ha hc.2.1 hc.2.2)
  · exact collects _ _ (decide_eq_true (by omega)) (Dev.pllReport_collects hj locked ha hc.2.1 hc.2.2)

end Sys2Proof.Machine
end

section
/-!
PROOFS. The Gnomon (R220-R228): times on their circle, and what a change of the clock model that is due leaves.
-/
namespace Sys2Proof.Machine
open Sys2Proof

variable (d : Dev) {s : State} {n : Nat}

theorem Reg.modulus_clockModelOffset : Reg.modulus .clockModelOffset = 2 ^ 96 := by decide +kernel
theorem Reg.modulus_baseTick : Reg.modulus .baseTick = 2 ^ 64 := by decide +kernel
theorem Reg.modulus_clkInc : Reg.modulus .clkInc = 2 ^ 64 := by decide +kernel

/-! ### Times on their circle (R221, R223) -/

/-- A time fits the 96 bits of its format. -/
theorem unitsTime_lt (u : Nat) : unitsTime u < 2 ^ 96 := by
  unfold unitsTime
  omega

/-- A time on the circle is told by its 96 bits. -/
theorem timeUnits_unitsTime {u : Nat} (h : u < timeModulus) : timeUnits (unitsTime u) = u := by
  unfold timeModulus at h
  unfold timeUnits unitsTime
  omega

theorem timeModulus_pos : 0 < timeModulus := by decide

theorem ClockModel.time_lt (m : ClockModel) (c : Nat) : m.time c < timeModulus := by
  unfold ClockModel.time timeLess
  split <;> exact Nat.mod_lt _ timeModulus_pos

/-- At its BASE_TICK a model tells its OFFSET. -/
theorem ClockModel.time_base (m : ClockModel) : m.time m.base = m.offset % timeModulus := by
  simp [ClockModel.time]

/-! ### The model that is set -/

def clockRegs : List Reg := [.clockModelOffset, .baseTick, .clkInc]
def todRegs : List Reg := [.todRef, .todGen]

theorem Dev.setClock_rd (m : ClockModel) {r : Reg} (i : Nat) (h : r ∉ clockRegs) : (d.setClock m).rd r i = d.rd r i := by
  simp only [clockRegs, List.mem_cons, List.not_mem_nil, or_false, not_or] at h
  obtain ⟨offset, base, inc⟩ := h
  rw [Dev.setClock, Dev.rd_wr_other _ _ _ _ inc, Dev.rd_wr_other _ _ _ _ base, Dev.rd_wr_other _ _ _ _ offset]

@[simp] theorem Dev.setClock_gnomon (m : ClockModel) : (d.setClock m).gnomon = d.gnomon := by
  rw [Dev.setClock, Dev.wr_gnomon, Dev.wr_gnomon, Dev.wr_gnomon]

@[simp] theorem Dev.withGnomon_rd (g : Gnomon) (r : Reg) (i : Nat) : ({ d with gnomon := g } : Dev).rd r i = d.rd r i := rfl

theorem Dev.setTod_rd (t k : Nat) {r : Reg} (i : Nat) (h : r ≠ .todRef) : (d.setTod t k).rd r i = d.rd r i := by
  rw [Dev.setTod, Dev.modTree_rd, Dev.rd_wr_other _ _ _ _ h]

theorem Dev.setTod_butTrees (t k : Nat) : (d.setTod t k).butTrees = d.butTrees := by
  rw [Dev.setTod, Dev.modTree_butTrees, Dev.wr_butTrees]

/-- Times of day recomputed for the terminals change TOD_REF and TOD_GEN alone (R236). -/
theorem Dev.retimeTod_rd (c : Nat) {r : Reg} (i : Nat) (h : r ∉ todRegs) : (d.retimeTod c).rd r i = d.rd r i := by
  simp only [todRegs, List.mem_cons, List.not_mem_nil, or_false, not_or] at h
  refine d.each_keeps (·.rd r i) fun d t _ => ?_
  split
  · split
    · rw [Dev.bump_rd_other _ _ _ h.2, Dev.setTod_rd _ _ _ _ h.1]
    · rfl
  · rfl

theorem Dev.retimeTod_butTrees (c : Nat) : (d.retimeTod c).butTrees = d.butTrees := by
  refine d.each_keeps Dev.butTrees fun d t _ => ?_
  split
  · split
    · rw [Dev.bump_butTrees, Dev.setTod_butTrees]
    · rfl
  · rfl

section
variable {d} {e : Dev} (h : e.butTrees = d.butTrees)
include h

theorem Dev.gnomon_of_butTrees : e.gnomon = d.gnomon := (congrArg Dev.gnomon h :)
theorem Dev.chip_of_butTrees : e.chip = d.chip := (congrArg Dev.chip h :)

end

/-- The clock model is `x`, the Gnomon's state `g`, and of the registers those of the model and the times of day alone changed. -/
structure Dev.Clocked (d e : Dev) (x : ClockModel) (g : Gnomon) : Prop where
  offset : e.rd .clockModelOffset 0 = unitsTime x.offset
  base : e.rd .baseTick 0 = x.base % 2 ^ 64
  inc : e.rd .clkInc 0 = x.inc % 2 ^ 64
  gnomon : e.gnomon = g
  kept : ∀ r i, r ∉ clockRegs ++ todRegs → e.rd r i = d.rd r i

/-- A change made at tick `c`. -/
def Dev.changeClock (d : Dev) (x : ClockModel) (g : Gnomon) (c : Nat) : Dev :=
  ({ d.setClock x with gnomon := g } : Dev).retimeTod c

theorem Dev.changeClock_rd (x : ClockModel) (g : Gnomon) (c : Nat) {r : Reg} (i : Nat) (h : r ∉ todRegs) :
    (d.changeClock x g c).rd r i = (d.setClock x).rd r i := by
  rw [Dev.changeClock, Dev.retimeTod_rd _ _ _ h, Dev.withGnomon_rd]

theorem Dev.changeClock_clocked (x : ClockModel) (g : Gnomon) (c : Nat) : d.Clocked (d.changeClock x g c) x g where
  offset := by
    rw [Dev.changeClock_rd _ _ _ _ _ (by decide), Dev.setClock, Dev.rd_wr_other _ _ _ _ (by decide),
      Dev.rd_wr_other _ _ _ _ (by decide), Dev.rd_wr_same, Reg.modulus_clockModelOffset, Nat.mod_eq_of_lt (unitsTime_lt _)]
  base := by
    rw [Dev.changeClock_rd _ _ _ _ _ (by decide), Dev.setClock, Dev.rd_wr_other _ _ _ _ (by decide), Dev.rd_wr_same,
      Reg.modulus_baseTick]
  inc := by rw [Dev.changeClock_rd _ _ _ _ _ (by decide), Dev.setClock, Dev.rd_wr_same, Reg.modulus_clkInc]
  gnomon := by rw [Dev.changeClock, Dev.gnomon_of_butTrees (Dev.retimeTod_butTrees _ c)]
  kept r i h := by
    obtain ⟨hc, ht⟩ := not_or.1 (mt List.mem_append.2 h)
    rw [Dev.changeClock_rd _ _ _ _ _ ht, Dev.setClock_rd _ _ _ hc]

/-! ### Changes that are due (R224, R225, R227) -/

section
variable {d} {inc mode v c : Nat}

/-- A rate change that is due, no step due with it. -/
theorem Dev.advanceClock_rate (hr : d.gnomon.rate = some (inc, c)) (hc : c ≤ n) (hs : ∀ x ∈ d.gnomon.step, n < x.2.2) :
    d.advanceClock n = d.changeClock ⟨d.clock.time c, c, inc⟩ { d.gnomon with rate := none } c := by
  have ahead : d.clockAhead n = ⟨d.clock.time c, c, inc⟩ := by
    cases h : d.gnomon.step with
    | none => simp [Dev.clockAhead, hr, h, hc, ClockModel.rebase]
    | some x =>
      have late : ¬x.2.2 ≤ n := Nat.not_le.2 (hs x h)
      simp [Dev.clockAhead, hr, h, hc, late, ClockModel.rebase]
  have undue : changeDue n (d.gnomon.step.map fun x => x.2.2) = false := by
    cases h : d.gnomon.step with
    | none => rfl
    | some x => exact decide_eq_false (Nat.not_le.2 (hs x h))
  have due : changeDue n (some c) = true := decide_eq_true hc
  simp only [Dev.advanceClock, ahead, undue, hr, due, Option.map_some, Option.getD_some, true_or, if_true, Bool.false_eq_true,
    if_false, Nat.max_zero, Dev.setClock_gnomon, Dev.changeClock]

/-- A step that is due, no rate change due with it. -/
theorem Dev.advanceClock_step (hs : d.gnomon.step = some (mode, v, c)) (hc : c ≤ n) (hr : ∀ x ∈ d.gnomon.rate, n < x.2) :
    d.advanceClock n = d.changeClock (d.clock.step mode (timeUnits v) c) { d.gnomon with step := none } c := by
  have ahead : d.clockAhead n = d.clock.step mode (timeUnits v) c := by
    cases h : d.gnomon.rate with
    | none => simp [Dev.clockAhead, hs, h, hc]
    | some x =>
      have late : ¬x.2 ≤ n := Nat.not_le.2 (hr x h)
      simp [Dev.clockAhead, hs, h, hc, late]
  have undue : changeDue n (d.gnomon.rate.map fun x => x.2) = false := by
    cases h : d.gnomon.rate with
    | none => rfl
    | some x => exact decide_eq_false (Nat.not_le.2 (hr x h))
  have due : changeDue n (some c) = true := decide_eq_true hc
  simp only [Dev.advanceClock, ahead, undue, hs, due, Option.map_some, Option.getD_some, or_true, if_true, Bool.false_eq_true,
    if_false, Nat.zero_max, Dev.setClock_gnomon, Dev.changeClock]

end

variable {inc mode v c : Nat}

theorem rateChangeApply_clocks (hr : s.dev.gnomon.rate = some (inc, c)) (hc : c ≤ max s.now n)
    (hs : ∀ x ∈ s.dev.gnomon.step, max s.now n < x.2.2) : Completes (.rateChangeApply n) s n fun e =>
      s.dev.Clocked e ⟨s.dev.clock.time c, c, inc⟩ { s.dev.gnomon with rate := none } := by
  refine completes_at rfl ?_
  simp only [hr, hc, if_true]
  rw [Dev.advanceClock_rate hr hc hs]
  exact s.dev.changeClock_clocked _ _ c

theorem rateChangeApply_waits (hr : s.dev.gnomon.rate = some (inc, c)) (hc : max s.now n < c) :
    Completes (.rateChangeApply n) s n fun e => e = s.dev := by
  refine completes_at rfl ?_
  simp only [hr, Nat.not_le.2 hc, if_false]

theorem stepApply_clocks (hs : s.dev.gnomon.step = some (mode, v, c)) (hc : c ≤ max s.now n)
    (hr : ∀ x ∈ s.dev.gnomon.rate, max s.now n < x.2) : Completes (.stepApply n) s n fun e =>
      s.dev.Clocked e (s.dev.clock.step mode (timeUnits v) c) { s.dev.gnomon with step := none } := by
  refine completes_at rfl ?_
  simp only [hs, hc, if_true]
  rw [Dev.advanceClock_step hs hc hr]
  exact s.dev.changeClock_clocked _ _ c

theorem stepApply_waits (hs : s.dev.gnomon.step = some (mode, v, c)) (hc : max s.now n < c) :
    Completes (.stepApply n) s n fun e => e = s.dev := by
  refine completes_at rfl ?_
  simp only [hs, Nat.not_le.2 hc, if_false]

/-- Settles O46: a change that is due alone is the one the model makes ahead of its tick, and only the model and the times of day are
written. -/
theorem clockChangesApply : Obligations.ClockChangesApply := by
  unfold Obligations.ClockChangesApply
  intro s n kept model
  have clocked : ∀ {e x g}, s.dev.Clocked e x g → model e x ∧ e.gnomon = g ∧ kept e := fun {e x g} h =>
    ⟨⟨by rw [h.offset, Nat.mod_eq_of_lt (unitsTime_lt _)], h.base, h.inc⟩, h.gnomon, h.kept⟩
  refine ⟨fun inc c hr => ⟨fun hc hs => (rateChangeApply_clocks hr hc hs).imp fun e h => clocked h, rateChangeApply_waits hr⟩,
    fun mode v c hs => ⟨fun hc hr => (stepApply_clocks hs hc hr).imp fun e h => ?_, stepApply_waits hs⟩⟩
  obtain ⟨set, gnomon, rest⟩ := clocked h
  refine ⟨?_, ?_, ?_, gnomon, rest⟩ <;> rintro rfl <;> exact set

/-- The change at `c1` rebases the model on the time of `c1`, so both models tell that time there (R224). -/
theorem Dev.Clocked.time_base {d e : Dev} {x : ClockModel} {g : Gnomon} (h : d.Clocked e x g) (hb : x.base < 2 ^ 64)
    (ho : x.offset < timeModulus) : e.clock.time x.base = x.offset := by
  have base : e.clock.base = x.base := h.base.trans (Nat.mod_eq_of_lt hb)
  have offset : e.clock.offset = x.offset := by
    change timeUnits (e.rd .clockModelOffset 0) = _
    rw [h.offset, timeUnits_unitsTime ho]
  rw [← base, ClockModel.time_base, offset, Nat.mod_eq_of_lt ho]

end Sys2Proof.Machine
end

section
/-!
PROOFS. RATE_SET and the change that it names (R224).
-/
namespace Sys2Proof.Machine
open Sys2Proof

variable (d : Dev) {s : State} {n : Nat} {m : Master}

/-! ### Fields of a request's bytes -/

theorem ofBytes_map_mod (l : Bytes) : ofBytes (l.map (· % 256)) = ofBytes l := by
  induction l with
  | nil => rfl
  | cons b l ih => rw [List.map_cons, ofBytes_cons, ofBytes_cons, ih, List.length_map, Nat.mod_mod]

/-- The number that bytes of a request spell is that of the bytes taken out. -/
theorem numAt_eq {b : Bytes} {i k : Nat} (h : i + k ≤ b.length) : numAt b i k = ofBytes ((b.drop i).take k) := by
  rw [← ofBytes_map_mod, numAt]
  congr 1
  refine List.ext_getElem (by simp; omega) fun j hj _ => ?_
  have hb : i + j < b.length := by
    simp only [List.length_map, List.length_range] at hj
    omega
  simp [byteAt, List.getD_eq_getElem?_getD, hb]

/-! ### The write -/

/-- The host's steering sets its tick in the Gnomon; a time holdover that it ends is a register and a fault condition (R228). -/
theorem Dev.servo_cases (first : Bool) :
    ∃ e : Dev, e.butFaults = d.butFaults ∧ d.servo n first = { e with gnomon := { e.gnomon with servoAt := n } } := by
  unfold Dev.servo
  dsimp only
  split
  · exact ⟨_, (Dev.dropLevel_butFaults _ 422).trans (d.wr_butFaults .timeState 0 1), rfl⟩
  · exact ⟨d, rfl, rfl⟩

theorem Dev.servo_rate (first : Bool) : (d.servo n first).gnomon.rate = d.gnomon.rate := by
  obtain ⟨e, he, hs⟩ := d.servo_cases (n := n) first
  rw [hs]
  exact (congrArg (·.gnomon.rate) he :)

theorem Dev.servo_chip (first : Bool) : (d.servo n first).chip = d.chip := by
  obtain ⟨e, he, hs⟩ := d.servo_cases (n := n) first
  rw [hs]
  exact (congrArg Dev.chip he :)

theorem Dev.applyRate_rate (inc c1 : Nat) : (d.applyRate n inc c1).gnomon.rate = some (inc, changeTick n c1) := by
  rw [Dev.applyRate, Dev.gnomon_of_butTrees (Dev.retimeTod_butTrees _ _), Dev.durable_gnomon, Dev.servo_rate]

theorem Dev.applyRate_chip (inc c1 : Nat) : (d.applyRate n inc c1).chip = d.chip := by
  rw [Dev.applyRate, Dev.chip_of_butTrees (Dev.retimeTod_butTrees _ _), Dev.durable_chip, Dev.servo_chip]

theorem rateSet_answered {data : Bytes} {inc c1 : Nat} (hl : data.length = 14) (hi : ofBytes (data.take 6) = inc)
    (hc : ofBytes (data.drop 6) = c1) (h0 : c1 ≠ 0) (h : s.dev.accepts (max s.now n) m .rateSet 0 data = true) :
    Answered (.write n m 0x2900 0 0x09 data) s n m fun _ e => e.gnomon.rate = some (inc, c1) := by
  have inc_eq : numAt data 0 6 = inc := by rw [numAt_eq (by omega), List.drop_zero, hi]
  have tick_eq : numAt data 6 8 = c1 := by rw [numAt_eq (by omega), List.take_of_length_le (by simp [hl]), hc]
  refine Answered.of_durable_write (r := .rateSet) (i := 0) (fun d => d.applyRate (max s.now n) inc c1) rfl h (by decide)
    (by decide) (fun d => ?_) (Dev.applyRate_chip _ _ _) ?_ (fun a e f he => ?_) fun a e he => he
  · rw [← inc_eq, ← tick_eq]
    rfl
  · rw [Dev.applyRate_rate, changeTick, if_neg h0]
  · rwa [Dev.durable_gnomon]

/-- Settles O47: the change is made at the tick that RATE_SET named, and the model is rebased on the time of that tick, which both
models then tell. -/
theorem rateSetIsContinuous : Obligations.RateSetIsContinuous := by
  unfold Obligations.RateSetIsContinuous
  refine ⟨fun s n m data inc c1 hl hi hc h0 h => rateSet_answered hl hi hc h0 h, fun s n inc c1 hr hs hc hi hn => ?_⟩
  refine (rateChangeApply_clocks hr hn hs).imp fun e h => ⟨h.offset, ?_, ?_, ?_⟩
  · exact h.base.trans (Nat.mod_eq_of_lt hc)
  · exact h.inc.trans (Nat.mod_eq_of_lt hi)
  · exact h.time_base hc (s.dev.clock.time_lt c1)

end Sys2Proof.Machine
end

section
/-!
PROOFS. The Gnomon's events (R228, R234, R236-R239): time holdover, time of day for a tree, pulses out and in, the recovered clock.
-/
namespace Sys2Proof.Machine
open Sys2Proof

variable (d : Dev) {s : State} {n : Nat}

theorem Reg.modulus_timeState : Reg.modulus .timeState = 256 := by decide +kernel
theorem Reg.modulus_rclkState : Reg.modulus .rclkState = 256 := by decide +kernel
theorem Reg.modulus_todRef : Reg.modulus .todRef = 2 ^ 160 := by decide +kernel
theorem Reg.modulus_holdoverEvents : Reg.modulus .holdoverEvents = 2 ^ 64 := by decide +kernel
theorem Reg.modulus_ppsEdges : Reg.modulus .ppsEdges = 2 ^ 64 := by decide +kernel
theorem Reg.modulus_ppsInStamp : Reg.modulus .ppsInStamp = 2 ^ 96 := by decide +kernel
theorem Reg.modulus_ppsInSeq : Reg.modulus .ppsInSeq = 2 ^ 32 := by decide +kernel
theorem Reg.modulus_ppsInIgnored : Reg.modulus .ppsInIgnored = 2 ^ 64 := by decide +kernel

variable {d} in
theorem Dev.gnomon_of_butFaults {e : Dev} (h : e.butFaults = d.butFaults) : e.gnomon = d.gnomon :=
  (congrArg Dev.gnomon h :)

/-! ### Conditions of the hub's sources (R282) -/

theorem Dev.raiseLevel_raised (n : Nat) {o : Occurrence} {k : Nat} (ho : o.source = k) (hk : 256 ≤ k) :
    ((d.raiseLevel n o).source k).level = true := by
  subst ho
  exact d.raiseLevel_level n o (d.unevaluated_of_le hk)

variable {d} in
/-- A condition that ends after a change that leaves its source alone. -/
theorem Dev.dropLevel_released_from {e : Dev} {k : Nat} (h : e.source k = d.source k) : d.released (e.dropLevel k) k := by
  have dropped := e.dropLevel_released k
  unfold Dev.released at dropped ⊢
  rwa [h] at dropped

/-! ### Time holdover (R228) -/

/-- The clock enters a time holdover. -/
def Dev.enterTimeHoldover (d : Dev) (n : Nat) : Dev := ((d.wr .timeState 0 2).bump .holdoverEvents 0).raiseLevel n { source := 422 }

theorem Dev.enterTimeHoldover_rd {r : Reg} (i : Nat) (h : r ∉ [.timeState, .holdoverEvents, .occurrences]) :
    (d.enterTimeHoldover n).rd r i = d.rd r i := by
  simp only [List.mem_cons, List.not_mem_nil, or_false, not_or] at h
  obtain ⟨state, events, occurrences⟩ := h
  rw [Dev.enterTimeHoldover, Dev.raiseLevel_rd _ _ _ _ occurrences, Dev.bump_rd_other _ _ _ events, Dev.rd_wr_other _ _ _ _ state]

theorem timeHoldover_enters (hk : s.dev.rd .keepaliveMs 0 ≠ 0) (ht : s.dev.rd .timeState 0 = 1)
    (hn : s.dev.gnomon.servoAt + msTicks (s.dev.rd .keepaliveMs 0) ≤ max s.now n) : Completes (.timeHoldover n) s n fun e =>
      e.rd .timeState 0 = 2 ∧ e.rd .holdoverEvents 0 = (s.dev.rd .holdoverEvents 0 + 1) % 2 ^ 64 ∧
      (e.source 422).level = true ∧ e.gnomon = s.dev.gnomon ∧
      ∀ r i, r ∉ [.timeState, .holdoverEvents, .occurrences] → e.rd r i = s.dev.rd r i := by
  refine completes_at rfl ?_
  rw [if_pos ⟨hk, ht, hn⟩]
  refine ⟨?_, ?_, Dev.raiseLevel_raised _ _ rfl (by decide),
    ?_, fun r i h => s.dev.enterTimeHoldover_rd i h⟩
  · rw [Dev.raiseLevel_rd _ _ _ _ (by decide), Dev.bump_rd_other _ _ _ (by decide), Dev.rd_wr_same, Reg.modulus_timeState]
  · rw [Dev.raiseLevel_rd _ _ _ _ (by decide), Dev.rd_bump_counter _ _ Reg.modulus_holdoverEvents,
      Dev.rd_wr_other _ _ _ _ (by decide)]
  · rw [Dev.gnomon_of_butFaults (Dev.raiseLevel_butFaults _ _ _), Dev.bump_eq, Dev.wr_gnomon, Dev.wr_gnomon]

/-! ### Time of day (R234, R236) -/

/-- The superframe that TOD_REF names and the time it gives it, on a tree that has been told. -/
structure Dev.TodTold (d e : Dev) (n t k : Nat) : Prop where
  named : (e.tree t).todN = some k
  told : (e.tree t).todAt = n
  others : ∀ x, x ≠ t → e.tree x = d.tree x
  ref : e.rd .todRef t = (k * 2 ^ 96 +
    unitsTime ((d.clockAhead (d.frameStart k)).time (d.frameStart k) + d.downLatency t * 65536 / 1000)) % 2 ^ 160
  kept : d.regsKept e [(.todRef, t)]

theorem Dev.setTod_told (n t k : Nat) : d.TodTold ((d.setTod t k).modTree t fun x => { x with todAt := n }) n t k where
  named := by rw [Dev.setTod, Dev.tree_modTree_same, Dev.tree_modTree_same]
  told := by rw [Dev.tree_modTree_same]
  others x h := by rw [Dev.tree_modTree, if_neg h, Dev.setTod, Dev.tree_modTree, if_neg h, Dev.wr_tree]
  ref := by rw [Dev.modTree_rd, Dev.setTod, Dev.modTree_rd, Dev.rd_wr_same, Reg.modulus_todRef]
  kept r i h := by rw [Dev.modTree_rd, Dev.setTod, Dev.modTree_rd, (d.onlyRegs_wr .todRef t _).1 r i h]

theorem todUpdate_tells {t : Nat} (ht : t < 32) (he : s.dev.on .todEnable t = true)
    (hd : (s.dev.tree t).todN = none ∨ (s.dev.tree t).todAt + msTicks (s.dev.rd .todPeriodMs t) ≤ max s.now n)
    (hm : ∀ m ∈ (s.dev.tree t).maps, m.sfc = s.dev.rd .superframe 0 → Consumer.gnomon ∉ m.late) :
    Completes (.todUpdate n t) s n fun e =>
      s.dev.TodTold e (max s.now n) t (s.dev.rd .superframe 0 + s.dev.rd .todLead t) := by
  have due : ((s.dev.tree t).todN.isNone ||
      decide ((s.dev.tree t).todAt + msTicks (s.dev.rd .todPeriodMs t) ≤ max s.now n)) = true := by
    rcases hd with h | h <;> simp [h]
  have taken : ((s.dev.tree t).maps.any fun m => m.sfc == s.dev.rd .superframe 0 && m.late.contains .gnomon) = false :=
    List.any_eq_false.2 fun m hx => by simpa using hm m hx
  refine completes_onElement rfl ht ?_
  simp only [he, due, taken, Bool.not_false, Bool.and_self, if_true]
  exact s.dev.setTod_told _ t _

/-! ### Pulses out (R237) -/

/-- An edge leaves, and PPS_OUT is high until tick `till`. -/
def Dev.sendEdge (d : Dev) (n till : Nat) : Dev :=
  (({ d with gnomon := { d.gnomon with ppsHighUntil := till } } : Dev).bump .ppsEdges 0).emit (.ppsEdge n)

theorem Dev.sendEdge_rd (till : Nat) (r : Reg) (i : Nat) : (d.sendEdge n till).rd r i = (d.bump .ppsEdges 0).rd r i := by
  rw [Dev.sendEdge, Dev.emit_rd, Dev.rd_bump, Dev.rd_bump]
  simp only [Dev.withGnomon_rd]

theorem ppsOutEdge_edges (hd : s.dev.ppsDriven = true) (hc : s.dev.ppsCrosses (max s.now n) = true) :
    Completes (.ppsOutEdge n) s n fun e =>
      e.wire = s.dev.wire ++ [.ppsEdge (max s.now n)] ∧ e.rd .ppsEdges 0 = (s.dev.rd .ppsEdges 0 + 1) % 2 ^ 64 ∧
      s.dev.regsKept e [(.ppsEdges, 0)] := by
  refine (completes_at rfl ?_ : Completes _ s n fun e => ∃ till, e = s.dev.sendEdge (max s.now n) till).imp ?_
  · rw [hd, hc]
    exact ⟨_, rfl⟩
  · rintro _ ⟨till, rfl⟩
    refine ⟨?_, ?_, fun r i h => ?_⟩
    · rw [Dev.sendEdge, Dev.wire_emit, Dev.bump_wire]
    · rw [Dev.sendEdge_rd, Dev.rd_bump_counter _ _ Reg.modulus_ppsEdges]
    · rw [Dev.sendEdge_rd, (s.dev.onlyRegs_bump .ppsEdges 0).1 r i h]

theorem ppsOutEdge_undriven (hd : s.dev.ppsDriven = false) : Completes (.ppsOutEdge n) s n fun e => e = s.dev := by
  refine completes_at rfl ?_
  rw [hd]
  rfl

/-! ### The recovered clock (R239) -/

theorem rclkRestore_restores {u : Nat} (hu : s.dev.gnomon.rclkUntil = some u) (hn : u ≤ max s.now n)
    (hs : s.dev.rd .rclkState 0 = 2) : Completes (.rclkRestore n) s n fun e =>
      e.rd .rclkState 0 = 1 ∧ s.dev.released e 423 ∧ e.gnomon.rclkUntil = none ∧ s.dev.regsKept e [(.rclkState, 0)] := by
  refine completes_at rfl ?_
  simp only [hu]
  rw [if_pos ⟨hn, hs⟩]
  refine ⟨?_, Dev.dropLevel_released_from (Dev.wr_source _ _ _ _ _), ?_, fun r i h => ?_⟩
  · rw [Dev.dropLevel_rd, Dev.rd_wr_same, Reg.modulus_rclkState]
  · rw [Dev.gnomon_of_butFaults (Dev.dropLevel_butFaults _ 423), Dev.wr_gnomon]
  · rw [Dev.dropLevel_rd, (Dev.onlyRegs_wr _ .rclkState 0 1).1 r i h, Dev.withGnomon_rd]

/-- Settles O48: each event of the Gnomon that is due does what its rule says. -/
theorem timeEventsAct : Obligations.TimeEventsAct := by
  unfold Obligations.TimeEventsAct
  refine fun s n => ⟨fun hk ht hn => timeHoldover_enters hk ht hn, fun t ht he hd hm => ?_,
    fun hd hc => ppsOutEdge_edges hd hc, fun hd => ppsOutEdge_undriven hd, fun u hu hn hs => rclkRestore_restores hu hn hs⟩
  exact (todUpdate_tells ht he hd hm).imp fun e h => ⟨h.named, h.told, h.others, h.ref, h.kept⟩

/-! ### Pulses in (R238) -/

theorem ppsInEdge_disabled {ps : Nat} (he : s.dev.on .ppsInEnable 0 = false) :
    Completes (.ppsInEdge n ps) s n fun e => e = s.dev := by
  refine completes_at rfl ?_
  rw [he]
  rfl

theorem ppsInEdge_ignores {ps l : Nat} (he : s.dev.on .ppsInEnable 0 = true) (hl : s.dev.gnomon.ppsInLast = some l)
    (hn : max s.now n ≤ l + 622080000) : Completes (.ppsInEdge n ps) s n fun e =>
      e.rd .ppsInIgnored 0 = (s.dev.rd .ppsInIgnored 0 + 1) % 2 ^ 64 ∧ s.dev.onlyRegs e [(.ppsInIgnored, 0)] := by
  refine completes_at rfl ?_
  simp only [he, hl, hn, decide_true, Bool.not_true, Bool.false_eq_true, if_true, if_false]
  exact ⟨s.dev.rd_bump_counter 0 Reg.modulus_ppsInIgnored, s.dev.onlyRegs_bump .ppsInIgnored 0⟩

/-- An edge is stamped. -/
def Dev.stampEdge (d : Dev) (n : Nat) (at_ : Int) : Dev :=
  (({ d with gnomon := { d.gnomon with ppsInLast := some n } } : Dev).wr .ppsInStamp 0 (d.stampTime n at_)).bump .ppsInSeq 0

/-- What a stamped edge leaves: its stamp at `at_` ps after tick `n`, and the next sequence number. -/
structure Dev.EdgeStamped (d e : Dev) (n : Nat) (at_ : Int) : Prop where
  stamp : e.rd .ppsInStamp 0 = d.stampTime n at_
  seq : e.rd .ppsInSeq 0 = (d.rd .ppsInSeq 0 + 1) % 2 ^ 32
  last : e.gnomon.ppsInLast = some n
  kept : d.regsKept e [(.ppsInStamp, 0), (.ppsInSeq, 0)]

theorem Dev.stampTime_lt (at_ : Int) : d.stampTime n at_ < 2 ^ 96 := unitsTime_lt _

theorem Dev.stampEdge_stamped (at_ : Int) : d.EdgeStamped (d.stampEdge n at_) n at_ where
  stamp := by
    rw [Dev.stampEdge, Dev.bump_rd_other _ _ _ (by decide), Dev.rd_wr_same, Reg.modulus_ppsInStamp,
      Nat.mod_eq_of_lt (d.stampTime_lt at_)]
  seq := by
    rw [Dev.stampEdge, Dev.rd_bump, if_pos ⟨rfl, rfl⟩, Reg.modulus_ppsInSeq, Dev.rd_wr_other _ _ _ _ (by decide),
      Dev.withGnomon_rd]
  last := by rw [Dev.stampEdge, Dev.bump_eq, Dev.wr_gnomon, Dev.wr_gnomon]
  kept r i h := by
    simp only [List.mem_cons, List.not_mem_nil, or_false, not_or, Prod.mk.injEq] at h
    rw [Dev.stampEdge, Dev.rd_bump, if_neg h.2, Dev.rd_wr, if_neg h.1, Dev.withGnomon_rd]

theorem ppsInEdge_stamps {ps : Nat} (he : s.dev.on .ppsInEnable 0 = true)
    (hn : ∀ l ∈ s.dev.gnomon.ppsInLast, l + 622080000 < max s.now n) : Completes (.ppsInEdge n ps) s n fun e =>
      e = s.dev.stampEdge (max s.now n) (((ps / 100 * 100 : Nat) : Int) - s.dev.rdS .ppsInDelayPs 0) := by
  refine completes_at rfl ?_
  cases h : s.dev.gnomon.ppsInLast with
  | none =>
    simp only [he, Bool.not_true, Bool.false_eq_true, if_false]
    rfl
  | some l =>
    have far : ¬max s.now n ≤ l + 622080000 := Nat.not_le.2 (hn l h)
    simp only [he, far, decide_false, Bool.not_true, Bool.false_eq_true, if_false]
    rfl

/-- Settles O49: an edge is stamped, ignored or not seen by what PPS_IN_ENABLE and the last stamped edge say. -/
theorem ppsInStamped : Obligations.PpsInStamped := by
  unfold Obligations.PpsInStamped
  refine fun s n ps => ⟨fun he hn => (ppsInEdge_stamps he hn).imp fun e h => ?_,
    fun he l hl hn => ppsInEdge_ignores he hl hn, fun he => ppsInEdge_disabled he⟩
  subst h
  obtain ⟨stamp, seq, last, kept⟩ := s.dev.stampEdge_stamped (n := max s.now n)
    (((ps / 100 * 100 : Nat) : Int) - s.dev.rdS .ppsInDelayPs 0)
  exact ⟨stamp, seq, last, kept⟩

end Sys2Proof.Machine
end

section
/-!
PROOFS. Power-on reset (R340, R341), the straps (R349), start-up (R338, R339) and the management port's link (R262).
-/
namespace Sys2Proof.Machine
open Sys2Proof

variable (d : Dev) {s : State} {n : Nat}

theorem Reg.modulus_straps : Reg.modulus .straps = 2 ^ 32 := by decide +kernel
theorem Reg.modulus_mgmtMac : Reg.modulus .mgmtMac = 2 ^ 48 := by decide +kernel
theorem Reg.modulus_mgmtMode : Reg.modulus .mgmtMode = 256 := by decide +kernel
theorem Reg.modulus_unitId : Reg.modulus .unitId = 256 := by decide +kernel
theorem Reg.modulus_mgmtState : Reg.modulus .mgmtState = 256 := by decide +kernel
theorem Reg.modulus_pllLocked : Reg.modulus .pllLocked = 256 := by decide +kernel
theorem Reg.modulus_domainLocked : Reg.modulus .domainLocked = 256 := by decide +kernel
theorem Reg.modulus_bridgeAState : Reg.modulus .bridgeAState = 256 := Reg.modulus_bridgeState 0
theorem Reg.modulus_bridgeBState : Reg.modulus .bridgeBState = 256 := Reg.modulus_bridgeState 1

/-! ### Power-on reset -/

theorem powerOnReset_resets {ns : Nat} (h : 1000 ≤ ns) : ∃ t, exec (.powerOnReset n ns) s = .next t ∧ t.now = 0 ∧
    t.pending = s.pending ∧ t.dev = { State.reset.dev with wire := s.dev.wire, free := s.dev.free } ∧
    ∀ r i, t.dev.rd r i = r.dflt i :=
  ⟨_, if_neg (Nat.not_lt.2 h), rfl, rfl, rfl, fun r i => Dev.rd_of_regs_nil rfl r i⟩

theorem powerOnReset_ignored {ns : Nat} (h : ns < 1000) : Completes (.powerOnReset n ns) s n fun e => e = s.dev :=
  completes_at (f := fun _ d => d) (if_pos h) rfl

/-! ### The straps -/

/-- The straps are sampled, and the bridges train. -/
def Dev.sampleStraps (d : Dev) (x : Nat) : Dev :=
  ((((((d.wr .straps 0 x).wr .mgmtMac 0 (0x0249510000 * 256 + x % 256)).wr .mgmtMode 0 (x / 256 % 2)).wr .unitId 0
    (x / 512)).modChip fun c => { c with phase := .starting }).wr .bridgeAState 0 1).wr .bridgeBState 0 1

theorem porstRelease_samples {straps : Nat} (h : s.dev.chip.phase = .porst) : Completes (.porstRelease n straps) s n fun e =>
    e = s.dev.sampleStraps (straps % 1024) :=
  completes_at rfl (if_pos h)

/-- Ten bits of straps are told by four registers. -/
structure Dev.Strapped (d e : Dev) (x : Nat) : Prop where
  phase : e.chip.phase = .starting
  straps : e.rd .straps 0 = x
  mac : e.rd .mgmtMac 0 = 0x024951000000 + x % 256
  mode : e.rd .mgmtMode 0 = x / 256 % 2
  unit : e.rd .unitId 0 = x / 512
  bridgeA : e.rd .bridgeAState 0 = 1
  bridgeB : e.rd .bridgeBState 0 = 1
  kept : d.regsKept e [(.straps, 0), (.mgmtMac, 0), (.mgmtMode, 0), (.unitId, 0), (.bridgeAState, 0), (.bridgeBState, 0)]

theorem Dev.sampleStraps_strapped {x : Nat} (hx : x < 1024) : d.Strapped (d.sampleStraps x) x where
  phase := rfl
  straps := by
    simp only [Dev.sampleStraps, Dev.rd_wr, Dev.modChip_rd, reduceCtorEq, false_and, if_false, and_self, if_true,
      Reg.modulus_straps]
    omega
  mac := by
    simp only [Dev.sampleStraps, Dev.rd_wr, Dev.modChip_rd, reduceCtorEq, false_and, if_false, and_self, if_true,
      Reg.modulus_mgmtMac]
    omega
  mode := by
    simp only [Dev.sampleStraps, Dev.rd_wr, Dev.modChip_rd, reduceCtorEq, false_and, if_false, and_self, if_true,
      Reg.modulus_mgmtMode]
    omega
  unit := by
    simp only [Dev.sampleStraps, Dev.rd_wr, Dev.modChip_rd, reduceCtorEq, false_and, if_false, and_self, if_true,
      Reg.modulus_unitId]
    omega
  bridgeA := by
    rw [Dev.sampleStraps, Dev.rd_wr_other _ _ _ _ (by decide), Dev.rd_wr_same, Reg.modulus_bridgeAState]
  bridgeB := by rw [Dev.sampleStraps, Dev.rd_wr_same, Reg.modulus_bridgeBState]
  kept r i h := by
    simp only [List.mem_cons, List.not_mem_nil, or_false, not_or, Prod.mk.injEq] at h
    obtain ⟨straps, mac, mode, unit, bridgeA, bridgeB⟩ := h
    rw [Dev.sampleStraps, Dev.rd_wr, if_neg bridgeB, Dev.rd_wr, if_neg bridgeA, Dev.modChip_rd, Dev.rd_wr, if_neg unit,
      Dev.rd_wr, if_neg mode, Dev.rd_wr, if_neg mac, Dev.rd_wr, if_neg straps]

/-! ### Start-up -/

theorem Dev.each_wr_rd_other {r q : Reg} (v : Nat) (l : List Nat) (j : Nat) (h : q ≠ r) :
    (d.each l fun d i => d.wr r i v).rd q j = d.rd q j :=
  d.each_keeps (·.rd q j) fun d _ _ => d.rd_wr_other _ _ _ h

theorem Dev.drawSalt_rd {r : Reg} (i : Nat) (h : r ≠ .deviceSalt) : d.drawSalt.rd r i = d.rd r i := by
  unfold Dev.drawSalt
  split
  · rfl
  · exact Dev.rd_wr_other _ _ _ _ h

theorem Dev.drawSalt_faults : d.drawSalt.faults = d.faults := by
  unfold Dev.drawSalt
  split <;> rfl

theorem Dev.judgePins_phase : d.judgePins.chip.phase = d.chip.phase := by
  unfold Dev.judgePins
  split
  · rfl
  · split <;> rfl

theorem Dev.withChip_rd (x : Chip) (r : Reg) (i : Nat) : ({ d with chip := x } : Dev).rd r i = d.rd r i := rfl

/-- Reference A is taken, and every PLL, clock domain and bridge locks. -/
def Dev.lockAll (d : Dev) : Dev :=
  ((((((d.wr .refState 0 0).wr .refSelect 0 0).modChip fun c => { c with phase := .up, lockedRef := 0 }).each (List.range 12)
    fun d k => d.wr .pllLocked k 1).each (List.range 104) fun d c => d.wr .domainLocked c 1).wr .bridgeAState 0 2).wr
    .bridgeBState 0 2

theorem Dev.each_wr_chip (r : Reg) (v : Nat) (l : List Nat) : (d.each l fun d i => d.wr r i v).chip = d.chip :=
  d.each_keeps Dev.chip fun _ _ _ => rfl

theorem Dev.each_wr_faults (r : Reg) (v : Nat) (l : List Nat) : (d.each l fun d i => d.wr r i v).faults = d.faults :=
  d.each_keeps Dev.faults fun _ _ _ => rfl

theorem Dev.lockAll_chip : d.lockAll.chip = { d.chip with phase := .up, lockedRef := 0 } := by
  rw [Dev.lockAll, Dev.wr_chip, Dev.wr_chip, Dev.each_wr_chip, Dev.each_wr_chip]
  rfl

theorem Dev.lockAll_faults : d.lockAll.faults = d.faults := by
  rw [Dev.lockAll, Dev.wr_faults, Dev.wr_faults, Dev.each_wr_faults, Dev.each_wr_faults]
  rfl

/-- The device is up, locked to reference A. -/
structure Dev.UpOnA (e : Dev) : Prop where
  phase : e.chip.phase = .up
  refState : e.rd .refState 0 = 0
  refSelect : e.rd .refSelect 0 = 0
  bridgeA : e.rd .bridgeAState 0 = 2
  bridgeB : e.rd .bridgeBState 0 = 2
  plls : ∀ k < 12, e.rd .pllLocked k = 1
  domains : ∀ c < 104, e.rd .domainLocked c = 1

theorem Dev.lockAll_up : d.lockAll.UpOnA where
  phase := by rw [Dev.lockAll_chip]
  refState := by
    rw [Dev.lockAll, Dev.rd_wr_other _ _ _ _ (by decide), Dev.rd_wr_other _ _ _ _ (by decide),
      Dev.each_wr_rd_other _ _ _ _ (by decide), Dev.each_wr_rd_other _ _ _ _ (by decide), Dev.modChip_rd,
      Dev.rd_wr_other _ _ _ _ (by decide), Dev.rd_wr_same, Nat.zero_mod]
  refSelect := by
    rw [Dev.lockAll, Dev.rd_wr_other _ _ _ _ (by decide), Dev.rd_wr_other _ _ _ _ (by decide),
      Dev.each_wr_rd_other _ _ _ _ (by decide), Dev.each_wr_rd_other _ _ _ _ (by decide), Dev.modChip_rd,
      Dev.rd_wr_same, Nat.zero_mod]
  bridgeA := by
    rw [Dev.lockAll, Dev.rd_wr_other _ _ _ _ (by decide), Dev.rd_wr_same, Reg.modulus_bridgeAState]
  bridgeB := by rw [Dev.lockAll, Dev.rd_wr_same, Reg.modulus_bridgeBState]
  plls k hk := by
    rw [Dev.lockAll, Dev.rd_wr_other _ _ _ _ (by decide), Dev.rd_wr_other _ _ _ _ (by decide),
      Dev.each_wr_rd_other _ _ _ _ (by decide), Dev.each_wr_rd, if_pos (List.mem_range.2 hk), Reg.modulus_pllLocked]
  domains c hc := by
    rw [Dev.lockAll, Dev.rd_wr_other _ _ _ _ (by decide), Dev.rd_wr_other _ _ _ _ (by decide), Dev.each_wr_rd,
      if_pos (List.mem_range.2 hc), Reg.modulus_domainLocked]

/-- What salts the management keys and what judges the pins leaves a device that is up as it is. -/
theorem Dev.UpOnA.of_rd {d e : Dev} (h : d.UpOnA) (hp : e.chip.phase = d.chip.phase)
    (hr : ∀ r i, r ≠ .deviceSalt → e.rd r i = d.rd r i) : e.UpOnA where
  phase := hp.trans h.phase
  refState := (hr _ _ (by decide)).trans h.refState
  refSelect := (hr _ _ (by decide)).trans h.refSelect
  bridgeA := (hr _ _ (by decide)).trans h.bridgeA
  bridgeB := (hr _ _ (by decide)).trans h.bridgeB
  plls k hk := (hr _ _ (by decide)).trans (h.plls k hk)
  domains c hc := (hr _ _ (by decide)).trans (h.domains c hc)

/-- The references that are not good are reported, and the management port's link where it is down. -/
def Dev.reportStart (d : Dev) (n : Nat) : Dev :=
  let e := d.each ([0, 1].filter fun r => !d.refIsGood r) fun d r => d.raiseLevel n { source := 425 + r, index := r }
  if e.rd .mgmtState 0 = 0 then e.raiseLevel n { source := 438 } else e

theorem Dev.reportStart_good (hr : ∀ r, d.refIsGood r = true) (hm : d.rd .mgmtState 0 ≠ 0) : d.reportStart n = d := by
  simp [Dev.reportStart, hr, hm]

theorem Dev.lockAll_mgmtState : d.lockAll.rd .mgmtState 0 = d.rd .mgmtState 0 := by
  rw [Dev.lockAll, Dev.rd_wr_other _ _ _ _ (by decide), Dev.rd_wr_other _ _ _ _ (by decide),
    Dev.each_wr_rd_other _ _ _ _ (by decide), Dev.each_wr_rd_other _ _ _ _ (by decide), Dev.modChip_rd,
    Dev.rd_wr_other _ _ _ _ (by decide), Dev.rd_wr_other _ _ _ _ (by decide)]

theorem dictionaryReady_up (hp : s.dev.chip.phase = .starting) (ha : s.dev.chip.refGoodA = true)
    (hb : s.dev.chip.refGoodB = true) (hm : s.dev.rd .mgmtState 0 = 1) (hf : s.dev.faults.arriving = []) :
    Completes (.dictionaryReady n) s n Dev.UpOnA := by
  have good : ∀ r, s.dev.lockAll.drawSalt.refIsGood r = true := fun r => by
    rw [Dev.refIsGood, Dev.drawSalt_chip, Dev.lockAll_chip]
    split
    · exact ha
    · exact hb
  have link : s.dev.lockAll.drawSalt.rd .mgmtState 0 ≠ 0 := by
    rw [Dev.drawSalt_rd _ _ (by decide), Dev.lockAll_mgmtState, hm]
    decide
  have idle : s.dev.lockAll.drawSalt.faults.arriving = [] := by rw [Dev.drawSalt_faults, Dev.lockAll_faults, hf]
  refine completes_at rfl ?_
  rw [if_pos ⟨hp, by rw [ha]; rfl⟩]
  dsimp only
  rw [if_pos ha]
  change ((s.dev.lockAll.drawSalt.reportStart (max s.now n)).collect (max s.now n)).UpOnA
  rw [Dev.reportStart_good _ good link, Dev.collect_idle _ _ idle]
  refine s.dev.lockAll_up.of_rd ?_ fun r i hr => ?_
  · rw [Dev.judgePins_phase, Dev.drawSalt_chip]
  · obtain ⟨x, hx⟩ := s.dev.lockAll.drawSalt.judgePins_chip
    rw [hx, Dev.withChip_rd, Dev.drawSalt_rd _ _ hr]

/-! ### The management port's link -/

theorem Dev.phase_of_running (h : d.running = true) : d.chip.phase = .up ∨ d.chip.phase = .warm := by
  simpa only [Dev.running, Bool.or_eq_true, beq_iff_eq] using h

theorem mgmtLinkUp_up (h : s.dev.running = true) : Completes (.mgmtLinkUp n) s n fun e =>
    e.rd .mgmtState 0 = 1 ∧ s.dev.released e 438 ∧ s.dev.regsKept e [(.mgmtState, 0)] := by
  refine (completes_at rfl ?_ : Completes _ s n fun e => e = (s.dev.wr .mgmtState 0 1).dropLevel 438).imp ?_
  · rcases s.dev.phase_of_running h with hp | hp <;> simp only [hp]
  · rintro _ rfl
    refine ⟨?_, Dev.dropLevel_released_from (Dev.wr_source _ _ _ _ _), fun r i hr => ?_⟩
    · rw [Dev.dropLevel_rd, Dev.rd_wr_same, Reg.modulus_mgmtState]
    · rw [Dev.dropLevel_rd]
      exact (s.dev.onlyRegs_wr .mgmtState 0 1).1 r i hr

theorem mgmtLinkDown_down (h : s.dev.running = true) : Completes (.mgmtLinkDown n) s n fun e =>
    e.rd .mgmtState 0 = 0 ∧ (e.source 438).level = true ∧
    ∀ r i, r ≠ .occurrences → (r, i) ≠ (.mgmtState, 0) → e.rd r i = s.dev.rd r i := by
  refine (completes_at rfl ?_ : Completes _ s n fun e =>
    e = (s.dev.wr .mgmtState 0 0).raiseLevel (max s.now n) { source := 438 }).imp ?_
  · rcases s.dev.phase_of_running h with hp | hp <;> simp only [hp]
  · rintro _ rfl
    refine ⟨?_, Dev.raiseLevel_raised _ _ rfl (by decide), fun r i ho hr => ?_⟩
    · rw [Dev.raiseLevel_rd _ _ _ _ (by decide), Dev.rd_wr_same, Nat.zero_mod]
    · rw [Dev.raiseLevel_rd _ _ _ _ ho]
      exact (s.dev.onlyRegs_wr .mgmtState 0 0).1 r i (by simpa using hr)

/-- Settles O35: an assertion of 1 us restores the reset state, the straps are told by their registers, and start-up with both
references good and no fault that waits raises nothing. -/
theorem powerOnAndStartUp : Obligations.PowerOnAndStartUp := by
  unfold Obligations.PowerOnAndStartUp
  refine ⟨fun s n ns => ⟨powerOnReset_resets, powerOnReset_ignored⟩, fun s n => ⟨fun straps hp => ?_,
    fun hp ha hb hm hf => ?_, fun hr => ⟨mgmtLinkUp_up hr, mgmtLinkDown_down hr⟩⟩⟩
  · refine (porstRelease_samples hp).imp fun e he => ?_
    subst he
    have h := s.dev.sampleStraps_strapped (Nat.mod_lt straps (by decide : 0 < 1024))
    refine ⟨h.phase, h.straps, h.mac.trans ?_, h.mode.trans ?_, h.unit.trans ?_, h.bridgeA, h.bridgeB, h.kept⟩ <;> omega
  · exact (dictionaryReady_up hp ha hb hm hf).imp fun e h =>
      ⟨h.phase, h.refState, h.refSelect, h.bridgeA, h.bridgeB, h.plls, h.domains⟩

end Sys2Proof.Machine
end

section
/-!
PROOFS. PTP_TX (R233) where the free store reads a bad address (R187): the message is dropped although there are cells for it.
-/
namespace Sys2Proof.Machine
open Sys2Proof

variable (d : Dev)

/-! ### A frame whose write meets a bad address (R187) -/

variable {d} in
theorem Dev.takeFromBank_queues {b c : Nat} {e : Dev} (h : d.takeFromBank b = some (c, e)) :
    e.buf.queues = d.buf.queues := by
  unfold Dev.takeFromBank at h
  dsimp only at h
  split at h
  · split at h
    · cases h
      rfl
    · split at h <;> cases h
      rfl
  · split at h <;> cases h
    rfl

variable {d} in
theorem Dev.takeInTurn_queues {tries b c : Nat} {e : Dev} (h : d.takeInTurn tries b = some (c, e)) :
    e.buf.queues = d.buf.queues := by
  induction tries generalizing b with
  | zero => cases h
  | succ tries ih =>
    unfold Dev.takeInTurn at h
    split at h
    · next f hf =>
      cases h
      rw [Dev.bump_eq, Dev.wr_buf, Dev.wr_buf]
      exact (Dev.takeFromBank_queues hf :)
    · exact ih h

theorem Dev.badRead_queue (q : Nat) : d.badRead.queue q = d.queue q := by
  refine congrArg (Tab.get [] · q) ?_
  unfold Dev.badRead
  dsimp only
  split
  · rfl
  · next e he => exact (Dev.takeInTurn_queues he :)

/-- A frame of the device's own is not queued where its write meets a bad address. -/
theorem Dev.queueDevice_badRead (h : d.buf.badReads ≠ 0) (n pool kind dest queue domain : Nat) (bytes : Bytes) (oneStep : Bool)
    (ring : Option Nat) : d.queueDevice n pool kind dest queue domain bytes oneStep ring = (false, d.badRead) := by
  have dropped : ∀ length, d.storeFrame n pool length bytes = (none, d.badRead) := fun length => if_pos h
  simp only [Dev.queueDevice, dropped]

theorem Dev.applyPtpTx_badRead (h : d.buf.badReads ≠ 0) (n : Nat) (data : Bytes) :
    ∃ e : Dev, e.buf = d.buf ∧ e.chip = d.chip ∧ d.applyPtpTx n data = e.badRead := by
  have dropped : ∀ e : Dev, e.buf = d.buf → ∀ dest queue domain bytes oneStep ring,
      (e.queueDevice n 33 0 dest queue domain bytes oneStep ring).2 = e.badRead := by
    intro e he dest queue domain bytes oneStep ring
    rw [e.queueDevice_badRead (he ▸ h)]
  unfold Dev.applyPtpTx
  dsimp only
  split
  · exact ⟨_, Dev.wr_buf _ _ _ _, Dev.wr_chip _ _ _ _, dropped _ (Dev.wr_buf _ _ _ _) _ _ _ _ _ _⟩
  · exact ⟨d, rfl, rfl, dropped d rfl _ _ _ _ _ _⟩

theorem Dev.writeReg_ptpTx (n : Nat) (m : Master) (data : Bytes) : d.writeReg n m .ptpTx 0 data = d.applyPtpTx n data := by
  have aside : ((Reg.row .ptpTx).flags.mirrored && !mirroredAside .ptpTx) ≠ true := by decide
  unfold Dev.writeReg
  rw [if_neg aside]
  rfl

/-- An accepted PTP_TX of a device whose next write meets a bad address is answered, and leaves every queue as it was. -/
theorem ptpTx_badRead {s : State} {n : Nat} {m : Master} {data : Bytes} (h : s.dev.accepts (max s.now n) m .ptpTx 0 data = true)
    (hb : (s.dev.asked (max s.now n) m).buf.badReads ≠ 0) :
    Answered (.ptpTx n m data) s n m fun a e => ∀ q, e.queue q = a.queue q := by
  obtain ⟨e, buf, chip, applied⟩ := Dev.applyPtpTx_badRead _ hb (max s.now n) data
  have written := (Dev.writeReg_ptpTx _ (max s.now n) m data).trans applied
  refine Answered.of_writeReg rfl h (by decide) (by decide) ?_ (fun q => ?_) fun a e he => he
  · rw [written]
    exact (congrArg Dev.chip e.badRead_butBuffers :).trans chip
  · rw [written, Dev.badRead_queue, Dev.queue, buf, Dev.queue]

/-! ### The device and the message -/

/-- A device that is up, port 15 in a hold, whose next write meets a bad address. -/
def Dev.spoiled : Dev :=
  ({ State.reset.dev with
      chip := { State.reset.dev.chip with phase := .up }, buf := { State.reset.dev.buf with badReads := 1 } } : Dev).modPort 15
    fun x => { x with hold := some (0, 50) }

/-- PTP_TX to port 15 in class 7, stamped, of 60 bytes (R233). -/
def stampedMessage : Bytes := [15, 0x47] ++ toBytes 2 60 ++ List.replicate 256 1

theorem ptpTx_accepted : Dev.spoiled.accepts 5 .serial .ptpTx 0 stampedMessage = true := by decide +kernel
theorem ptpTx_stamped : bitAt (byteAt stampedMessage 1) 6 = true := by decide +kernel
theorem ptpTx_held : (Dev.spoiled.asked 5 .serial).portGate 15 = .held := by decide +kernel
theorem ptpTx_cells :
    ((Dev.spoiled.asked 5 .serial).takeCells 33 (cellsOf (max 64 (((stampedMessage.drop 4).take 60).length + 4))) []).1 = true := by
  decide +kernel
theorem ptpTx_spoiled : (Dev.spoiled.asked 5 .serial).buf.badReads ≠ 0 := by decide +kernel

/-- Refutes O27: a stamped PTP_TX to a held port, with cells for it in the pool and the free store, is not queued where the free
store's next read meets a bad address (R187). -/
theorem not_timeObjectsWritten : ¬ Obligations.TimeObjectsWritten := by
  unfold Obligations.TimeObjectsWritten
  rintro ⟨-, sends⟩
  have kept := ptpTx_badRead (s := ⟨0, [], Dev.spoiled⟩) (n := 5) ptpTx_accepted ptpTx_spoiled
  obtain ⟨t, queues, -, -, -, -, k, x, queued, -⟩ :=
    sends ⟨0, [], Dev.spoiled⟩ 5 .serial stampedMessage ptpTx_accepted ptpTx_stamped ptpTx_held ptpTx_cells
  obtain ⟨u, drops, -, -, -, same⟩ := kept
  obtain rfl : u = t := Host.Outcome.next.inj (drops.symm.trans queues)
  have longer := congrArg List.length (queued.symm.trans (same _))
  simp at longer

end Sys2Proof.Machine
end

section
/-!
PROOFS. What a take-over leaves of a unit's standing (R241, R274, R275): its role, its first frame and its payload pipelines, which
neither the frames it frees nor the maps it builds touch.
-/
namespace Sys2Proof.Machine
open Sys2Proof

variable (d : Dev)

/-! ### A unit's standing -/

/-- The registers of a unit's role, its last take-over and its clock. -/
def standingRegs : List Reg := [.unitRole, .takeovers, .takeoverCause, .takeoverSfc, .timeState]

/-- What is told of a unit that takes over. -/
structure Standing where
  rd : Reg → Nat → Nat
  firstFrame : Option Nat
  kept : List (Nat × Waiting)
  takeSfc : Option (Nat × Path)
  payload : Nat → List DownFrame

def Dev.standing (d : Dev) : Standing where
  rd r i := if r ∈ standingRegs then d.rd r i else 0
  firstFrame := d.mate.firstFrame
  kept := d.mate.kept
  takeSfc := d.mate.takeSfc
  payload t := (d.tree t).payload

/-- No frame is kept. -/
def Standing.relieved (u : Standing) : Standing := { u with kept := [] }

/-- The payload pipelines of the trees of `l` are empty. -/
def Standing.emptied (u : Standing) (l : List Nat) : Standing :=
  { u with payload := fun t => if t ∈ l then [] else u.payload t }

theorem Standing.emptied_cons (u : Standing) (t : Nat) (l : List Nat) : (u.emptied [t]).emptied l = u.emptied (t :: l) := by
  simp only [Standing.emptied, List.mem_cons, List.not_mem_nil, or_false]
  congr 1
  funext x
  by_cases hx : x = t <;> simp [hx]

section
variable {d} {e : Dev}

theorem Dev.standing_of_rd (hm : e.mate.firstFrame = d.mate.firstFrame) (hk : e.mate.kept = d.mate.kept)
    (ht : e.mate.takeSfc = d.mate.takeSfc) (hp : ∀ t, (e.tree t).payload = (d.tree t).payload)
    (hr : ∀ r ∈ standingRegs, ∀ i, e.rd r i = d.rd r i) : e.standing = d.standing := by
  unfold Dev.standing
  rw [hm, hk, ht]
  congr 1
  · funext r i
    split
    · next h => exact hr r h i
    · rfl
  · exact funext hp

end

/-! ### What leaves it as it is -/

@[simp] theorem Dev.standing_wr {r : Reg} (i v : Nat) (h : r ∉ standingRegs) : (d.wr r i v).standing = d.standing :=
  Dev.standing_of_rd rfl rfl rfl (fun _ => rfl) fun _ hr _ => Dev.rd_wr_other _ _ _ _ fun e => h (e ▸ hr)

@[simp] theorem Dev.standing_add {r : Reg} (i k : Nat) (h : r ∉ standingRegs) : (d.add r i k).standing = d.standing :=
  d.standing_wr i _ h

@[simp] theorem Dev.standing_bump {r : Reg} (i : Nat) (h : r ∉ standingRegs) : (d.bump r i).standing = d.standing :=
  d.standing_wr i _ h

theorem Dev.standing_modTree (t : Nat) {f : Tree → Tree} (h : ∀ y, (f y).payload = y.payload) :
    (d.modTree t f).standing = d.standing :=
  Dev.standing_of_rd rfl rfl rfl (fun x => by
    rw [Dev.tree_modTree]
    split
    · next hx => rw [h, hx]
    · rfl) fun _ _ _ => rfl

@[simp] theorem Dev.standing_modTerm (g : Nat) (f : Term → Term) : (d.modTerm g f).standing = d.standing := rfl
@[simp] theorem Dev.standing_modQuad (q : Nat) (f : Quad → Quad) : (d.modQuad q f).standing = d.standing := rfl
@[simp] theorem Dev.standing_emit (x : Emission) : (d.emit x).standing = d.standing := rfl

theorem Dev.standing_of_butFaults {d e : Dev} (h : e.butFaults = d.butFaults)
    (hr : ∀ r i, r ≠ .occurrences → e.rd r i = d.rd r i) : e.standing = d.standing :=
  have shown : e.butFaults.standing = d.butFaults.standing := congrArg Dev.standing h
  Dev.standing_of_rd (congrArg Standing.firstFrame shown) (congrArg Standing.kept shown) (congrArg Standing.takeSfc shown)
    (fun t => congrArg (fun u : Standing => u.payload t) shown) fun r hs i => hr r i fun ho => absurd (ho ▸ hs) (by decide)

@[simp] theorem Dev.standing_event (n s index : Nat) : (d.event n s index).standing = d.standing :=
  Dev.standing_of_butFaults (d.event_butFaults n s index) fun _ i h => d.event_rd n s index i h

@[simp] theorem Dev.standing_durable (n : Nat) (f : Nat → MirrorRecord) : (d.durable n f).standing = d.standing := by
  rcases d.durable_cases n f with e | ⟨k, e⟩ <;> rw [e]
  exact d.standing_wr 0 k (by decide)

/-- Frames that leave the buffer. -/
theorem Dev.Drops.standing {d e : Dev} (h : d.Drops freeRegs e) : e.standing = d.standing :=
  have apart : ∀ r ∈ standingRegs, r ∉ freeRegs := by decide
  have mate : e.mate = d.mate := (congrArg Dev.mate h.rest :)
  Dev.standing_of_rd (congrArg Mate.firstFrame mate) (congrArg Mate.kept mate) (congrArg Mate.takeSfc mate)
    (fun t => congrArg Tree.payload (h.tree t)) fun r hr i => h.regs r i (apart r hr)

theorem Dev.Sends.standing {d e : Dev} (h : d.Sends e) : e.standing = d.standing :=
  have apart : ∀ r ∈ standingRegs, r ∉ Reg.mateState :: cipherRegs := by decide
  Dev.standing_of_rd (congrArg (·.mate.firstFrame) h.rest :) (congrArg (·.mate.kept) h.rest :)
    (congrArg (·.mate.takeSfc) h.rest :) (fun t => by rw [h.tree t]) fun r hr i => h.regs r i (apart r hr)

theorem Dev.standing_sendHeartbeat (n : Nat) (refuse : Bool) : (d.sendHeartbeat n refuse).standing = d.standing := by
  rcases d.sendHeartbeat_cases n refuse with h | ⟨e, w, h, he⟩
  · exact h.standing
  · rw [he, Dev.standing_bump _ 0 (by decide), Dev.standing_emit, h.standing]

/-! ### Frames kept and frames queued (R275) -/

/-- The frames that the unit keeps are no longer among them, nor does it keep more. -/
theorem Dev.standing_forwardKept (n : Nat) : (d.forwardKept n).standing = d.standing.relieved := by
  have freed : (d.freeKept n).standing = d.standing.relieved := by
    unfold Dev.freeKept
    exact (Dev.Frees.each fun d x _ => Dev.Frees.freeDesc d n x.1).standing
  exact freed

theorem Dev.standing_flushQueue (n q : Nat) : (d.flushQueue n q id).standing = d.standing := by
  unfold Dev.flushQueue
  exact ((Dev.Drops.setQueue d q []).trans (Dev.Frees.each fun d k _ => Dev.Frees.dropDesc d n k 6).toDrops).standing

/-- A tree's payload pipeline is emptied. -/
def Dev.emptyPayload (d : Dev) (t : Nat) : Dev :=
  ((d.tree t).payload.foldl (fun (d : Dev) (f : DownFrame) => id (d.sampleDone f.sampled 6)) d).modTree t fun x =>
    { x with payload := [] }

theorem Dev.standing_emptyPayload (t : Nat) : (d.emptyPayload t).standing = d.standing.emptied [t] := by
  have sampled : ((d.tree t).payload.foldl (fun (d : Dev) (f : DownFrame) => id (d.sampleDone f.sampled 6)) d).standing =
      d.standing := (Dev.Frees.each fun d (x : DownFrame) _ => Dev.Frees.sampleDone d x.sampled 6 : d.Frees freeRegs _).standing
  unfold Dev.emptyPayload
  rw [← sampled]
  generalize (d.tree t).payload.foldl (fun (d : Dev) (f : DownFrame) => id (d.sampleDone f.sampled 6)) d = e
  have payloads : ∀ x, ((e.modTree t fun x => { x with payload := [] }).tree x).payload =
      if x ∈ [t] then [] else (e.tree x).payload := fun x => by
    rw [Dev.tree_modTree]
    by_cases hx : x = t <;> simp [hx]
  simp only [Dev.standing, payloads]
  rfl

theorem Dev.standing_each_emptyPayload (l : List Nat) : (d.each l Dev.emptyPayload).standing = d.standing.emptied l := by
  induction l generalizing d with
  | nil => simp [Standing.emptied]
  | cons t l ih => rw [Dev.each_cons, ih, Dev.standing_emptyPayload, Standing.emptied_cons]

theorem Dev.standing_dropDownstream (n : Nat) : (d.dropDownstream n id).standing = d.standing.emptied allTrees := by
  have queues := d.each_keeps Dev.standing (l := d.buf.queues.keys.filter fun q => q < 131072)
    (f := fun d q => d.flushQueue n q id) fun d q _ => d.standing_flushQueue n q
  exact (Dev.standing_each_emptyPayload _ allTrees).trans (congrArg (Standing.emptied · allTrees) queues)

/-! ### Trees that light and profile changes (R273, R275, R280) -/

theorem Dev.standing_takeTree (k t : Nat) : (d.takeTree k t).standing = d.standing := by
  have disable : ∀ (b : Bool) v, (if b then d.wr .txdisNow (quadOf t) v else d).standing = d.standing := fun b v => by
    split
    · exact d.standing_wr _ _ (by decide)
    · rfl
  unfold Dev.takeTree Dev.rangeMsg
  dsimp only
  refine Eq.trans (Dev.standing_modTree _ _ ?_) (Eq.trans (Dev.standing_modTree _ _ ?_) ?_)
  · exact fun _ => rfl
  · exact fun _ => rfl
  rw [Dev.wrS_eq, Dev.standing_wr _ _ _ (by decide)]
  exact disable _ _

theorem Dev.standing_beginProfile (q v : Nat) : (d.beginProfile q v).standing = d.standing := by
  unfold Dev.beginProfile
  dsimp only
  rw [Dev.standing_wr _ _ _ (by decide), Dev.standing_wr _ _ _ (by decide), Dev.standing_modQuad]

theorem Dev.standing_startProfile (n arg : Nat) : (d.startOp n 4 arg).standing = d.standing := by
  unfold Dev.startOp
  dsimp only
  split
  · exact Dev.standing_beginProfile _ _ _
  · rfl

theorem Dev.standing_restartChange (n q : Nat) : (d.restartChange n q).standing = d.standing := by
  have begun : ∀ x arg, ((d.modQuad q x).startOp n 4 arg).standing = d.standing := fun x arg =>
    Dev.standing_startProfile _ _ _
  unfold Dev.restartChange
  split
  · rfl
  · split
    · split
      · exact Dev.standing_wr _ _ _ (by decide)
      · exact begun _ _
    · exact begun _ _

/-! ### Maps (R89-R104) -/

theorem Dev.standing_capOwed (a : Nat) : (d.capOwed a).standing = d.standing := by
  unfold Dev.capOwed
  dsimp only
  split
  · rw [Dev.standing_add _ _ _ (by decide), Dev.standing_wr _ _ _ (by decide)]
  · rfl

theorem Dev.standing_missReport (a : Nat) : (d.missReport a).standing = d.standing := d.standing_bump a (by decide)

theorem Dev.standing_mapSnapshot (p : Plan) : (d.mapSnapshot p).standing = d.standing := by
  unfold Dev.mapSnapshot
  dsimp only
  refine (Dev.each_keeps _ Dev.standing fun d a _ => ?_).trans (Dev.each_keeps _ Dev.standing fun d g _ => ?_)
  · rw [Dev.standing_capOwed]
    split
    · rfl
    · exact Dev.standing_wr _ _ _ (by decide)
  · split
    · split
      · rfl
      · rw [Dev.mirrorTerm, Dev.standing_durable, Dev.standing_wr _ _ _ (by decide)]
    · rfl

section
variable (b : Build) (p : Plan)

theorem Build.foldl_standing {α : Type} {l : List α} {f : Build → α → Build} (h : ∀ b x, (f b x).d.standing = b.d.standing) :
    (l.foldl f b).d.standing = b.d.standing := by
  induction l generalizing b with
  | nil => rfl
  | cons x l ih => exact (ih _).trans (h b x)

theorem Build.standing_add (step a want : Nat) : (b.add p step a want).2.d.standing = b.d.standing := by
  unfold Build.add
  extract_lets d g held
  split
  · rfl
  · split
    · exact b.d.standing_bump _ (by decide)
    · split <;> rfl

theorem Build.standing_defer (a cut : Nat) : (b.defer p a cut).d.standing = b.d.standing := by
  unfold Build.defer
  split
  · rfl
  · dsimp only
    rw [Dev.standing_capOwed, Dev.standing_bump _ _ (by decide), Dev.standing_add _ _ _ (by decide)]

theorem Build.standing_step3 : (b.step3 p).d.standing = b.d.standing := by
  refine b.foldl_standing fun b a => ?_
  dsimp only
  split
  · rfl
  · have granted := b.standing_add p 3 a (ceil16 (b.d.rd .owedBytes a))
    split
    · dsimp only
      rw [Dev.standing_bump _ _ (by decide), Dev.standing_wr _ _ _ (by decide), granted]
    · dsimp only
      rw [Dev.standing_wr _ _ _ (by decide), granted]

theorem Build.standing_step4 : (b.step4 p).d.standing = b.d.standing :=
  b.foldl_standing fun b a => (Build.standing_defer _ p a _).trans (b.standing_add p 4 a _)

theorem Build.standing_step5 : (b.step5 p).d.standing = b.d.standing := by
  refine b.foldl_standing fun b a => ?_
  split
  · rfl
  · extract_lets x lim amt want taken
    split
    · rfl
    · exact (Build.standing_defer _ p a _).trans (Build.standing_add _ p 5 a _)

theorem Build.standing_step6 : (b.step6 p).d.standing = b.d.standing := by
  refine b.foldl_standing fun b a => ?_
  split
  · split
    · rfl
    · exact b.standing_add p 6 a 64
  · rfl

theorem Build.standing_budget (late : Bool) : (b.budget p late).2.d.standing = b.d.standing := by
  have event : ∀ e : Dev, ((e.bump .admitOverrun p.t).event p.n (8 * p.t + 5) p.t).standing = e.standing := fun e => by
    rw [Dev.standing_event, Dev.standing_bump _ _ (by decide)]
  unfold Build.budget
  extract_lets d t
  split
  next e he =>
  have kept : e.standing = d.standing := by
    split at he
    · cases he
      rfl
    · split at he
      · cases he
        exact d.standing_bump _ (by decide)
      · extract_lets at he
        split at he <;> cases he
        · exact event d
        · rfl
  refine Eq.trans (Dev.standing_modTree _ _ ?_) ?_
  · exact fun _ => rfl
  rw [Dev.standing_wr _ _ _ (by decide), kept]

theorem Build.standing_tier (cls budget : Nat) : (b.tier p cls budget).2.d.standing = b.d.standing := by
  unfold Build.tier
  extract_lets l l
  split
  next gs rest _ =>
  refine b.foldl_standing fun b x => ?_
  have granted := b.standing_add p 7 x.1 ((gs.find? fun g => g.1 == x.1).elim 0 (·.2))
  dsimp only
  split <;> exact granted

theorem Build.standing_unadd (x : Add) (kept : Nat) : (b.unadd p x kept).d.standing = b.d.standing := by
  unfold Build.unadd
  dsimp only
  split
  · rfl
  · split
    · exact b.standing_defer p _ _
    · split <;> rfl

theorem Build.standing_trim (l : List Nat) : (b.trim p l).d.standing = b.d.standing := by
  induction l generalizing b with
  | nil => rfl
  | cons i l ih =>
    unfold Build.trim
    split
    · rfl
    · split
      · exact ih b
      · dsimp only
        split
        · exact Build.standing_unadd _ p _ _
        · exact (ih _).trans (Build.standing_unadd _ p _ _)

theorem Build.standing_missTrimmed : b.missTrimmed.standing = b.d.standing := by
  unfold Build.missTrimmed
  refine Dev.each_keeps _ Dev.standing fun d a _ => ?_
  split
  · exact d.standing_missReport a
  · rfl

end

theorem Dev.standing_buildMap (n t sfc : Nat) (pt : MapPoint) (late : Bool) :
    (d.buildMap n t sfc pt late).standing = d.standing := by
  unfold Dev.buildMap
  extract_lets p b0 b1
  have planned : b1.d.standing = d.standing := by
    rw [Build.standing_step6, Build.standing_step5, Build.standing_step4, Build.standing_step3, Dev.standing_mapSnapshot]
  have budgeted := b1.standing_budget p late
  split
  next budget b2 h2 =>
  rw [h2] at budgeted
  have tier := b2.standing_tier p 2 budget
  split
  next rest b3 h3 =>
  rw [h3] at tier
  have last := b3.standing_tier p 3 rest
  split
  next b4 h4 =>
  rw [h4] at last
  extract_lets b5 z d1 wanted
  have trimmed : b5.d.standing = d.standing :=
    (b4.standing_trim p _).trans (last.trans (tier.trans (budgeted.trans planned)))
  have laid : d1.standing = d.standing := by
    rw [Dev.standing_add _ _ _ (by decide), Build.standing_missTrimmed, trimmed]
  refine Eq.trans (Dev.standing_modTree _ _ ?_) ?_
  · exact fun _ => rfl
  exact (Dev.each_keeps _ Dev.standing fun d x _ => d.standing_modTerm _ _).trans laid

theorem Dev.standing_buildMaps (n : Nat) (p : MapPoint) (late : List Nat) : (d.buildMaps n p late).standing = d.standing :=
  d.each_keeps Dev.standing fun d t _ => d.standing_buildMap n t _ _ _

/-! ### The take-over (R241, R274, R275) -/

theorem Dev.takeRole_rd (role : Nat) (r : Reg) (i : Nat) : (d.takeRole role).rd r i = (d.wr .unitRole 0 role).rd r i := rfl

theorem Dev.toActive_rd {r : Reg} (h : r ∉ [.unitRole, .mirrorState]) (i : Nat) : d.toActive.rd r i = d.rd r i := by
  simp only [List.mem_cons, List.not_mem_nil, or_false, not_or] at h
  obtain ⟨role, mirror⟩ := h
  rw [Dev.toActive, Dev.modMate_rd, Dev.rd_wr_other _ _ _ _ mirror, Dev.takeRole_rd, Dev.rd_wr_other _ _ _ _ role]

theorem Reg.modulus_unitRole : Reg.modulus .unitRole = 256 := by decide +kernel
theorem Reg.modulus_takeovers : Reg.modulus .takeovers = 2 ^ 64 := by decide +kernel
theorem Reg.modulus_takeoverCause : Reg.modulus .takeoverCause = 256 := by decide +kernel
theorem Reg.modulus_takeoverSfc : Reg.modulus .takeoverSfc = 2 ^ 64 := by decide +kernel

theorem Dev.toActive_role : d.toActive.rd .unitRole 0 = 1 := by
  rw [Dev.toActive, Dev.modMate_rd, Dev.rd_wr_other _ _ _ _ (by decide), Dev.takeRole_rd, Dev.rd_wr_same, Reg.modulus_unitRole]

/-- The unit's role and what names its take-over. -/
def Dev.claimed (d : Dev) (cause k : Nat) : Dev :=
  ((d.toActive.bump .takeovers 0).wr .takeoverCause 0 cause).wr .takeoverSfc 0 k

/-- A unit that has claimed its role, its first frame noted. -/
def Dev.noted (d : Dev) (n cause k : Nat) : Dev :=
  ((d.claimed cause k).modMate fun m => { m with takeSfc := none, tookOverAt := some n, firstFrame := some k }).dropLevel 396

/-- A unit that has noted its take-over follows its mate's time no longer. -/
def Dev.assumed (d : Dev) (n cause k : Nat) : Dev :=
  if (d.noted n cause k).rd .timeState 0 = 3 then (d.noted n cause k).wr .timeState 0 1 else d.noted n cause k

theorem Dev.noted_rd (n cause k : Nat) (r : Reg) (i : Nat) : (d.noted n cause k).rd r i = (d.claimed cause k).rd r i := by
  rw [Dev.noted, Dev.dropLevel_rd, Dev.modMate_rd]

theorem Dev.assumed_mate (n cause k : Nat) : (d.assumed n cause k).mate = (d.noted n cause k).mate := by
  unfold Dev.assumed
  split
  · exact Dev.wr_mate _ _ _ _
  · rfl

theorem Dev.assumed_rd (n cause k : Nat) {r : Reg} (i : Nat) (h : r ≠ .timeState) :
    (d.assumed n cause k).rd r i = (d.claimed cause k).rd r i := by
  rw [← d.noted_rd n]
  unfold Dev.assumed
  split
  · exact Dev.rd_wr_other _ _ _ _ h
  · rfl

theorem Dev.assumed_time (n cause k : Nat) : (d.assumed n cause k).rd .timeState 0 ≠ 3 := by
  unfold Dev.assumed
  split
  · rw [Dev.rd_wr_same, Reg.modulus_timeState]
    decide
  · assumption

theorem Dev.noted_mate (n cause k : Nat) :
    (d.noted n cause k).mate.firstFrame = some k ∧ (d.noted n cause k).mate.takeSfc = none := by
  rw [Dev.noted, Dev.mate_of_butFaults (Dev.dropLevel_butFaults _ 396)]
  exact ⟨rfl, rfl⟩

/-- What a take-over for `cause` with first frame `k` leaves. -/
structure Dev.Taken (d e : Dev) (cause k : Nat) : Prop where
  role : e.rd .unitRole 0 = 1
  count : e.rd .takeovers 0 = (d.rd .takeovers 0 + 1) % 2 ^ 64
  cause : e.rd .takeoverCause 0 = cause
  named : e.rd .takeoverSfc 0 = k % 2 ^ 64
  time : e.rd .timeState 0 ≠ 3
  first : e.mate.firstFrame = some k
  kept : e.mate.kept = []
  noted : e.mate.takeSfc = none
  pipelines : ∀ t ∈ allTrees, (e.tree t).payload = []

theorem Dev.standing_takeOver (n cause k : Nat) : (d.takeOver n cause k).standing =
    (d.assumed n cause k).standing.relieved.emptied allTrees := by
  have steered : ∀ e : Dev, ({ e with gnomon := { e.gnomon with servoAt := n } } : Dev).standing = e.standing := fun e => rfl
  have told : ∀ e : Dev, ∀ t, ((e.setTod t ((e.tree t).todN.getD 0)).bump .todGen t).standing = e.standing := fun e t => by
    rw [Dev.standing_bump _ _ (by decide), Dev.setTod]
    refine Eq.trans (Dev.standing_modTree _ _ ?_) (e.standing_wr _ _ (by decide))
    exact fun _ => rfl
  unfold Dev.takeOver
  refine (Dev.each_keeps _ Dev.standing fun d p _ => d.standing_buildMaps n p []).trans ?_
  refine (Dev.each_keeps _ Dev.standing fun d q _ => d.standing_restartChange n q).trans ?_
  refine (Dev.each_keeps _ Dev.standing fun d t _ => d.standing_takeTree k t).trans ?_
  rw [Dev.standing_dropDownstream, Dev.standing_forwardKept, Dev.standing_sendHeartbeat]
  refine congrArg (fun u : Standing => u.relieved.emptied allTrees) ?_
  exact (Dev.each_keeps _ Dev.standing fun e t _ => told e t).trans (steered (d.assumed n cause k))

theorem Dev.Taken.of_standing {e c : Dev} {cause k : Nat}
    (h : e.standing = c.standing.relieved.emptied allTrees)
    (role : c.rd .unitRole 0 = 1) (count : c.rd .takeovers 0 = (d.rd .takeovers 0 + 1) % 2 ^ 64)
    (hc : c.rd .takeoverCause 0 = cause) (named : c.rd .takeoverSfc 0 = k % 2 ^ 64) (time : c.rd .timeState 0 ≠ 3)
    (first : c.mate.firstFrame = some k) (noted : c.mate.takeSfc = none) : d.Taken e cause k := by
  have reads : ∀ r ∈ standingRegs, e.rd r 0 = c.rd r 0 := fun r hr => by
    have := congrArg (fun u : Standing => u.rd r 0) h
    simpa only [Dev.standing, Standing.relieved, Standing.emptied, if_pos hr] using this
  exact {
    role := (reads _ (by decide)).trans role
    count := (reads _ (by decide)).trans count
    cause := (reads _ (by decide)).trans hc
    named := (reads _ (by decide)).trans named
    time := by rwa [reads _ (by decide)]
    first := (congrArg Standing.firstFrame h).trans first
    kept := congrArg Standing.kept h
    noted := (congrArg Standing.takeSfc h).trans noted
    pipelines := fun t ht => (congrArg (fun u : Standing => u.payload t) h).trans (if_pos ht) }

theorem Dev.takeOver_taken (n : Nat) {cause : Nat} (k : Nat) (h : cause < 256) : d.Taken (d.takeOver n cause k) cause k := by
  obtain ⟨first, noted⟩ := d.noted_mate n cause k
  refine .of_standing d (d.standing_takeOver n cause k) ?_ ?_ ?_ ?_ (d.assumed_time n cause k) ?_ ?_
  · rw [Dev.assumed_rd _ _ _ _ _ (by decide), Dev.claimed, Dev.rd_wr_other _ _ _ _ (by decide),
      Dev.rd_wr_other _ _ _ _ (by decide), Dev.bump_rd_other _ _ _ (by decide), Dev.toActive_role]
  · rw [Dev.assumed_rd _ _ _ _ _ (by decide), Dev.claimed, Dev.rd_wr_other _ _ _ _ (by decide),
      Dev.rd_wr_other _ _ _ _ (by decide), Dev.rd_bump_counter _ _ Reg.modulus_takeovers, Dev.toActive_rd _ (by decide)]
  · rw [Dev.assumed_rd _ _ _ _ _ (by decide), Dev.claimed, Dev.rd_wr_other _ _ _ _ (by decide), Dev.rd_wr_same,
      Reg.modulus_takeoverCause, Nat.mod_eq_of_lt h]
  · rw [Dev.assumed_rd _ _ _ _ _ (by decide), Dev.claimed, Dev.rd_wr_same, Reg.modulus_takeoverSfc]
  · rw [Dev.assumed_mate, first]
  · rw [Dev.assumed_mate, noted]

/-! ### Silence (R271, R275) -/

section
variable {s : State} {n : Nat}

theorem heartbeatMiss_keeps (hr : s.dev.rd .unitRole 0 = 2) (hl : s.dev.quietFor (max s.now n) 7900416 .lanes = true)
    (hp : s.dev.quietFor (max s.now n) 7900416 .pins = true) : Completes (.heartbeatMiss n) s n fun e =>
      e = { s.dev with mate := { s.dev.mate with keeping := true } } := by
  refine completes_at rfl ?_
  rw [if_pos ⟨hr, hl, hp⟩]
  rfl

/-- A path is held silent: its bit is clear, and its alarm is counted and raised. -/
def Dev.silenced (d : Dev) (n : Nat) (p : Path) : Dev :=
  ((d.wr .pathState 0 (setBit (d.rd .pathState 0) (pathBit p) false)).bump .pathAlarms 0).raiseLevel n
    { source := 394 + pathBit p }

theorem Reg.modulus_pathAlarms : Reg.modulus .pathAlarms = 2 ^ 64 := by decide +kernel

theorem pathBit_lt (p : Path) : pathBit p < 2 := by cases p <;> decide

theorem Dev.silenced_bit (p : Path) : bitAt ((d.silenced n p).rd .pathState 0) (pathBit p) = false := by
  have inside : pathBit p < 32 := Nat.lt_trans (pathBit_lt p) (by decide)
  rw [Dev.silenced, Dev.raiseLevel_rd _ _ _ _ (by decide), Dev.bump_rd_other _ _ _ (by decide), Dev.rd_wr_same,
    Reg.modulus_pathState, bitAt_mod_two_pow inside, bitAt_setBit]

theorem Dev.silenced_alarms (p : Path) : (d.silenced n p).rd .pathAlarms 0 = (d.rd .pathAlarms 0 + 1) % 2 ^ 64 := by
  rw [Dev.silenced, Dev.raiseLevel_rd _ _ _ _ (by decide), Dev.rd_bump_counter _ _ Reg.modulus_pathAlarms,
    Dev.rd_wr_other _ _ _ _ (by decide)]

theorem Dev.silenced_rd (p : Path) {r : Reg} (i : Nat) (h : r ∉ [.pathState, .pathAlarms, .occurrences]) :
    (d.silenced n p).rd r i = d.rd r i := by
  simp only [List.mem_cons, List.not_mem_nil, or_false, not_or] at h
  obtain ⟨state, alarms, occurrences⟩ := h
  rw [Dev.silenced, Dev.raiseLevel_rd _ _ _ _ occurrences, Dev.bump_rd_other _ _ _ alarms, Dev.rd_wr_other _ _ _ _ state]

/-- What a path that falls silent changes beside its alarm is the mate's alone. -/
theorem pathSilent_silences {p : Path} (he : s.dev.on .redundancyEnable 0 = true)
    (hq : s.dev.quietFor (max s.now n) 23452416 p = true) (hs : (s.dev.source (394 + pathBit p)).level = false) :
    Completes (.pathSilent n p) s n fun e => ∃ m : Mate, e = { s.dev.silenced (max s.now n) p with mate := m } := by
  refine completes_at rfl ?_
  simp only [he, hq, hs, Bool.not_false, Bool.or_true, Bool.and_self, if_true]
  split <;> split <;> exact ⟨_, rfl⟩

/-! ### The take-over's causes (R274, R276) -/

theorem takeover_silence (hr : s.dev.rd .unitRole 0 = 2) (hm : s.dev.mayTakeOver = true) (hp : s.dev.rd .pathState 0 % 4 = 0)
    (hu : s.dev.mate.unplacedAt = none) : Completes (.takeover n .silence) s n fun e =>
      e = s.dev.takeOver (max s.now n) 1 (s.dev.frameAt (max s.now n + ceilDiv (s.dev.rd .txOnUs 0 * 124416) 100)) := by
  refine completes_at rfl ?_
  simp [hr, hm, hp, hu]

theorem takeover_relinquish {p : Path} {k : Nat} (hr : s.dev.rd .unitRole 0 = 2) (hm : s.dev.mayTakeOver = true)
    (ht : s.dev.mate.takeSfc = some (k, p)) (hk : k ≤ s.dev.rd .superframe 0 + 1) :
    Completes (.takeover n (.relinquish p k)) s n fun e =>
      e = s.dev.takeOver (max s.now n) (2 + pathBit p) (max k (s.dev.rd .superframe 0 + 1)) := by
  refine completes_at rfl ?_
  simp [hr, hm, ht, hk]

end

/-- Settles O56: a silent path is a matter of its own bit and alarm; a take-over sets role, names and first frame, and what follows
it, the frames that it frees and the maps that it builds, leaves them. -/
theorem silenceIsFollowedByTakeover : Obligations.SilenceIsFollowedByTakeover := by
  unfold Obligations.SilenceIsFollowedByTakeover
  refine fun s n => ⟨fun hr hl hp => heartbeatMiss_keeps hr hl hp, fun p he hq hs => ?_, fun hr hm => ?_⟩
  · refine (pathSilent_silences he hq hs).imp fun e h => ?_
    obtain ⟨m, rfl⟩ := h
    exact ⟨s.dev.silenced_bit p, s.dev.silenced_alarms p, Dev.raiseLevel_raised _ _ rfl (by omega),
      fun r i h => s.dev.silenced_rd p i h⟩
  · have taken : ∀ cause k, cause < 256 → ∀ e, e = s.dev.takeOver (max s.now n) cause k → s.dev.Taken e cause k :=
      fun cause k hc e h => h ▸ s.dev.takeOver_taken _ k hc
    have pipelines : ∀ {cause k e}, s.dev.Taken e cause k → ∀ t < 32, (e.tree t).payload = [] := fun h t ht =>
      h.pipelines t (List.mem_range.2 ht)
    refine ⟨fun hp hu => (takeover_silence hr hm hp hu).imp fun e h => ?_,
      fun p k ht hk => (takeover_relinquish hr hm ht hk).imp fun e h => ?_⟩
    · have h := taken _ _ (by decide) e h
      exact ⟨h.role, h.count, h.cause, h.named, h.time, h.first, h.kept, h.noted, pipelines h⟩
    · have h := taken _ _ (by have := pathBit_lt p; omega) e h
      exact ⟨h.role, h.count, h.cause, h.named, h.time, h.first, h.kept, h.noted, pipelines h⟩

end Sys2Proof.Machine
end
